-- ==== Sys2Proof/Word.lean ====
section
/-! DEFINITION. The words the device handles: bytes and 32-bit words, little-endian (R2). -/

namespace Sys2Proof

/-- A byte. -/
abbrev Byte := BitVec 8

/-- A register word (R10). -/
abbrev Word := BitVec 32

end Sys2Proof
end

