-- ==== Sys2Proof/Machine/Frames.lean ====
section
/-! DEFINITION. What travels on the wires, as commands carry it in and outputs carry it out: Maltus
frames and segments (chapters 3 and 4), twin-link frames (chapter 14), host-port traffic
(chapter 17), and the samples a station takes (chapter 5). A checksum that covers bytes of a frame
whose layout the spec leaves to Askino is carried as its outcome. -/

namespace Sys2Proof.Machine

/-- The outcome of a frame CRC: correct, the complement of the correct value, or another mismatch
(R74). DESIGN CHOICE, log entry 12. -/
inductive CrcOutcome
  | correct | complement | wrong
  deriving DecidableEq, Repr

/-- The 16-byte header of a Maltus frame, without its type (R72). -/
structure FrameHdr where
  /-- Unit ID of the originating head, 0 or 1. -/
  origin : Nat := 0
  /-- The originating head holds the active role. -/
  act : Bool := false
  /-- The frame has been folded. -/
  fold : Bool := false
  /-- Forerunner time mode. -/
  fore : Bool := false
  /-- The originating head is the leading head. -/
  lead : Bool := false
  /-- Low 32 bits of the sender's tick number. -/
  tick : Word := 0
  /-- Frame time at which the frame left the originating node. -/
  txTime : Word := 0
  /-- Accumulated path delay in 1/256 ns, 24 bits. -/
  corr : Nat := 0
  /-- Active epoch, 8 bits. -/
  epoch : Nat := 0
  deriving DecidableEq, Repr

/-- A segment of a CYC frame (R76). -/
structure Seg where
  /-- Segment header: ptype, words, cmd_miss, src, fold, valid, kind, addr. -/
  hdr : Word := 0
  /-- Payload words. -/
  words : List Word := []
  /-- Outcome of the segment CRC. -/
  crc : CrcOutcome := .correct
  deriving DecidableEq, Repr

/-- The head segment's payload (R77). -/
structure HeadSeg where
  /-- Station ordered to re-integrate, 0 for none. -/
  reint : Nat := 0
  /-- A schedule change is cancelled. -/
  cancel : Bool := false
  /-- A schedule change is announced. -/
  ann : Bool := false
  /-- Announced target mode. -/
  tgt : Nat := 0
  /-- Mode in force. -/
  sched : Nat := 0
  /-- Low 32 bits of the target tick. -/
  tgtTick : Word := 0
  /-- Apply offset in ns. -/
  applyOfs : Nat := 0
  /-- The head segment passes its segment CRC. -/
  crcOk : Bool := true
  deriving DecidableEq, Repr

/-- A CYC frame (R75). -/
structure CycFrame where
  /-- Header. -/
  hdr : FrameHdr := {}
  /-- Head segment. -/
  head : HeadSeg := {}
  /-- Command segments, in frame order. -/
  cmds : List Seg := []
  /-- Feedback segments of the collect area, in frame order. -/
  fbs : List Seg := []
  /-- Outcome of the frame CRC. -/
  crc : CrcOutcome := .correct
  deriving DecidableEq, Repr

/-- A CST frame (R115). -/
structure CstFrame where
  /-- Header. -/
  hdr : FrameHdr := {}
  /-- The sender's TIM_TICK. -/
  tickNs : Nat := 31250
  /-- Initial schedule mode. -/
  initSched : Nat := 0
  /-- 0 contention phase, 1 delay phase. -/
  phase : Nat := 0
  /-- Outcome of the frame CRC. -/
  crc : CrcOutcome := .correct
  deriving DecidableEq, Repr

/-- The payload of a BCN frame with the header's tick and time (R102). -/
structure BcnFrame where
  /-- Header. -/
  hdr : FrameHdr := {}
  /-- integ. -/
  integ : Bool := false
  /-- Unit ID of a head sender. -/
  unit : Nat := 0
  /-- Sender address, 0 for a head. -/
  addr : Nat := 0
  /-- Outcome of the frame CRC. -/
  crc : CrcOutcome := .correct
  deriving DecidableEq, Repr

/-- An ALM frame (R102). -/
structure AlmFrame where
  /-- Source address. -/
  addr : Nat := 0
  /-- Alarm code. -/
  code : Nat := 0
  /-- detail. -/
  detail : Nat := 0
  /-- detail2. -/
  detail2 : Word := 0
  /-- Outcome of the frame CRC. -/
  crc : CrcOutcome := .correct
  deriving DecidableEq, Repr

/-- A mailbox reply (R102, R153). -/
structure MbxReply where
  /-- Replying station. -/
  addr : Nat := 0
  /-- Service code. -/
  service : Nat := 0
  /-- Result code (R155). -/
  result : Nat := 0
  /-- Index. -/
  index : Nat := 0
  /-- Data words. -/
  words : List Word := []
  /-- Outcome of the frame CRC. -/
  crc : CrcOutcome := .correct
  deriving DecidableEq, Repr

/-- A port of a node on a line: a line port of this head, or port 0 (toward unit A) or 1 (toward
unit B) of a station. -/
inductive Port
  | head (line : Fin 8)
  | station (addr : Fin 256) (side : Fin 2)
  deriving DecidableEq, Repr

/-- What one axis of a cell shows at a tick instant: currents and voltages as measured, the
quadrature pairs seen since the last sample in order, the Hall states and the causes of faults
present (R163, R165, R177). -/
structure AxSample where
  /-- i_u, or coil current i_a. -/
  iu : BitVec 16 := 0
  /-- i_v, or coil current i_b. -/
  iv : BitVec 16 := 0
  /-- i_w. -/
  iw : BitVec 16 := 0
  /-- udc. -/
  udc : BitVec 16 := 0
  /-- Quadrature pairs 0 to 3 sampled since the last tick instant, in order. -/
  quad : List Nat := []
  /-- Hall states. -/
  hall : Nat := 0
  /-- The STO input is active. -/
  sto : Bool := false
  /-- Encoder signal fault. -/
  encFlt : Bool := false
  /-- Over-current, over-voltage, over-temperature, under-voltage, open coil A and B present now. -/
  oc : Bool := false
  /-- Over-voltage. -/
  ov : Bool := false
  /-- Over-temperature. -/
  ot : Bool := false
  /-- Under-voltage. -/
  uv : Bool := false
  /-- Coil A open. -/
  openA : Bool := false
  /-- Coil B open. -/
  openB : Bool := false
  /-- Power-stage temperature. -/
  temp : BitVec 16 := 0
  /-- External reference. -/
  ext : BitVec 16 := 0
  deriving DecidableEq, Repr

/-- What one station shows at a tick instant (R13, R163, R167, R169, R188). -/
structure StSample where
  /-- Station address. -/
  addr : Nat := 0
  /-- Axes of a cell. -/
  axes : List AxSample := []
  /-- DI words, in block order. -/
  di : List Word := []
  /-- AI words, in block order. -/
  ai : List Word := []
  /-- A channel is open or out of range. -/
  aiFlt : Bool := false
  /-- A digital output is faulty. -/
  doFlt : Bool := false
  /-- Duration of the last scan in µs. -/
  scanUs : Nat := 0
  /-- Frame time at which the scan of an asynchronous station began. -/
  scanTs : Word := 0
  /-- Feedback SAFE block words, as the station's safety part built them. -/
  safe : List Word := []
  deriving DecidableEq, Repr

/-- A twin-link heartbeat (R469). -/
structure Heartbeat where
  /-- Unit ID of the sender. -/
  unit : Nat := 0
  /-- The sender holds the active role. -/
  act : Bool := false
  /-- The sender leads network time. -/
  lead : Bool := false
  /-- The sender is fit. -/
  fit : Bool := false
  /-- The sender announces its leaving. -/
  leaving : Bool := false
  /-- Operating mode of the sender. -/
  mode : Nat := 0
  /-- Twin state of the sender. -/
  tstate : Nat := 0
  /-- Epoch. -/
  epoch : Nat := 0
  /-- Tick. -/
  tick : Word := 0
  /-- rel_req, 8 bits. -/
  relReq : Nat := 0
  /-- The sender's TW_CFG_CRC. -/
  cfgCrc : Word := 0
  deriving DecidableEq, Repr

/-- A safety PDU's four words (R443). -/
abbrev Pdu := List Word

/-- A host-port frame or datagram up to its UDP payload (R535, R536). -/
structure HostFrame where
  /-- The frame carries a VLAN tag. -/
  vlan : Bool := false
  /-- Bytes of the frame payload. -/
  size : Nat := 0
  /-- IPv4 with UDP. -/
  udp : Bool := true
  /-- The datagram carries IPv4 options or is a fragment. -/
  optionsOrFragment : Bool := false
  /-- Source address. -/
  src : Word := 0
  /-- Destination address. -/
  dst : Word := 0
  /-- Source port. -/
  srcPort : BitVec 16 := 0
  /-- Destination port. -/
  dstPort : BitVec 16 := 0
  /-- The UDP checksum is non-zero and wrong. -/
  sumBad : Bool := false
  /-- SHP header: protocol version. -/
  ver : Nat := 1
  /-- SHP header: type. -/
  type : Nat := 0
  /-- SHP header: payload bytes. -/
  len : Nat := 0
  /-- SHP header: session identity. -/
  sid : Word := 0
  /-- SHP header: message count. -/
  seq : Nat := 0
  /-- SHP header: request identity. -/
  req : Word := 0
  /-- SHP header: reserved and result fields are 0. -/
  clean : Bool := true
  /-- Payload words. -/
  words : List Word := []
  /-- Tag, 16 bytes; empty in HELLO. -/
  tag : List Byte := []
  deriving DecidableEq, Repr

/-- What leaves a station. -/
inductive StOut
  | forward (port : Nat) (f : CycFrame)
  | forwardCst (port : Nat) (f : CstFrame)
  | alarm (f : AlmFrame)
  | bcn (port : Nat) (f : BcnFrame)
  | mbxReply (r : MbxReply)
  | dreq (port : Nat)
  | drsp (port : Nat) (turnaroundPs : Nat)
  | fire (output act id : Nat)
  deriving DecidableEq, Repr

end Sys2Proof.Machine
end

