-- ==== Sys2Proof/Machine/Data.lean ====
section
/-! DEFINITION. The parts of the machine's state: plain records and enumerations, with the rule of
the spec that gives each field, its width and its value at reset (the field's default). -/

namespace Sys2Proof.Machine

/-- The bus masters of the register space (R627, R628). -/
inductive Master
  | host | supervisor | at0 | at1
  deriving DecidableEq, Repr

/-- The states of the cold-start machine of a head, in the order of ML_NET_STAT.hstate (R116). -/
inductive HState
  | listen | coldC | coldD | gather | follow | synced
  deriving DecidableEq, Repr

/-- The states of a station's network interface (R120). -/
inductive StState
  | forward | coarse | integrated
  deriving DecidableEq, Repr

/-- What trips or marks a cell: over-current, over-voltage, over-temperature, under-voltage, encoder
fault, command watchdog, open coils A and B (R163, R165, R171). -/
inductive StFault
  | oc | ov | ot | uv | enc | wd | openA | openB
  deriving DecidableEq, Repr

/-- What stands at a job's entry point: the library job of an axis, of a process loop (or of the
group it leads), or custom loop code (R22, R266, R321, R365). -/
inductive LibJob
  | servo (axis : Nat) | stepper (axis : Nat) | loop (idx : Nat) | group (idx : Nat) | custom
  deriving DecidableEq, Repr

/-- The controls of a process loop (R372). -/
inductive LoopCtl
  | auto | manual | resume | reset
  deriving DecidableEq, Repr

/-- One profile command of a tick: its op, the target word it took, and the SHP request that waits
for its result, by session, request and entry (R306, R307, R549). -/
structure PrfCmd where
  /-- Op 0 to 15 (R306). -/
  op : Nat := 0
  /-- AX_PRF_TGT as the command takes it (R306). -/
  tgt : Int := 0
  deriving DecidableEq, Repr

/-- A mailbox request on a line (R99, R153, R154). -/
structure MbxMsg where
  /-- Station address. -/
  addr : Nat := 0
  /-- Service code. -/
  service : Nat := 0
  /-- Index word. -/
  index : Nat := 0
  /-- Count. -/
  count : Nat := 0
  /-- Words carried. -/
  words : List Word := []
  deriving DecidableEq, Repr

/-- One entry of a WRITE (R549). -/
structure WEntry where
  /-- [31:2] word address, [1:0] op. -/
  addrOp : Word := 0
  /-- Value. -/
  value : Word := 0
  /-- Mask. -/
  mask : Word := 0
  deriving DecidableEq, Repr

/-- The messages of a session that wait for a tick: WRITE and CMD (R59, R539, R549, R551). -/
inductive MsgBody
  | write (entries : List WEntry)
  | cmd (words : List Word)
  deriving DecidableEq, Repr

/-- A response to the host: message type, result code and payload words (R538, R542). -/
structure Response where
  /-- Type of the request plus 0x80. -/
  type : Nat := 0
  /-- Result code (R542). -/
  result : Nat := 0
  /-- Payload. -/
  words : List Word := []
  deriving DecidableEq, Repr

/-- The measured delay of one link of one line (R54-R57). -/
structure LinkDelay where
  /-- The line (R54; 0-7). -/
  line : Nat := 0
  /-- The link, numbered from unit A's end (R54; 0-32). -/
  link : Nat := 0
  /-- Round trip of the held measurement; none: not measured yet (R54,R57; ps). -/
  rtt : Option Nat := none
  /-- Round trip of a measurement held back (R57; ps). -/
  held : Option Nat := none
  /-- A measurement that becomes the held delay at the next tick (R57; ps). -/
  next : Option Nat := none
  /-- Round trips measured in COLD_D (R120; list of ps). -/
  cold : List Nat := []
  deriving DecidableEq, Repr

/-- Network time, the tick and the external tick, beside the TIM_ registers. -/
structure TimeSt where
  /-- The head numbers ticks: from T(0) in COLD_C, or from its first tick in FOLLOW (R60; 1 bit).
  -/
  numbered : Bool := false
  /-- The number n of the present tick T(n) (R32; unbounded count). -/
  tick : Nat := 0
  /-- The tick period in force: TIM_TICK as the last cold start took it (R31; 18 bits). -/
  tickNs : Nat := 31250
  /-- The time mode in force since the last cold start (R31; 1 bit). -/
  forerunner : Bool := false
  /-- The TICK ball direction in force since the last cold start (R31; 1 bit). -/
  tickIn : Bool := false
  /-- TIM_CFG.tick_out_en as it took effect at the last tick instant (R31; 1 bit). -/
  tickOutEn : Bool := false
  /-- TIM_TICK_OUT as it took effect at the last tick instant (R31; 32 bits). -/
  tickOut : Word := 0x000003E8#32
  /-- The rate of this head's time base in parts per 10^9 off REFCLK: the rate last followed
  (R36,R38; signed count). -/
  rate : Int := 0
  /-- Consecutive accepted edges (R38; count to 8). -/
  extGood : Nat := 0
  /-- An edge was accepted for the present tick (R38; 1 bit). -/
  extSeen : Bool := false
  /-- The edge of the next tick came before its instant, or was judged already (R38; 1 bit). -/
  extNext : Bool := false
  /-- The listen time has ended and a cold start waits for the first edge (R39; 1 bit). -/
  extWait : Bool := false
  /-- The device's own 1.000 GHz clock since leaving Reset (R60; ns). -/
  clock : Nat := 0
  /-- The device clock at the last RESTART; 0 before any (R60,R588; ns). -/
  base : Nat := 0
  /-- Upper word of network time latched by a read of TIM_NOW_LO (R40,R628; 32 bits per bus
  master). -/
  nowHi : List (Master × Word) := []
  /-- Buffered write of TIM_EPOCH_LO (R42,R628; 32 bits per bus master). -/
  epochLo : List (Master × Word) := []
  /-- Offset committed by TIM_EPOCH_HI, waiting for the next tick instant (R42; 64 bits). -/
  epochPend : Option (BitVec 64) := none
  /-- Old and new offset of the EPOCH record of the present tick (R42,R502; 2 x 64 bits). -/
  epochRec : Option (BitVec 64 × BitVec 64) := none
  /-- Held delay and held-back measurement of each link of each line (R57; list). -/
  links : List LinkDelay := []
  /-- Last tx_time difference of two successive CYC frames of the leading head, while integrating
  (R33; ns). -/
  cycDiff : Option Nat := none
  /-- Last accepted CYC frame of the leading head, while integrating (R33; tick and frame time).
  -/
  cycLast : Option (Nat × Word) := none
  /-- The offset from the leading domain was measured in the present tick (R47,R116; 1 bit). -/
  domSeen : Bool := false
  /-- Classes of the events that the record of the present tick took (R61 (TIM_EVT_LAST); 6 bits).
  -/
  evtCls : Nat := 0
  /-- Consecutive ticks in which dom_ofs held within 20 ns (R116; count to 8). -/
  ofsGood : Nat := 0
  deriving DecidableEq, Repr

/-- One line port of this head, beside the ML_ registers. -/
structure LineSt where
  /-- The receiver holds code-group synchronisation (ML_STAT.link mirrors it) (R68; 1 bit). -/
  link : Bool := false
  /-- ML_CFG in force: as the last entry into Listen took it (R112 (ML_CFG),R587; 32 bits). -/
  cfg : Word := 4
  /-- The neighbour on the port is judged live (R92; 1 bit). -/
  nbrLive : Bool := false
  /-- Consecutive ticks with link and a valid BCN while the neighbour is dead (R92; count to 8).
  -/
  nbrGood : Nat := 0
  /-- A valid BCN has arrived in the present tick (R92; 1 bit). -/
  bcnSeen : Bool := false
  /-- First tick in which the head held a time; its judgements by BCN begin after the next one
  (R92; tick). -/
  bcnFrom : Option Nat := none
  /-- The partner's CYC frame was accepted in the present tick (R95; 1 bit). -/
  partnerSeen : Bool := false
  /-- A CYC frame of the partner has been accepted since COLD_D began (R119; 1 bit). -/
  partnerExp : Bool := false
  /-- Position at which this head's frame was seen to fold in the present tick (R93,R95;
  position). -/
  foldNow : Option Nat := none
  /-- This head's frame returned folded in the previous tick (R95; 1 bit). -/
  foldPrev : Bool := false
  /-- The partner's CYC frame was accepted in the previous tick (R95; 1 bit). -/
  partnerPrev : Bool := true
  /-- Bit l of rel_req in the partner's last heartbeat (R95,R469; 1 bit). -/
  relayReq : Bool := false
  /-- Feedback relay runs for this line (ML_STAT.relay mirrors it) (R95; 1 bit). -/
  relay : Bool := false
  /-- Ticks of the babbles counted on the port within line_win (R108; list of ticks). -/
  babbles : List Nat := []
  /-- Arrival of the first valid feedback segment of the present tick (R110 (ML_ARR); ns). -/
  arrFirst : Option Nat := none
  /-- Arrival of the last valid feedback segment of the present tick (R110 (ML_ARR); ns). -/
  arrLast : Nat := 0
  /-- The guard band in force (a write acts from the next tick) (R112 (ML_GUARD); 11 bits). -/
  guardNs : Nat := 200
  /-- The apply offset carried in the head segment of the present frame (R112 (ML_APPLY_OFS); 18
  bits). -/
  applyOfs : Nat := 14000
  /-- Apply offsets written, with the tick whose frame carries them first (R112 (ML_APPLY_OFS);
  list). -/
  applyPend : List (Nat × Nat) := []
  /-- Stations pending for re-integration, ascending (R127; list of addresses). -/
  reintQ : List Nat := []
  /-- Station named in reint and the ticks left (R127; address and count to 8). -/
  reintCur : Option (Nat × Nat) := none
  /-- The request this head sent in the present tick (R99; message). -/
  mbxOut : Option MbxMsg := none
  /-- Egress time of the DREQ this head sent in the present tick (R54,R56; ps). -/
  dreqAt : Option Nat := none
  deriving DecidableEq, Repr

/-- What this head keeps of one station, beside the ST_ registers. -/
structure HeadSt where
  /-- The station address (R76; 1-255). -/
  addr : Nat := 0
  /-- A valid segment of the present tick has been written (R111; 1 bit). -/
  got : Bool := false
  /-- A segment of the present tick failed R110 (R110; 1 bit). -/
  bad : Bool := false
  /-- Valid feedback delivered since the head last configured the station (R631; 1 bit). -/
  everValid : Bool := false
  /-- The identity record as read by mailbox (R152,R190; up to 16 words). -/
  ident : List (Word) := []
  /-- The checks made before configuration passed (R190; 1 bit). -/
  identOk : Bool := false
  /-- The conformance check that failed last (R190; code 0-7). -/
  failCode : Nat := 0
  /-- Modes whose COMMIT_CFG returned 0 (R122,R190; list of modes). -/
  cfgDone : List Nat := []
  /-- Configuration words of the mode in work that the station has taken, or that were read back
  (R122,R154; 8 bits). -/
  cfgWord : Nat := 0
  /-- Step of the configuration of the mode in work (R122,R154; 0 write, 1 commit, 2 read back).
  -/
  cfgStep : Nat := 0
  /-- A re-integration order stands: the station has not shown integ = 1 since it was named
  (R127,R128; 1 bit). -/
  reint : Bool := false
  /-- The head has to configure the station by mailbox (R190; 1 bit). -/
  needCfg : Bool := true
  /-- Consecutive ticks with the sync error over the guard band (R127; count to 3). -/
  syncOver : Nat := 0
  /-- Good ticks since the last tick that named the station (R130; count to 64). -/
  winGood : Nat := 0
  /-- Alarms received: code, detail, detail2 (R102,R189; list). -/
  alarms : List (Nat × Nat × Nat) := []
  /-- The join has been recorded (R134,R135; 1 bit). -/
  joined : Bool := false
  /-- Last tick whose valid feedback showed cmd_miss = 1 (R84,R344; tick). -/
  missTick : Option Nat := none
  deriving DecidableEq, Repr

/-- One station in one line of a schedule mode (R136). -/
structure StLayout where
  /-- Station address (R136; 1-255). -/
  addr : Nat := 0
  /-- Station type of both segments (R76; 3 bits). -/
  ptype : Nat := 0
  /-- Payload words of the command segment (R136; 8 bits). -/
  cmdWords : Nat := 0
  /-- Payload words of the feedback segment (R136; 8 bits). -/
  fbWords : Nat := 0
  /-- Where the command payload stands in the Canvas (R110,R90; Canvas offset). -/
  cmdAddr : Nat := 0
  /-- The declared residence by which the guardian reckons (R79,R103; ns). -/
  rNs : Nat := 150
  /-- Where the feedback slot stands: its status word, then the payload (R110; Canvas offset). -/
  fbAddr : Nat := 0
  /-- Complete arrival of the command segment after T(k), the later of the two units' frames
  (R450; ns). -/
  cmdArr : Nat := 0
  deriving DecidableEq, Repr

/-- One line of a schedule mode (R136). -/
structure LineLayout where
  /-- The line (R136; 0-7). -/
  line : Nat := 0
  /-- Its stations in ascending position from unit A's end (R136,R75; list). -/
  stations : List StLayout := []
  /-- L of the CYC frame in bytes (R66,R75; 16 bits). -/
  len : Nat := 0
  /-- Beacon offset (R97; ns). -/
  bcnOfs : Nat := 0
  /-- Offset of alarm slot 0 (R97; ns). -/
  almOfs : Nat := 0
  /-- Alarm slots a tick (R97; 8 bits). -/
  perTick : Nat := 1
  /-- Alarm slot spacing (R97; ns). -/
  pitch : Nat := 0
  /-- Mailbox request offset (R97; ns). -/
  mbxReq : Nat := 0
  /-- Mailbox reply offset (R97; ns). -/
  mbxRsp : Nat := 0
  /-- Latest expected complete arrival of the last feedback segment, relay included (R215; ns). -/
  fbLast : Nat := 0
  /-- The largest residence and delay of the line (R101; ns). -/
  rdMax : Nat := 0
  /-- Latest command arrival of the line as Askino computes it (R20,R86; ns). -/
  latestCmd : Nat := 0
  /-- Askino's figure of the line keeps the gaps and windows of R101 (R101; 1 bit). -/
  gapsOk : Bool := true
  deriving DecidableEq, Repr

/-- One job of a job table (R197). -/
structure JobDef where
  /-- Job index (R197; 0-1023). -/
  idx : Nat := 0
  /-- Counter index (R197; 12 bits). -/
  cnt : Nat := 0
  /-- Priority, 0 highest (R197; 5 bits). -/
  prio : Nat := 0
  /-- Engines that may run it (R197; 4 bits). -/
  engMask : Nat := 0
  /-- Declared Brush cycles per run (R197; 14 bits). -/
  cycles : Nat := 1
  /-- Byte address of the entry point (R197; 18 bits). -/
  entry : Nat := 0
  /-- Address of the parameter block (R197; 32 bits). -/
  param : Word := 0
  /-- Due-tick phase (R197; 10 bits). -/
  phase : Nat := 0
  /-- N - 1 (R197; 10 bits). -/
  divM1 : Nat := 0
  /-- The library job at the entry point, or custom code (R22,R266,R321,R365; kind). -/
  lib : LibJob := .custom
  deriving DecidableEq, Repr

/-- The counters one source decrements (R192). -/
structure LinkList where
  /-- The source (R192; source number). -/
  src : Nat := 0
  /-- The counters (R193; up to 64 counters). -/
  cnts : List Nat := []
  deriving DecidableEq, Repr

/-- One schedule mode (R136). DESIGN CHOICE, log entry 12. -/
structure SchedMode where
  /-- Number of the mode (R136; 0-15). -/
  idx : Nat := 0
  /-- The lines of the mode (R136; list). -/
  lines : List LineLayout := []
  /-- The job table of the mode (R136,R193; list). -/
  jobs : List JobDef := []
  /-- The link lists of the mode (R192; list). -/
  lists : List LinkList := []
  /-- Modes to which a change from this one is permitted (R136; list). -/
  allowed : List Nat := []
  /-- Worst-tick sum of the declared cycles (R23,R215; cycles). -/
  cycles : Nat := 0
  /-- Where the feedback slot map stands (R224; window address). -/
  fbMap : Nat := 0
  /-- Where the command slot map stands (R224; window address). -/
  cmdMap : Nat := 0
  /-- The latest first-feedback arrival t1 of the mode (R23; ns). -/
  firstFb : Nat := 0
  deriving DecidableEq, Repr

/-- One station configuration for one schedule mode (R156). -/
structure StCfg where
  /-- Station address (R156; 1-255). -/
  addr : Nat := 0
  /-- Schedule mode (R156; 0-15). -/
  mode : Nat := 0
  /-- The configuration words in order (R156; list of words). -/
  words : List (Word) := []
  deriving DecidableEq, Repr

/-- The network of this head. -/
structure NetSt where
  /-- The line ports 0-7 (R65; 8, by line). -/
  lines : List (Nat × LineSt) := []
  /-- What this head keeps of each station (R149; 255, by address). -/
  heads : List (Nat × HeadSt) := []
  /-- The preloaded schedule modes (their Palette layout is Askino's) (R136; up to 16). -/
  modes : List SchedMode := []
  /-- The station configurations of the image, by address and mode (R156; list). -/
  stCfgs : List StCfg := []
  /-- State of the cold-start machine (ML_NET_STAT.hstate mirrors it) (R116; 3 bits). -/
  hstate : HState := .listen
  /-- Schedule mode in force (R136,R142; 4 bits). -/
  sched : Nat := 0
  /-- Device time of the entry into LISTEN (R116; ns). -/
  listenSince : Nat := 0
  /-- First tick of COLD_D (R116; tick). -/
  coldTick : Nat := 0
  /-- The decision on the pending change has been taken (R141; 1 bit). -/
  decided : Bool := false
  /-- The pending change commits (R141,R142; 1 bit). -/
  commit : Bool := false
  /-- Ticks in which cancel is still sent (R143; count to 3). -/
  cancelLeft : Nat := 0
  /-- Tick to which the pending request belongs (R139; tick). -/
  reqTick : Nat := 0
  /-- Target tick t of the pending change (R139; tick). -/
  target : Nat := 0
  /-- ML_SCHED_CTRL.abort was written for the pending change (R141; 1 bit). -/
  abortReq : Bool := false
  /-- Every station has delivered valid feedback in one tick of GATHER: the head is SYNCED at the
  next tick (R116; 1 bit). -/
  syncNext : Bool := false
  /-- COLD_C is aborted at the next tick; the leading head's tick and mode where the head then
  follows it (R116,R117; tick and mode). -/
  abortNext : Option (Option (Nat × Nat)) := none
  /-- Consecutive ticks without the leading domain (R118; count). -/
  leaderGone : Nat := 0
  deriving DecidableEq, Repr

/-- One timed-output entry held by a station (R166). -/
structure ToEntry where
  /-- Action ID (R166; 1-32767). -/
  id : Nat := 0
  /-- Timed-output point (R166; 8 bits). -/
  output : Nat := 0
  /-- 1 set low, 2 set high, 3 toggle (R166; 4 bits). -/
  act : Nat := 0
  /-- Fire time, extended to network time (R166,R45; ns). -/
  fire : Nat := 0
  deriving DecidableEq, Repr

/-- A candidate command segment (R84). -/
structure Cand where
  /-- Unit ID of the originating head (R72; 1 bit). -/
  origin : Nat := 0
  /-- Act of the frame (R72; 1 bit). -/
  act : Bool := false
  /-- Epoch of the frame (R72; 8 bits). -/
  epoch : Nat := 0
  /-- The payload (R76; payload words). -/
  words : List (Word) := []
  deriving DecidableEq, Repr

/-- One axis of a servo or stepper cell. -/
structure StAxis where
  /-- The bridge is switching (R162,R164; 1 bit). -/
  bridgeOn : Bool := false
  /-- The holding brake is released (R162; 1 bit). -/
  brake : Bool := false
  /-- Lag and lead of phases U, V, W as applied (R162,R174; six times of 16 bits). -/
  times : List Nat := [0,0,0,0,0,0]
  /-- A switching time was clamped in this tick (R174; 1 bit). -/
  clamp : Bool := false
  /-- Stepper point A as applied (R164,R179; 32 bits). -/
  pointA : Word := 0
  /-- Stepper point B as applied (R164,R179; 32 bits). -/
  pointB : Word := 0
  /-- Stepper chopper word as applied (R164,R178; 32 bits). -/
  chop : Word := 0
  /-- Quadrature count (R177; 32 bits). -/
  count : Word := 0
  /-- The pair at the last sample (R177; 2 bits). -/
  quad : Nat := 0
  /-- Illegal transitions modulo 256 (R177,R163; 8 bits). -/
  ill : Nat := 0
  /-- Illegal transition since the previous sample (R177; 1 bit). -/
  illegal : Bool := false
  /-- Latched oc, ov, ot, uv, enc faults and the watchdog trip (R171,R163; list). -/
  faults : List StFault := []
  /-- A trip bars the bridge until it is cleared by a command with pwm_en 0 and fault_clr 1 (R171;
  1 bit). -/
  hold : Bool := false
  /-- Fault causes present now (R171; list). -/
  cause : List StFault := []
  /-- Its feedback words as sampled at the last T(n) (R163,R165; 5 or 3 words). -/
  fb : List (Word) := []
  deriving DecidableEq, Repr

/-- One safety connection at a station (R443-R449). -/
structure StConn where
  /-- Connection index at the station (R443; 0-3). -/
  idx : Nat := 0
  /-- Ticks without a valid PDU (R172; count to 255). -/
  cnt : Nat := 0
  /-- Permissions now granted: safe outputs, or bit 0 for the torque of a cell (R446; 16 bits). -/
  permit : BitVec 16 := 0
  /-- Permissions that a valid PDU of this tick grants (R446; 16 bits). -/
  grant : BitVec 16 := 0
  /-- Permissions that a valid PDU of this tick withholds (R446; 16 bits). -/
  withhold : BitVec 16 := 0
  /-- Consecutive ticks with a valid PDU (R446; count to 8). -/
  okRun : Nat := 0
  /-- The safety watchdog switched the outputs off (R172,R449; 1 bit). -/
  tripped : Bool := false
  /-- A valid PDU arrived in this tick (R446; 1 bit). -/
  valid : Bool := false
  deriving DecidableEq, Repr

/-- One port of a station. -/
structure PortSt where
  /-- The receiver holds code-group synchronisation (R68; 1 bit). -/
  link : Bool := false
  /-- The neighbour on the port is judged live (R92; 1 bit). -/
  live : Bool := false
  /-- Consecutive ticks with link and a valid BCN while the neighbour is dead (R92; count to 8).
  -/
  good : Nat := 0
  /-- A valid BCN has arrived in the present tick (R92; 1 bit). -/
  bcnSeen : Bool := false
  /-- Egress time of the DREQ it sent in the present tick (R54; ps). -/
  dreqAt : Option Nat := none
  deriving DecidableEq, Repr

/-- One station of the backbone. -/
structure StationSt where
  /-- Its address (R76; 1-255). -/
  addr : Nat := 0
  /-- FORWARD, COARSE or INTEGRATED (R120; 3 values). -/
  state : StState := .forward
  /-- Its identity record (R152; 16 words). -/
  ident : List (Word) := []
  /-- Committed configurations (R158,R629; list). -/
  cfgs : List StCfg := []
  /-- Configuration words received and not committed (R154; list). -/
  stage : List StCfg := []
  /-- Local time minus network time of the domain followed: the station's theta (R120,R123; ns).
  -/
  localOfs : Int := 0
  /-- Its present tick number (R120,R169; tick). -/
  tick : Nat := 0
  /-- The tick period it adopted (R120; ns). -/
  tickNs : Nat := 31250
  /-- Domain it takes as its reference (R48,R49; 1 bit). -/
  domain : Nat := 0
  /-- Filtered offset of the other domain (R48; ns). -/
  otherOfs : Int := 0
  /-- A timestamp of the reference domain arrived in this tick (R49; 1 bit). -/
  domSeen : Bool := false
  /-- A timestamp of the other domain arrived in this tick (R49; 1 bit). -/
  otherSeen : Bool := false
  /-- Free-running in forerunner time mode (R51; 1 bit). -/
  freeRun : Bool := false
  /-- Ticks in which no frame of a domain it can follow arrived (R120; count to 32). -/
  silent : Nat := 0
  /-- Consecutive ticks with theta within 20 ns (R120,R128; count to 8). -/
  good : Nat := 0
  /-- Under a re-integration order (R128; 1 bit). -/
  reint : Bool := false
  /-- It follows unit A's CST frames (R121; 1 bit). -/
  coldA : Bool := false
  /-- Apply offset it holds; none: taken from no frame since FORWARD (R85; ns). -/
  applyOfs : Option Nat := none
  /-- Apply offset of this tick is taken (R85; 1 bit). -/
  applySet : Bool := false
  /-- Schedule mode it reads by (R142,R144; 4 bits). -/
  sched : Nat := 0
  /-- Announced target (R140; mode). -/
  annTgt : Option Nat := none
  /-- Candidates of the present tick (R84; list). -/
  cands : List Cand := []
  /-- The segment selected in the present tick (R87; candidate). -/
  applied : Option Cand := none
  /-- Unit whose segment it applied last (R89; 1 bit). -/
  src : Nat := 0
  /-- It had no candidate in the last tick (R89; 1 bit). -/
  cmdMiss : Bool := false
  /-- Discarded command copies modulo 4096 (R89; 12 bits). -/
  discards : Nat := 0
  /-- Ticks without a candidate (R170; count). -/
  wd : Nat := 0
  /-- The command watchdog has tripped (R170; 1 bit). -/
  wdTrip : Bool := false
  /-- Its axes (R162-R165; up to 4). -/
  axes : List StAxis := []
  /-- Digital outputs by point (R166; list of points). -/
  dos : List Bool := []
  /-- Analogue outputs by channel (R166; list of channels). -/
  aos : List (BitVec 16) := []
  /-- Counts carried into the next tick by each PR output (R187; list of counts). -/
  prCarry : List Int := []
  /-- Counts emitted in this tick by each PR output (R187; list of counts). -/
  prOut : List Int := []
  /-- Pr_ovf of STAT (R187; 1 bit). -/
  prOvf : Bool := false
  /-- Timed-output entries held (R180; up to to_cap). -/
  tos : List ToEntry := []
  /-- Blocked IDs with the tick of their last receipt (R183; list). -/
  blocked : List (Nat × Nat) := []
  /-- IDs that fired, with the tick in which they fired (R180,R184; list). -/
  fired : List (Nat × Nat) := []
  /-- IDs retracted in this tick's segments, with the fired flag (R184; list). -/
  retrNow : List (Nat × Bool) := []
  /-- IDs to list in the next RA block (R184; list). -/
  retrPrev : List (Nat × Bool) := []
  /-- To_late of STAT (R180; 1 bit). -/
  toLate : Bool := false
  /-- To_bad of STAT (R180; 1 bit). -/
  toBad : Bool := false
  /-- To_full of STAT (R180; 1 bit). -/
  toFull : Bool := false
  /-- Alarms to send: code, detail, detail2, oldest first (R189; list). -/
  alarms : List (Nat × Nat × Nat) := []
  /-- Locate indication (R160; 1 bit). -/
  locate : Bool := false
  /-- Safety connections it terminates (R172; up to 4). -/
  conns : List StConn := []
  /-- Residences of unit A's and unit B's frame of the tick before; 0 for none (R161; ns in
  UQ10.2). -/
  resid : List Nat := [0,0]
  /-- Residences of unit A's and unit B's frame of the present tick (R161; ns in UQ10.2). -/
  residNow : List Nat := [0,0]
  /-- DI words latched at the last T(n) (R167,R169; list of words). -/
  di : List (Word) := []
  /-- AI words latched at the last T(n) (R167,R169; list of words). -/
  ai : List (Word) := []
  /-- The SAFE block the station sends in this tick (R168; list of words). -/
  safe : List (Word) := []
  /-- Ai_flt of STAT (R167; 1 bit). -/
  aiFlt : Bool := false
  /-- Do_flt of STAT (R167; 1 bit). -/
  doFlt : Bool := false
  /-- Scan_us of STAT (R167; 16 bits). -/
  scanUs : Nat := 0
  /-- Tick of the command applied last (R189; tick). -/
  lastTick : Nat := 0
  /-- Frame time of those samples (R188; 32 bits). -/
  sampTs : Word := 0
  /-- It filled its placeholder in this tick (R83; 1 bit). -/
  fbSent : Bool := false
  /-- Its ports toward unit A and toward unit B (R65,R92; 2 entries). -/
  ports : List PortSt := [{}, {}]
  /-- What it has sent since the last tick instant (R169; list). -/
  out : List StOut := []
  /-- The model's own count of diagnostic words read: the argument of the free value (log entry)
  (R154; count). -/
  diag : Nat := 0
  deriving DecidableEq, Repr

/-- One ready entry (R202, R211). -/
structure ReadyEnt where
  /-- A job, else a thread (R191; 1 bit). -/
  job : Bool := true
  /-- Job or thread index (R191; index). -/
  idx : Nat := 0
  /-- Home engine of a thread; of a job, its list (0) (R205; 0-6). -/
  eng : Nat := 0
  /-- Priority (R202; 5 bits). -/
  prio : Nat := 0
  /-- The entry stands in the spill region (R211; 1 bit). -/
  spilled : Bool := false
  /-- Time at which it became ready (R213; ns). -/
  at_ : Nat := 0
  deriving DecidableEq, Repr

/-- One job in the local queue of a Brush engine (R203). -/
structure QueuedJob where
  /-- The job (R203; index). -/
  idx : Nat := 0
  /-- Its priority (R203; 5 bits). -/
  prio : Nat := 0
  /-- Its declared cycles (R202; cycles). -/
  cycles : Nat := 0
  /-- Time at which it became ready (R213; ns). -/
  at_ : Nat := 0
  deriving DecidableEq, Repr

/-- One window write of a host message waiting for the deadline (R626). -/
structure WindowWrite where
  /-- Byte address (R626; memory code address). -/
  addr : Nat := 0
  /-- The bytes (R626; up to 4 bytes). -/
  bytes : List (Byte) := []
  deriving DecidableEq, Repr

/-- The dispatcher, beside the EZ_ registers. -/
structure EaselSt where
  /-- Feedback sources that have signalled in the present tick (R194; list of source numbers). -/
  sources : List Nat := []
  /-- Jobs of the present tick that have not ended: their counters are active (R198; list of
  jobs). -/
  due : List Nat := []
  /-- Ready entries in the order in which they became ready (R202,R211; list). -/
  ready : List ReadyEnt := []
  /-- Local queues of BR0-BR3, without the running job (R203; 4 lists). -/
  queues : List (List QueuedJob) := [[],[],[],[]]
  /-- Running thread of AT0, AT1 and the supervisor (R207; 3 entries). -/
  threads : List (Option Nat) := [none,none,none]
  /-- Pre-empted threads, latest first (R209; list). -/
  preempted : List ReadyEnt := []
  /-- The deadline in force in the present tick (R200 (EZ_DEADLINE); 18 bits). -/
  deadlineNs : Nat := 22000
  /-- The release in force in the present tick (R195 (EZ_RELEASE); 18 bits). -/
  releaseNs : Nat := 12000
  /-- EZ_RELEASE of the present tick has passed (R195; 1 bit). -/
  released : Bool := false
  /-- EZ_DEADLINE of the present tick has passed (R200; 1 bit). -/
  closed : Bool := false
  /-- Jobs of the present tick completed (R200 (EZ_TICK_JOBS); count). -/
  doneCnt : Nat := 0
  /-- Jobs of the present tick ended with cause 2, 3 or 4 (R200 (EZ_TICK_JOBS); count). -/
  abortCnt : Nat := 0
  /-- Jobs of the present tick discarded (R200 (EZ_TICK_JOBS); count). -/
  skipCnt : Nat := 0
  /-- Sources signalled at EZ_RELEASE in the present tick (R195 (EZ_TICK_REL); count). -/
  relCnt : Nat := 0
  /-- Valid segments after EZ_RELEASE in the present tick (R195 (EZ_TICK_REL); count). -/
  lateRel : Nat := 0
  /-- End of the last job of the present tick on each Brush engine (R214 (EZ_ENG_FIN); 4 times in
  ns). -/
  fin : List Nat := [0,0,0,0]
  /-- Time each engine spent running in the present tick (R214; 7 ns counts). -/
  busyNow : List Nat := [0,0,0,0,0,0,0]
  /-- When the running thread of each thread engine started, in the present tick (R214; 3 ns
  offsets). -/
  thrAt : List Nat := [0,0,0]
  /-- Time each engine spent running in the last completed ticks, latest first (R214; 7 lists of
  up to 1024 ns counts). -/
  busy : List (List Nat) := [[],[],[],[],[],[],[]]
  /-- Host writes to the Canvas and Palette windows of the present tick (R626; list). -/
  canvasWrites : List WindowWrite := []
  /-- Schedule mode whose job table is in use (R201; mode). -/
  jobsFrom : Nat := 0
  /-- Register values that derive from the commits of the tick, shown at EZ_DEADLINE (R548; list
  of addresses and words). -/
  shown : List (Nat × Word) := []
  deriving DecidableEq, Repr

/-- One active block repeat (R243). -/
structure Rpt where
  /-- First word of the body (R243; 16 bits). -/
  start : Nat := 0
  /-- End address, inclusive (R243; 16 bits). -/
  last : Nat := 0
  deriving DecidableEq, Repr

/-- One outstanding XIN (R251). -/
structure XinCopy where
  /-- Source (R251; byte address). -/
  src : Nat := 0
  /-- Destination in local memory (R251; byte address). -/
  dst : Nat := 0
  /-- The bytes to write, as read from committed contents (R251; up to 1024 bytes). -/
  words : List (Byte) := []
  deriving DecidableEq, Repr

/-- One entry of the commit buffer (R226). -/
structure Posted where
  /-- Byte address (R226; Canvas window address). -/
  addr : Nat := 0
  /-- Bytes to write (R226; 2, 4 or 8 bytes). -/
  bytes : List (Byte) := []
  deriving DecidableEq, Repr

/-- The voltage a servo job commanded in one tick (R283, R285). -/
structure VCmd where
  /-- Alpha component (R272; V). -/
  alpha : Rat := 0
  /-- Beta component (R272; V). -/
  beta : Rat := 0
  /-- The command carried pwm_en = 1 (R285; 1 bit). -/
  pwm : Bool := false
  /-- Sign of the injection in this tick, 0 for none (R281; -1, 0, 1). -/
  inj : Int := 0
  deriving DecidableEq, Repr

/-- The state that an axis job commits: integrators, estimators and the command words (R266,
R321). DEDUCED, log entry 18. -/
structure AxCtl where
  /-- Integrator I_d (R267; 40 bits, Q9.30 quarter scale). -/
  accD : Int := 0
  /-- Integrator I_q (R267; 40 bits, Q9.30 quarter scale). -/
  accQ : Int := 0
  /-- Integrator I_omega (R274,R511; 40 bits, Q9.30 scaled by 2^-spd_sh). -/
  accW : Int := 0
  /-- Speed reference (R273; rpm). -/
  wr : Rat := 0
  /-- Voltages of the last ticks, latest first (R285; up to 4). -/
  volts : List VCmd := []
  /-- I_alpha of the last tick (R283; A). -/
  iaPrev : Rat := 0
  /-- I_beta of the last tick (R283; A). -/
  ibPrev : Rat := 0
  /-- Theta_m of the last tick (R285; 1/65536 turn). -/
  thPrev : Rat := 0
  /-- Electrical speed of the last tick (R285; rad/s). -/
  wePrev : Rat := 0
  /-- Angle of the fallback source in the last tick (R286; 1/65536 turn). -/
  thFb : Rat := 0
  /-- Electrical speed of the fallback source in the last tick (R286; rad/s). -/
  weFb : Rat := 0
  /-- Current error e_d (R267,R511; Q15). -/
  eD : Int := 0
  /-- Current error e_q (R267,R511; Q15). -/
  eQ : Int := 0
  /-- Speed error e_omega (R274,R511; 0.001 rpm). -/
  eW : Int := 0
  /-- Plausibility residual (R285,R511; Q15 of i_fs). -/
  resid : Int := 0
  /-- Back-EMF estimate, alpha (R283; V). -/
  eA : Rat := 0
  /-- Back-EMF estimate, beta (R283; V). -/
  eB : Rat := 0
  /-- Speed of the tracking loop (R283; 1/65536 turn per s). -/
  wHat : Rat := 0
  /-- Observer angle (R283; 1/65536 turn). -/
  thO : Rat := 0
  /-- Injection angle (R281,R284; 1/65536 turn). -/
  thH : Rat := 0
  /-- Tracking error of the last tick (R290; ratio). -/
  epsLast : Rat := 0
  /-- The axis command words last posted (R162,R164; up to 4 words). -/
  words : List (Word) := []
  /-- Coil current amplitude (R326; Q15). -/
  iCoil : Int := 0
  /-- Commanded position of a stepper axis (stored in Off) (R322,R329; pu). -/
  pc : Rat := 0
  /-- Commanded speed of a stepper axis (R322; pu/s). -/
  vc : Rat := 0
  /-- Point B last posted (R331; 32 bits). -/
  pointB : Word := 0
  /-- Ticks for which the commanded speed has been 0 (R325; ticks). -/
  spdZero : Nat := 0
  /-- The base current is i_hold (R325; 1 bit). -/
  holdI : Bool := false
  /-- Encoder offset of a stepper axis (R327; pu). -/
  encOfs : Int := 0
  deriving DecidableEq, Repr

/-- One process loop beside its PL_ registers. -/
structure LoopSt where
  /-- Integral term (R365,R366; 40 bits, Q9.30 scaled by 2^-g_sh). -/
  accI : Int := 0
  /-- Derivative term (R365,R366; 40 bits, Q9.30 scaled by 2^-g_sh). -/
  accD : Int := 0
  /-- Measurement of the last run (R365; Q15). -/
  pvPrev : Int := 0
  /-- Output sent after the last run (R365; Q15). -/
  uPrev : Int := 0
  /-- Unlimited output of the last run (R365,R366; Q15). -/
  vPrev : Int := 0
  /-- Error of the last run in Auto (R365,R511; Q15). -/
  eLast : Int := 0
  /-- Proportional term (R365,R366,R511; 40 bits, Q9.30 scaled by 2^-g_sh). -/
  accP : Int := 0
  /-- Limited output of the last run (R365; Q15). -/
  wLast : Int := 0
  /-- Controls waiting for the next run, in order (R372; list). -/
  ctrl : List LoopCtl := []
  /-- The loop enters Hold at its next run (R378; 1 bit). -/
  holdNext : Bool := false
  /-- The model has been anchored (R379; 1 bit). -/
  anchored : Bool := false
  /-- Model output (R379; Q15). -/
  yHat : Rat := 0
  /-- Model offset (R379; Q15). -/
  y0 : Rat := 0
  /-- Outputs sent, latest first (R379; up to 256). -/
  hist : List Int := []
  /-- Runs beyond the residual window (R380; count). -/
  mdlRun : Nat := 0
  deriving DecidableEq, Repr

/-- One override group beside its PL_GRP_ registers. -/
structure GrpSt where
  /-- Member selected last; none: not selected yet (R370; loop). -/
  sel : Option Nat := none
  /-- Group output last sent (R368; Q15). -/
  ug : Int := 0
  deriving DecidableEq, Repr

/-- What a run of a loop's job decides about the loop, shown at its commit (R365, R372). -/
structure LoopTurn where
  /-- The loop (R365; 0-383). -/
  idx : Nat := 0
  /-- Its state after the run (R371; 3 bits). -/
  st : Nat := 0
  /-- Cause of the transition (R376; code). -/
  cause : Nat := 0
  /-- Waiting controls that the run has judged (R372; count). -/
  used : Nat := 0
  /-- Of these, rejected ones (R372,R374; count). -/
  rej : Nat := 0
  /-- PL_MAN.man as the transition sets it (R372; Q15). -/
  man : Option Int := none
  /-- The model count reached n in this run (R380; 1 bit). -/
  trip : Bool := false
  /-- The model count stands at n (R380 (PL_STATE); 1 bit). -/
  mdl : Bool := false
  /-- Aged input (R377 (PL_STATE); 1 bit). -/
  aged : Bool := false
  /-- The sample's own age passed ts_lim_ms (R377 (PL_STATE); 1 bit). -/
  tsStale : Bool := false
  /-- Slot age of in_stn (R377 (PL_STATE); 8 bits). -/
  age : Nat := 0
  /-- Model residual, where the run forms one (R380 (PL_STATE); Q15). -/
  resid : Option Int := none
  deriving DecidableEq, Repr

/-- What a library job has computed and commits at its end (R227, R239). -/
structure LibCommit where
  /-- State of an axis job (R266,R321; axis and record). -/
  axis : Option (Nat × AxCtl) := none
  /-- State of the axis for which the job computed (R292; 4 bits). -/
  axSt : Nat := 0
  /-- An accumulator of the job overflowed (R234,R237; 1 bit). -/
  aov : Bool := false
  /-- States of the members of a loop job (R365; list). -/
  loops : List (Nat × LoopSt) := []
  /-- State of an override group (R367; group and record). -/
  grp : Option (Nat × GrpSt) := none
  /-- What the run decides about its members (R365,R372; list). -/
  turns : List LoopTurn := []
  /-- Words for the Canvas (R226; list). -/
  posts : List Posted := []
  /-- Registers that show the results (R548; list). -/
  regs : List (Nat × Word) := []
  deriving DecidableEq, Repr

/-- One Brush engine (R218). -/
structure BrEng where
  /-- A job is running or committing (R204; 1 bit). -/
  busy : Bool := false
  /-- END has executed and the commit is in progress (R227; 1 bit). -/
  committing : Bool := false
  /-- Cause with which the commit ends (R257; 0-5). -/
  cause : Nat := 0
  /-- Index of the running job (R218; 10 bits). -/
  job : Nat := 0
  /-- The tick the running job belongs to (R253; tick). -/
  jobTick : Nat := 0
  /-- Results of a library job waiting for its commit (R227; record). -/
  lib : Option LibCommit := none
  /-- D0-D7 (R218; 8 x 64 bits). -/
  d : Vector (BitVec 64) 8 := Vector.replicate 8 0
  /-- ACC0-ACC3 (R218; 4 x 40 bits). -/
  acc : Vector (BitVec 40) 4 := Vector.replicate 4 0
  /-- G0-G7 (R218; 8 x 32 bits). -/
  g : Vector (Word) 8 := Vector.replicate 8 0
  /-- PT0-PT7 (R218; 8 x 32 bits). -/
  pt : Vector (Word) 8 := Vector.replicate 8 0
  /-- ST0-ST7 (R218; 8 x 32 bits). -/
  st : Vector (Word) 8 := Vector.replicate 8 0
  /-- BS0-BS7 (R218; 8 x 32 bits). -/
  bs : Vector (Word) 8 := Vector.replicate 8 0
  /-- CL0-CL7 (R218; 8 x 32 bits). -/
  cl : Vector (Word) 8 := Vector.replicate 8 0
  /-- LC0-LC2 (R218; 3 x 16 bits). -/
  lc : Vector (BitVec 16) 3 := Vector.replicate 3 0
  /-- SR (R219; 32 bits). -/
  sr : Word := 0
  /-- JOB (R218; 32 bits). -/
  jobWord : Word := 0
  /-- PC (R218; 16 bits). -/
  pc : BitVec 16 := 0
  /-- Active block repeats, innermost first (R243; up to 3). -/
  rpts : List Rpt := []
  /-- For each held accumulator, serial of the outermost block active at its overflow; 0 for none
  (R236; 4 serials). -/
  holdAt : Vector Nat 4 := Vector.replicate 4 0
  /-- Serial of the outermost block opened last (R236; count). -/
  serial : Nat := 0
  /-- Commit buffer in posting order (R226; up to 256). -/
  commit : List Posted := []
  /-- Outstanding XIN copies, oldest first (R251; up to 4). -/
  xins : List XinCopy := []
  /-- A WAITX or a fifth XIN is stalled (R248; 1 bit). -/
  waiting : Bool := false
  /-- Start of the running job after T(n) (R214; ns). -/
  startAt : Nat := 0
  /-- Cycles of the running job so far (R258; cycles). -/
  cycles : Nat := 0
  deriving DecidableEq, Repr

/-- One axis beside its AX_ registers and AxCtl. -/
structure AxSt where
  /-- The committed state of its job (R266; record). -/
  ctl : AxCtl := {}
  /-- Plausibility count (R285; count to 255). -/
  plaus : Nat := 0
  /-- Brake_rel as commanded (R292,R287; 1 bit). -/
  brakeRel : Bool := false
  /-- The next command with pwm_en 1 carries fault_clr (R293; 1 bit). -/
  fltClr : Bool := false
  /-- Tick in which the present state was entered (R290,R293,R329; tick). -/
  stateTick : Nat := 0
  /-- Catching was entered from Coasting (R288,R293; 1 bit). -/
  fromCoast : Bool := false
  /-- Stopping follows when the catch has ended (R293; 1 bit). -/
  disPend : Bool := false
  /-- A group STOP reaction is what takes the axis through Stopping (R264; 1 bit). -/
  disReact : Bool := false
  /-- Consecutive ticks with the tracking error within 0.05 (R290; count to 32). -/
  epsGood : Nat := 0
  /-- The sensorless catch has changed to injection (R290; 1 bit). -/
  catchInj : Bool := false
  /-- Hall edges since the catch began (R290; count to 2). -/
  hallEdges : Nat := 0
  /-- Ticks of the polarity test gone by; 0: not running (R282; count to 17). -/
  polTick : Nat := 0
  /-- I_d at the start of the present half of the test (R282; A). -/
  polStart : Rat := 0
  /-- Rise measured in the first half (R282; A). -/
  polRise : Rat := 0
  /-- Consecutive ticks at standstill while Stopping (R293; count). -/
  zeroTicks : Nat := 0
  /-- Tick in which the brake was applied at standstill (R293; tick). -/
  engTick : Option Nat := none
  /-- Ticks in Enabled without ROTOR_LOST (R287; count to 1024). -/
  goodTicks : Nat := 0
  /-- Tick s of an SS1 demand or request whose Stopping the axis has not entered yet (R431,R432;
  tick). -/
  ss1 : Option Nat := none
  /-- STO is commanded for the axis (R288,R431; 1 bit). -/
  stoCmd : Bool := false
  /-- The cell's sto bit at the last fresh sample (R294; 1 bit). -/
  cellSto : Bool := false
  /-- Faults of the last fresh report (R295,R299; list). -/
  cell : List StFault := []
  /-- Consecutive missing profile steps (R319; count to 15). -/
  lostRun : Nat := 0
  /-- Ticks beyond the deviation window (R328; count). -/
  stallRun : Nat := 0
  /-- The first profile step after entry into Enabled has been made (R318; 1 bit). -/
  prfSeen : Bool := false
  /-- Position p at the present tick (R334,R335; pu). -/
  hyPos : Rat := 0
  deriving DecidableEq, Repr

/-- The decoder of one axis (R333-R341). -/
structure DecSt where
  /-- Last tick with age 0 (R333; tick). -/
  fresh : Option Nat := none
  /-- Pos of that tick (R333; 32 bits). -/
  pos : Word := 0
  /-- Extended count c (R333; 64 bits). -/
  cnt : Int := 0
  /-- Raw speed (R335; counts/s). -/
  vraw : Rat := 0
  /-- Filtered speed (R335; counts/s). -/
  vf : Rat := 0
  /-- Ill_cnt of that tick (R336; 8 bits). -/
  ill : Nat := 0
  /-- Sector of the last valid Hall code (R337; 0-5). -/
  sector : Option Nat := none
  /-- Hall count (R338; count). -/
  hcnt : Int := 0
  /-- Consecutive fresh invalid codes (R339; count to 8). -/
  invRun : Nat := 0
  /-- Time of the last counted edge (R340; ns). -/
  edgeAt : Option Rat := none
  /-- Interval between the last two edges in one direction (R340; ns). -/
  edgeIv : Option Rat := none
  /-- Direction of the last counted edge (R340; -1, 0, 1). -/
  edgeDir : Int := 0
  /-- Tick of the last counted edge (R340; tick). -/
  edgeTick : Nat := 0
  /-- Hall speed estimate (R340; 1/65536 turn per s). -/
  wh : Rat := 0
  /-- E(n-1); none: it is set to E(n) in the present tick (R342,R345; count). -/
  emuE : Option Int := none
  /-- Counts to send later (R343; count). -/
  emuCarry : Int := 0
  /-- Counts sent in the command of the last tick (R344; count). -/
  emuSent : Int := 0
  /-- Counts sent in the command of the tick before (R344; count). -/
  emuPrev : Int := 0
  deriving DecidableEq, Repr

/-- One queued move (R306, R308). -/
structure PrfMove where
  /-- Fixed target; none while it depends on a stop's rest point (R306; pu). -/
  target : Option Int := none
  /-- Distance from the rest point, while the target is not fixed (R306; pu). -/
  dist : Int := 0
  deriving DecidableEq, Repr

/-- A stretch of constant acceleration of a profile's plan (R303). -/
structure PSeg where
  /-- Duration; none: without end (R303; s). -/
  dur : Option Rat := none
  /-- Acceleration along the direction of motion (R303; rev/s^2). -/
  acc : Rat := 0
  /-- Phase code (R303 (AX_PRF_STAT); 3 bits). -/
  phase : Nat := 0
  deriving DecidableEq, Repr

/-- One posted profile step (R302). -/
structure PrfStep where
  /-- Tick of the step (R302; tick). -/
  tick : Nat := 0
  /-- P_ref (R303; pu). -/
  pref : Int := 0
  /-- V_ref (R302; 2^-32 rev/s). -/
  vref : Int := 0
  /-- A_ref (R302; 2^-32 rev/s^2). -/
  aref : Int := 0
  /-- Phase (R302; 3 bits). -/
  phase : Nat := 0
  deriving DecidableEq, Repr

/-- The profile generator of one axis. -/
structure PrfSt where
  /-- Position of the trajectory at the present step (R303; 2^-32 rev). -/
  p : Int := 0
  /-- Speed of the trajectory (R303; 2^-32 rev/s). -/
  v : Int := 0
  /-- Start position of the running move (R303; pu). -/
  start : Int := 0
  /-- Target of the running move (R303; pu). -/
  target : Int := 0
  /-- A move, stop or return motion runs (R305; 1 bit). -/
  moving : Bool := false
  /-- A stop runs (R315; 1 bit). -/
  stopping : Bool := false
  /-- A return motion runs (R314; 1 bit). -/
  returning : Bool := false
  /-- The running move has reached DECEL (R312; 1 bit). -/
  decel : Bool := false
  /-- The profile decelerates past its target (R314; 1 bit). -/
  passing : Bool := false
  /-- The plan in force (R303,R304,R311; list). -/
  segs : List PSeg := []
  /-- Position at which the plan began (R304; 2^-32 rev). -/
  p0 : Int := 0
  /-- Speed at which the plan began (R304; 2^-32 rev/s). -/
  v0 : Int := 0
  /-- Ticks for which the plan has run (R304; ticks). -/
  ticks : Nat := 0
  /-- Effective speed limit of the plan in force (R304,R309; 0.001 rpm). -/
  vEff : Rat := 0
  /-- Effective acceleration of the plan in force (R304,R309; 10 rpm/s). -/
  aEff : Nat := 0
  /-- Effective deceleration of the plan in force (R304,R309,R630; 10 rpm/s). -/
  dEff : Nat := 0
  /-- Deceleration limit of the plan in force (R304,R314,R630; 10 rpm/s). -/
  lEff : Nat := 0
  /-- Last non-zero effective deceleration (R630; 10 rpm/s). -/
  decUsed : Nat := 0
  /-- Lowest deceleration of the running stop after a later STOP (R315; 10 rpm/s). -/
  stopDec : Nat := 0
  /-- Queued moves (R308; up to 8). -/
  queue : List PrfMove := []
  /-- Commands that the next step reads, in order of arrival (R307,R310; list). -/
  cmds : List PrfCmd := []
  /-- Last step present (R319; step). -/
  last : Option PrfStep := none
  /-- The step posted for the next tick (R302; step). -/
  step : Option PrfStep := none
  /-- The step of the present tick (R302; step). -/
  cur : Option PrfStep := none
  deriving DecidableEq, Repr

/-- One staged compare entry (R351). -/
structure CmpEntry where
  /-- Index within the list (R350; entry index). -/
  idx : Nat := 0
  /-- Tag (R348; 16 bits). -/
  tag : Nat := 0
  /-- Action ID (R351; 15 bits). -/
  id : Nat := 0
  /-- Action (R348; 2 bits). -/
  act : Nat := 0
  /-- Fire time (R351; ns). -/
  fire : Nat := 0
  /-- Tick in which it was staged (R351,R357; tick). -/
  at_ : Nat := 0
  /-- Retraction being sent (R356; 1 bit). -/
  retr : Bool := false
  /-- The entry is re-armed when acknowledged unfired (R357; 1 bit). -/
  rearm : Bool := false
  /-- Acknowledgement seen: the fired flag (R356; RA flag). -/
  ack : Option Bool := none
  deriving DecidableEq, Repr

/-- One compare list beside its AX_CMP_ registers. -/
structure CmpSt where
  /-- Entries staged since it was armed (R351; count). -/
  seq : Nat := 0
  /-- Staged entries (R351; list). -/
  staged : List CmpEntry := []
  /-- The list has reached its end (R350; 1 bit). -/
  done : Bool := false
  /-- Tick of the last evaluation (R353; tick). -/
  evalTick : Option Nat := none
  /-- Instant from which evaluation continues (R350; ns). -/
  from_ : Option Rat := none
  deriving DecidableEq, Repr

/-- A step with a known start tick (R392). -/
structure Planned where
  /-- Step index (R392; 12 bits). -/
  step : Nat := 0
  /-- Start tick b (R392; tick). -/
  start : Nat := 0
  /-- Resolved duration, or timeout (0 for none) (R386; ticks). -/
  dur : Nat := 0
  /-- Its guard has been decided (R393; 1 bit). -/
  decided : Bool := false
  /-- Tick in which b became known (R393; tick). -/
  known : Nat := 0
  /-- Its non-timed actions have been run (R395; 1 bit). -/
  acted : Bool := false
  /-- It has started (R392; 1 bit). -/
  on : Bool := false
  /-- Its timed-output actions that have been staged (R398; list of action numbers). -/
  done : List Nat := []
  deriving DecidableEq, Repr

/-- One timed-output action of a recipe, staged or retracted (R398-R403). -/
structure StagedTo where
  /-- Action ID (R400; 15 bits). -/
  id : Nat := 0
  /-- Step of the action (R405; 12 bits). -/
  step : Nat := 0
  /-- Action record (R387; record index). -/
  act : Nat := 0
  /-- Station (R387; address). -/
  stn : Nat := 0
  /-- Timed-output point (R387; 8 bits). -/
  output : Nat := 0
  /-- 1 set low, 2 set high, 3 toggle (R387; 2 bits). -/
  kind : Nat := 0
  /-- Fire time (R398; ns). -/
  fire : Nat := 0
  /-- Ofs_ns of the action (R387; ns). -/
  ofs : Nat := 0
  /-- It is being retracted (R402; 1 bit). -/
  retr : Bool := false
  /-- Acknowledgement seen: the fired flag (R403; RA flag). -/
  ack : Option Bool := none
  /-- Its step was cancelled, so compensation may run (R404; 1 bit). -/
  comp : Bool := false
  deriving DecidableEq, Repr

/-- One running setpoint ramp (R396). -/
structure Ramp where
  /-- Loop (R396; 0-383). -/
  loop : Nat := 0
  /-- PL_SP at the start (R396; Q15). -/
  sp0 : Int := 0
  /-- Target (R396; Q15). -/
  target : Int := 0
  /-- Ticks written (R396; ticks). -/
  m : Nat := 0
  /-- R (R396; ticks). -/
  total : Nat := 1
  deriving DecidableEq, Repr

/-- One recipe beside its AT_RCP_ registers. -/
structure RcpSt where
  /-- Flags (R387; 32 bits). -/
  flags : Word := 0
  /-- Counters (R387; 4 x 32 bits, signed). -/
  cnts : List Int := [0,0,0,0]
  /-- The running step (first) and the steps planned after it (R392; list). -/
  plan : List Planned := []
  /-- Step whose guard the recipe waits for (R394; step). -/
  waitFor : Option Nat := none
  /-- Staged and retracted actions, not yet judged or fired (R398,R402; list). -/
  staged : List StagedTo := []
  /-- Running setpoint ramps (R396; list). -/
  ramps : List Ramp := []
  /-- Actions judged Prevented at the hold (R408; list of records). -/
  prevented : List Nat := []
  /-- Cancelled steps whose compensation block has run (R404; list of steps). -/
  comps : List Nat := []
  deriving DecidableEq, Repr

/-- One journal entry (R418). -/
structure JnlEntry where
  /-- The entry (R418; 32 words). -/
  words : List (Word) := []
  deriving DecidableEq, Repr

/-- One edge unit (R416). -/
structure EdgeSt where
  /-- Value last evaluated (R416; 1 bit). -/
  last : Option Bool := none
  /-- TS last evaluated (R416; 32 bits). -/
  lastTs : Option (Word) := none
  deriving DecidableEq, Repr

/-- The recipes and tasks. -/
structure RecSt where
  /-- Recipes 0-63 (R383; 64, by index). -/
  rcps : List (Nat × RcpSt) := []
  /-- Next action ID of the allocator (R400; 15 bits). -/
  nextId : Nat := 1
  /-- IDs used, with the tick of their last use (R400; list). -/
  usedIds : List (Nat × Nat) := []
  /-- Journal entries waiting for MRAM (R419; up to 64). -/
  queue : List JnlEntry := []
  /-- Event-task triggers of the present tick: kind and index (R413; list). -/
  triggers : List (Nat × Nat) := []
  /-- Edge units (R416; 256, by index). -/
  edges : List (Nat × EdgeSt) := []
  /-- Thread and task time in ns of the run released last (R414; list). -/
  taskTime : List (Nat × Nat) := []
  deriving DecidableEq, Repr

/-- One local safe input ball (R437). -/
structure SafIn where
  /-- Sampled level (R437; 1 bit). -/
  level : Bool := false
  /-- Filtered state (R437; 1 bit). -/
  filt : Bool := false
  deriving DecidableEq, Repr

/-- One SS1 monitoring of one axis (R434). -/
structure Mon where
  /-- The axis (R434; 0-127). -/
  axis : Nat := 0
  /-- The zone whose SS1 runs; none for a request under R432 (R432,R434; 0-15). -/
  zone : Option Nat := none
  /-- Tick of the demand (R431; tick). -/
  s : Nat := 0
  /-- Speed at the demand, once it has been evaluated (R434; rpm). -/
  v0 : Option Rat := none
  /-- Last speed (R435; rpm). -/
  last : Rat := 0
  /-- Consecutive ticks below v_zero (R434; count). -/
  zeroRun : Nat := 0
  /-- The axis has reached standstill (R434; 1 bit). -/
  still : Bool := false
  deriving DecidableEq, Repr

/-- One zone beside its SF_ZONE_ registers. -/
structure ZoneSt where
  /-- Latched host STO demand (R428; 1 bit). -/
  hostSto : Bool := false
  /-- Latched host SS1 demand (R428; 1 bit). -/
  hostSs1 : Bool := false
  /-- Tick of the SS1 demand (R431; tick). -/
  s : Nat := 0
  /-- In STO since Self-test, with no reset since power-up (R448; 1 bit). -/
  fresh : Bool := true
  /-- Consecutive ticks in which the joining conditions held (R448; count to 1024). -/
  join : Nat := 0
  /-- The zone has granted permission: its connections send PDUs (R444; 1 bit). -/
  sent : Bool := false
  deriving DecidableEq, Repr

/-- One safety connection beside its SF_CONN_ registers. -/
structure ConnSt where
  /-- A valid PDU arrived in the present tick (R447; 1 bit). -/
  seen : Bool := false
  /-- In_flt of the last valid PDU (R447; 16 bits). -/
  inFlt : BitVec 16 := 0
  /-- Safe position of the last valid PDU (R442; 32 bits). -/
  pos : Word := 0
  /-- Aux of the last valid PDU of a drive connection (R442; 1 bit). -/
  sto : Bool := false
  /-- Data of the partner's PDU of this tick, when it is valid (R448; 32 bits). -/
  grant : Option (Word) := none
  deriving DecidableEq, Repr

/-- The safety functions. -/
structure SafSt where
  /-- SFI_A (R437; record). -/
  ina : SafIn := {}
  /-- SFI_B (R437; record). -/
  inb : SafIn := {}
  /-- The zones (R428; 16, by index). -/
  zones : List (Nat × ZoneSt) := []
  /-- The connections (R442; 64, by index). -/
  conns : List (Nat × ConnSt) := []
  /-- Running SS1 monitorings (R434,R436; list). -/
  mons : List Mon := []
  /-- Fresh position samples: axis, tick, count (R433; list). -/
  hist : List (Nat × Nat × Word) := []
  /-- The retest after a device reset runs (R453; 1 bit). -/
  retest : Bool := false
  /-- Length of the reset pulse that started the retest (R453; ms). -/
  retestMs : Nat := 0
  /-- The retest has passed and the first comparison is awaited (R453; 1 bit). -/
  retested : Bool := false
  /-- SFO_HS has been pulsed and SFO_LS follows (R441; 1 bit). -/
  lsDue : Bool := false
  /-- The outgoing PDUs that the channels formed and compared in the present tick, by connection
  (R425,R444; list). -/
  pdus : List (Nat × List (Word)) := []
  /-- The tick of those PDUs (R425,R444; tick). -/
  pdusTick : Option Nat := none
  deriving DecidableEq, Repr

/-- The state a state copy carries (R475). DEDUCED, log entry 45. -/
structure CopyImage where
  /-- The tick of the copy (R475; tick). -/
  tick : Nat := 0
  /-- The active unit's operating mode (R475; 4 bits). -/
  mode : Nat := 5
  /-- The active unit's epoch (R475; 8 bits). -/
  epoch : Nat := 0
  /-- RW and RWS registers written in the tick, and the read-only registers of the copied objects
  (R475; list). -/
  regs : List (Nat × Word) := []
  /-- Canvas bytes of the copy map (R475; list). -/
  canvas : List (Nat × Byte) := []
  /-- Axis states (R475; 128). -/
  axes : List (Nat × AxSt) := []
  /-- Decoder states (R475; 128). -/
  decs : List (Nat × DecSt) := []
  /-- Profile states (R475; 128). -/
  prfs : List (Nat × PrfSt) := []
  /-- Compare lists (R475; 16). -/
  cmps : List (Nat × CmpSt) := []
  /-- Loop states (R475; 384). -/
  loops : List (Nat × LoopSt) := []
  /-- Override groups (R475; 96). -/
  grps : List (Nat × GrpSt) := []
  /-- Recipes (R475; 64). -/
  rcps : List (Nat × RcpSt) := []
  /-- The action-ID allocator (R400,R475; 15 bits). -/
  nextId : Nat := 1
  /-- IDs used, with the tick of their last use (R400,R475; list). -/
  usedIds : List (Nat × Nat) := []
  /-- Edge units (R475; 256). -/
  edges : List (Nat × EdgeSt) := []
  /-- Schedule mode in force (R475; 4 bits). -/
  sched : Nat := 0
  /-- A schedule change is pending (R141,R475; 1 bit). -/
  pend : Bool := false
  /-- Its target tick (R139,R475; tick). -/
  target : Nat := 0
  /-- The tick of its request (R139,R475; tick). -/
  reqTick : Nat := 0
  /-- The decision on the pending change has been taken (R141,R475; 1 bit). -/
  decided : Bool := false
  /-- The pending change commits (R141,R475; 1 bit). -/
  commit : Bool := false
  /-- Its abort was written (R141,R475; 1 bit). -/
  abortReq : Bool := false
  /-- Ticks in which cancel is still sent (R143,R475; count to 3). -/
  cancelLeft : Nat := 0
  deriving DecidableEq, Repr

/-- The twin link and the roles, beside the TW_ registers. -/
structure TwinSt where
  /-- A change of the role, the tick whose frame first carries it in act, and the epoch adopted
  with it (R489,R490; tick, bit and epoch). -/
  roleAt : Option (Nat × Bool × Option Nat) := none
  /-- The partner's heartbeat of the present tick has arrived (R469; 1 bit). -/
  hbNow : Bool := false
  /-- A partner CYC frame has been accepted in the present tick (R483; 1 bit). -/
  cycNow : Bool := false
  /-- A partner frame or heartbeat with act = 1 accepted since leaving Reset (R462; 1 bit). -/
  pAct : Bool := false
  /-- Epoch last seen from the partner (R489; 8 bits). -/
  pEpoch : Nat := 0
  /-- Own fitness in the last tick in which the partner's heartbeat arrived (R479; 1 bit). -/
  fitAtHb : Bool := false
  /-- No partner is present: none has been seen, or its loss has been detected (R483; 1 bit). -/
  lost : Bool := true
  /-- The role has been decided (R462; 1 bit). -/
  roleKnown : Bool := false
  /-- Unit B is SYNCED and waits for a heartbeat with act = 1 (R462; 1 bit). -/
  roleWait : Bool := false
  /-- The standby's command segments are selectable (R464; 1 bit). -/
  sel : Bool := false
  /-- The partner's IDENT has been received (R471; 1 bit). -/
  identRx : Bool := false
  /-- Offset expected next (R476; bytes). -/
  copyNext : Nat := 0
  /-- Bytes of the copy received so far (R476; bytes). -/
  copyBytes : List (Byte) := []
  /-- A frame was out of order or failed (R476; 1 bit). -/
  copyBad : Bool := false
  /-- A complete and valid copy waits for T(n+1) (R476; 1 bit). -/
  copyDone : Bool := false
  /-- The state that the frames of that copy carry (R475; record). -/
  copyImg : Option CopyImage := none
  /-- Per-tick copies run (R472; 1 bit). -/
  copyOn : Bool := false
  /-- Ticks of discarded copies within the last 1024 (R479; list of ticks). -/
  misses : List Nat := []
  /-- A handover in progress: its target tick (R490; tick). -/
  handover : Option Nat := none
  /-- Tick in which PRESENT_N deasserted (R494; tick). -/
  present : Option Nat := none
  /-- Leaving of the heartbeats sent (R469,R493; 1 bit). -/
  leaving : Bool := false
  /-- Ticks since the partner's last HEALTH frame (R482; ticks). -/
  healthMiss : Nat := 0
  /-- Ticks without a valid twin-link frame (R486; ticks). -/
  silent : Nat := 0
  /-- Ticks in which every enabled line was dead (R487; ticks). -/
  deadTicks : Nat := 0
  /-- A valid twin-link frame arrived in the present tick (R486; 1 bit). -/
  frameNow : Bool := false
  /-- Stations whose payloads differed in the last tick (R478; list). -/
  diffStns : List Nat := []
  /-- Stations whose payloads differ in the present tick (R478; list). -/
  diffNow : List Nat := []
  /-- Slow-state pages still to send (R472; list of pages). -/
  dirty : List Nat := []
  /-- The Canvas pages of the slow-state image, as the image gives them (R472; list of pages). -/
  slow : List Nat := []
  /-- RW and RWS registers written in the present tick outside Load and Service (R475; list of
  addresses). -/
  wrote : List Nat := []
  /-- Host window writes of the present tick, as its deadline wrote them (R26,R475; list). -/
  wroteWin : List WindowWrite := []
  /-- Tick and egress time of this unit's last TIME frame (R470; tick and ps). -/
  timeOut : Option (Nat × Nat) := none
  /-- Egress time of the TIME frame before (R470; ps). -/
  timePrev : Option Nat := none
  /-- Ingress time of the partner's last TIME frame (R470; ps). -/
  timeIn : Option Nat := none
  /-- Bits 15:11 collected in the present health period (R481; 5 bits). -/
  healthBits : Nat := 0
  /-- Lines with link in every tick of the period (R481; 8 bits). -/
  lineLink : Nat := 255
  /-- A resync runs (R472,R478; 1 bit). -/
  resyncRun : Bool := false
  deriving DecidableEq, Repr

/-- The record stream, beside the VN_ registers. -/
structure VnSt where
  /-- Bytes appended since the device left Reset (R504; 64 bits). -/
  ofs : Nat := 0
  /-- Acknowledged offset (R505; 64 bits). -/
  ack : Nat := 0
  /-- Offset of the next byte to send (R505; 64 bits). -/
  next : Nat := 0
  /-- Highest offset sent so far (R505; 64 bits). -/
  sent : Nat := 0
  /-- Offset appended before the present tick: bytes below it have waited 1 tick (R505; 64 bits).
  -/
  mark : Nat := 0
  /-- F at the evaluations of the last ticks, latest first (R506; up to step_ticks counts of
  bytes). -/
  fills : List Nat := []
  /-- Tick of the last decimation step (R506; tick). -/
  lastStep : Option Nat := none
  /-- First tick of the open gap (R508; tick). -/
  gapFirst : Nat := 0
  /-- Last tick of the open gap (R508; tick). -/
  gapLast : Nat := 0
  /-- Class-0 records lost in the open gap (R508; count). -/
  gapRecs : Nat := 0
  /-- Events lost in the open gap (R508; count). -/
  gapEvts : Nat := 0
  /-- Offsets of the record headers that are not yet acknowledged (R504; list of offsets). -/
  heads : List Nat := []
  /-- Upper word latched by a read of VN_OFS_LO (R628; 32 bits per bus master). -/
  ofsHi : List (Master × Word) := []
  /-- Upper word latched by a read of VN_ACK_LO (R628; 32 bits per bus master). -/
  ackHi : List (Master × Word) := []
  deriving DecidableEq, Repr

/-- One trace unit, beside its SK_ registers. -/
structure SkSt where
  /-- Channels since the arm (R510,R516; 1-16). -/
  nch : Nat := 1
  /-- Ticks between rows since the arm (R512,R516; 16 bits). -/
  div : Nat := 1
  /-- First sample since the arm (R510,R516; 19 bits). -/
  base : Nat := 0
  /-- Rows since the arm (R510,R516; 17 bits). -/
  rows : Nat := 1
  /-- Rows before the trigger row since the arm (R513,R516; 16 bits). -/
  pre : Nat := 0
  /-- SK_TRIG since the arm (R514,R516; 32 bits). -/
  trig : Word := 0
  /-- SK_THR since the arm (R514,R516; 32 bits). -/
  thr : Word := 0
  /-- SK_CH since the arm (R511,R516; up to 16 words). -/
  chans : List (Word) := []
  /-- Rows written since the arm (R513; count). -/
  written : Nat := 0
  /-- Rows still to write after the trigger row (R513; count). -/
  post : Nat := 0
  /-- The previous row (R514; samples). -/
  prev : Option (List (Word)) := none
  /-- SK_CTRL.force waits for a row in READY (R514; 1 bit). -/
  force : Bool := false
  /-- SK_CTRL.disarm acts after the row of the present tick (R515; 1 bit). -/
  disarm : Bool := false
  /-- The unit it is chained to has entered POST since its last row (R515; 1 bit). -/
  chain : Bool := false
  deriving DecidableEq, Repr

/-- One event of the present tick, as an EVENT record will show it (R502). DESIGN CHOICE, log entry 30. -/
structure EvRec where
  /-- Event class (R61,R502; 0-5). -/
  cls : Nat := 0
  /-- Rejected (R502; 1 bit). -/
  rej : Bool := false
  /-- Result or cause code of the rejecting rule (R502; 8 bits). -/
  reason : Nat := 0
  /-- Address of the _EVT register whose bit the event sets, or 0 (R502; 20 bits). -/
  reg : Nat := 0
  /-- That bit, or the sub-code (R502; 5 bits). -/
  bit : Nat := 0
  /-- Target (R500; 16 bits). -/
  idx : Nat := 0
  /-- Frame time of a finer timestamp (R502; 32 bits). -/
  fine : Word := 0
  /-- Detail words (R502; up to 8 words). -/
  detail : List Word := []
  deriving DecidableEq, Repr

/-- One error-log entry waiting for MRAM (R530). -/
structure LogEnt where
  /-- Entry type 1-8 (R530; 8 bits). -/
  type : Nat := 0
  /-- Requester mask (R530; 16 bits). -/
  req : BitVec 16 := 0
  /-- Tick of the entry (R530; tick). -/
  tick : Nat := 0
  /-- Memory code (R530; 32 bits). -/
  code : Word := 0
  /-- Count in the page and pass (R530; 16 bits). -/
  count : Nat := 0
  /-- The 13 bits read (R530; 13 bits). -/
  bits : BitVec 13 := 0
  /-- Entries lost before this one (R530; 8 bits). -/
  lost : Nat := 0
  /-- Epoch time of the tick (R530; 64 bits). -/
  time : BitVec 64 := 0
  deriving DecidableEq, Repr

/-- The corrections of one page in the present scrub pass (R522). -/
structure PageCnt where
  /-- The page (R529; memory code of the page). -/
  page : Nat := 0
  /-- Corrections in this pass (R522; count). -/
  cor : Nat := 0
  /-- A corrected error of the page is in the log for this pass (R522; 1 bit). -/
  logged : Bool := false
  deriving DecidableEq, Repr

/-- The ECC blocks, beside the ECC_ registers. DEDUCED, log entry 11. -/
structure EccSt where
  /-- Stored bits of a byte that differ from its code word (R518,R519; list by memory code). -/
  flips : List (Nat × BitVec 13) := []
  /-- Entries waiting for MRAM (R530; up to 16). -/
  queue : List LogEnt := []
  /-- Entries lost since the last one queued (R530; 8 bits). -/
  lostNext : Nat := 0
  /-- Pages with corrections in this pass (R522; list). -/
  pages : List PageCnt := []
  /-- Device time at which the present pass began (R525; ns). -/
  passStart : Nat := 0
  /-- Next byte the scrubber reads (R525; memory code). -/
  scrubPos : Nat := 0
  /-- Memory and page of each page mapped to a spare (R532; up to 64). -/
  retired : List (Nat × Nat) := []
  deriving DecidableEq, Repr

/-- One open session (R543). -/
structure Session where
  /-- Session kind (R539; 0-2). -/
  kind : Nat := 0
  /-- Key slot (R539; 1-7). -/
  slot : Nat := 1
  /-- Privilege (R545; 0-3). -/
  priv : Nat := 0
  /-- Session identity (R538; 32 bits). -/
  sid : Word := 0
  /-- K_h2d (R544; 32 bytes). -/
  kIn : List (Byte) := []
  /-- K_d2h (R544; 32 bytes). -/
  kOut : List (Byte) := []
  /-- K_wrap (R544; 32 bytes). -/
  kWrap : List (Byte) := []
  /-- Highest seq accepted from the host (R540; 64 bits). -/
  seqIn : Nat := 0
  /-- Seq of the last message sent (R538; 64 bits). -/
  seqOut : Nat := 0
  /-- Device time of the last valid message (R543; ns). -/
  last : Nat := 0
  /-- Responses kept, latest first (R541; up to 16). -/
  kept : List (Word × Response) := []
  /-- Source address of the latest message (R536; 32 bits). -/
  srcAddr : Word := 0
  /-- Source port of the latest message (R536; 16 bits). -/
  srcPort : BitVec 16 := 0
  deriving DecidableEq, Repr

/-- A challenge that waits for its AUTH (R543). -/
structure Challenge where
  /-- The new session identity (R543; 32 bits). -/
  sid : Word := 0
  /-- Key slot of the HELLO (R539; 1-7). -/
  slot : Nat := 1
  /-- Session kind of the HELLO (R539; 0-2). -/
  kind : Nat := 0
  /-- Host nonce (R539; 16 bytes). -/
  hostNonce : List (Byte) := []
  /-- Device nonce (R543; 16 bytes). -/
  devNonce : List (Byte) := []
  /-- Device time of the challenge (R543; ns). -/
  at_ : Nat := 0
  /-- Source address of the HELLO, or of the AUTH that answers it (R536; 32 bits). -/
  srcAddr : Word := 0
  /-- Its source port (R536; 16 bits). -/
  srcPort : BitVec 16 := 0
  deriving DecidableEq, Repr

/-- An authenticated message waiting for its tick (R59, R61). -/
structure HostMsg where
  /-- Session (R543; 0-3). -/
  sess : Nat := 0
  /-- Request identity (R538; 32 bits). -/
  req : Word := 0
  /-- The message (R539; type and payload). -/
  body : MsgBody := .cmd []
  deriving DecidableEq, Repr

/-- The host port and its sessions, beside the HP_ registers. -/
structure HostSt where
  /-- Sessions 0-3 (R546; 4 entries). -/
  sessions : List (Option Session) := [none, none, none, none]
  /-- Challenges that wait for AUTH (R543; list). -/
  challenges : List Challenge := []
  /-- The stream session (R546; 0-3). -/
  stream : Option Nat := none
  /-- Source address of the latest accepted STREAM_ACK (R536; 32 bits). -/
  streamAddr : Word := 0
  /-- Source port of the latest accepted STREAM_ACK (R536; 16 bits). -/
  streamPort : BitVec 16 := 0
  /-- Messages that wait for the next tick, in order of reception (R59,R63; list). -/
  inbox : List HostMsg := []
  /-- Device times of the authentication failures in the window (R567; list of ns). -/
  failures : List Nat := []
  /-- Class 4 can trip: the count has been below lim since it last tripped (R567; 1 bit). -/
  armed4 : Bool := true
  /-- HP_CFG, HP_ADDR, HP_MAC_LO, HP_MAC_HI, HP_PORT and HP_PEER the port runs with (R578; 6
  words). -/
  cfg : List (Word) := []
  /-- PCS block lock (HP_STAT.link mirrors it) (R535; 1 bit). -/
  link : Bool := false
  /-- The keys were erased since the last power cycle: no session opens (R565; 1 bit). -/
  erasedBoot : Bool := false
  deriving DecidableEq, Repr

/-- One settings bank in MRAM (R554). -/
structure Bank where
  /-- Both CRCs match (R555; 1 bit). -/
  valid : Bool := false
  /-- Seq (R554; 32 bits). -/
  seq : Word := 0
  /-- Register addresses and values (R554; up to 32764). -/
  recs : List (Nat × Word) := []
  /-- First 4 bytes of the SHA-256 of the image (R554; 32 bits). -/
  hash : Word := 0
  deriving DecidableEq, Repr

/-- One key slot in a limited-change bank (R558). -/
structure KeySlot where
  /-- Provisioned (R545; 1 bit). -/
  prov : Bool := false
  /-- The key (R562; 32 bytes). -/
  key : List (Byte) := []
  /-- Privilege (R545; 0-3). -/
  priv : Nat := 0
  /-- Provisions made (R562; count). -/
  count : Nat := 0
  deriving DecidableEq, Repr

/-- One limited-change bank in MRAM (R554, R558). DESIGN CHOICE, log entry 1. -/
structure LcBank where
  /-- Both CRCs match (R555; 1 bit). -/
  valid : Bool := false
  /-- Seq (R555; 32 bits). -/
  seq : Word := 0
  /-- Committed words of the limited-change registers (R558; list). -/
  regs : List (Nat × Word) := []
  /-- Changes left of setting 1 (R558; count). -/
  lifeSafety : Nat := 64
  /-- Changes left of setting 2 (R558; count). -/
  lifeArch : Nat := 8
  /-- Changes left of setting 3 (R558; count). -/
  lifePair : Nat := 8
  /-- Changes left of settings 0x10-0x17 (R558; 8 counts). -/
  lifeKeys : List Nat := [16,16,16,16,16,16,16,16]
  /-- Key slots 0-7 (R558; 8 slots). -/
  keys : List KeySlot := [{},{},{},{},{},{},{},{}]
  deriving DecidableEq, Repr

/-- One key staged by PROVISION (R559, R562). -/
structure StagedKey where
  /-- Slot (R562; 0-7). -/
  slot : Nat := 0
  /-- Unwrapped key (R562; 32 bytes). -/
  key : List (Byte) := []
  /-- Privilege (R562; 0-3). -/
  priv : Nat := 0
  deriving DecidableEq, Repr

/-- A STORE or COMMIT_LC that runs (R556, R560). -/
structure NvJob where
  /-- A COMMIT_LC, else a STORE (R560; 1 bit). -/
  commit : Bool := false
  /-- The settings bank being written (R556; record). -/
  bank : Bank := {}
  /-- The limited-change bank being written (R560; record). -/
  lc : LcBank := {}
  /-- Session to answer (R551; 0-3). -/
  sess : Nat := 0
  /-- Request to answer (R551; 32 bits). -/
  req : Word := 0
  /-- The tick it belongs to (R556; tick). -/
  tick : Nat := 0
  /-- The register values have been taken (R556; 1 bit). -/
  taken : Bool := false
  /-- Identity of the session to answer (R551; 32 bits). -/
  sid : Word := 0
  /-- The settings that the commit changes (R560; list of settings). -/
  sets : List Nat := []
  /-- First change-log entry of the commit (R560; index). -/
  logFrom : Nat := 0
  deriving DecidableEq, Repr

/-- The MRAM: it keeps its contents through Reset. DESIGN CHOICE, log entry 1. -/
structure NvSt where
  /-- Settings bank 0 (R554; record). -/
  bank0 : Bank := {}
  /-- Settings bank 1 (R554; record). -/
  bank1 : Bank := {}
  /-- Limited-change bank 0 (R554; record). -/
  lc0 : LcBank := {}
  /-- Limited-change bank 1 (R554; record). -/
  lc1 : LcBank := {}
  /-- Resume journal entries by index (R418; up to 4096). -/
  journal : List (Nat × JnlEntry) := []
  /-- Seq of the last journal entry written (R418; 32 bits). -/
  jnlSeq : Word := 0
  /-- Error log: words 0-7 by index (R530; up to 1024). -/
  log : List (Nat × List (Word)) := []
  /-- Seq of the last error-log entry (R530; 32 bits). -/
  logSeq : Word := 0
  /-- Index of the entry to be written next (R530; 0-1023). -/
  logNext : Nat := 0
  /-- Change log: words 0-7, in order (R561; up to 1024). -/
  clog : List (List (Word)) := []
  /-- Change-log entries of commits whose header has not been written (R560; list of indices). -/
  voids : List Nat := []
  /-- The TAMPER_N latch of the VBAT domain (R563,R615; 1 bit). -/
  tamper : Bool := false
  deriving DecidableEq, Repr

/-- STORE, COMMIT_LC and the staging, beside the NV_ registers. -/
structure StoreSt where
  /-- The STORE or commit that runs (R556,R560; record). -/
  job : Option NvJob := none
  /-- Staged words of the limited-change registers (R559; list). -/
  stRegs : List (Nat × Word) := []
  /-- Staged keys (R559; list). -/
  stKeys : List StagedKey := []
  /-- Registers as the image left them (R576; list). -/
  image : List (Nat × Word) := []
  deriving DecidableEq, Repr

/-- Levels at the input balls and what the monitors see. DESIGN CHOICE, log entry 68. -/
structure Balls where
  /-- RST_N (R570; 1 bit). -/
  rstN : Bool := false
  /-- PGOOD (R570; 1 bit). -/
  pgood : Bool := false
  /-- PRESENT_N (R492,R570; 1 bit). -/
  presentN : Bool := true
  /-- TAMPER_N (R563; 1 bit). -/
  tamperN : Bool := true
  /-- ROLE: high for unit B (R460; 1 bit). -/
  roleB : Bool := false
  /-- Every supply lies within its window (R605; 1 bit). -/
  voltOk : Bool := true
  /-- The junction temperature lies below its trip value (R606; 1 bit). -/
  tempOk : Bool := true
  /-- REFCLK lies within its limits (R607; 1 bit). -/
  clkOk : Bool := true
  /-- TICK (R34,R36; 1 bit). -/
  tick : Bool := false
  deriving DecidableEq, Repr

/-- Start-up and the operating modes, beside the DEV_ registers. -/
structure ModeSt where
  /-- Device time at which the present mode was entered (R580,R595 (DEV_START); ns). -/
  since : Nat := 0
  /-- Ticks for which a RESTART still keeps the lines silent (R588; count to 2). -/
  idleLeft : Nat := 0
  /-- The transition taken in the present tick (R582; mode and reason). -/
  cause : Option (Nat × Nat) := none
  /-- Key erasure was ordered in the present tick (R565; 1 bit). -/
  erasing : Bool := false
  /-- Size of the state image, as the image gives it (R20; bytes). -/
  stateImage : Nat := 0
  /-- The microstep tables that the image loaded, by index (their place in the Palette is
  Askino's) (R324; up to 16 tables of 257 halfwords). -/
  tables : List (Nat × List (BitVec 16)) := []
  /-- Canvas bytes that the copy map of the image carries: memory code and length of each stretch
  (Askino's) (R475; list). -/
  copyMap : List (Nat × Nat) := []
  deriving DecidableEq, Repr

end Sys2Proof.Machine
end

