-- ==== Sys2Proof/Syntax.lean ====
section
/-! DEFINITION. The commands that the block takes: one constructor per row of the table of
operations and events, with the row's operands, and the operand types. -/

namespace Sys2Proof

open Machine

/-- Format A operands of a Brush instruction: accumulator or none, lane mask, two D registers, and
the broadcast of one lane of Dy (R247). -/
structure LaneOp where
  /-- Accumulator. -/
  a : Fin 4 := 0
  /-- Lane mask. -/
  m : BitVec 4 := 0
  /-- Dx. -/
  x : Fin 8 := 0
  /-- Dy. -/
  y : Fin 8 := 0
  /-- Lane ly of Dy goes to all four lanes. -/
  b : Bool := false
  /-- Lane ly. -/
  ly : Fin 4 := 0
  deriving DecidableEq, Repr

/-- Format V operands of a Brush instruction (R247). -/
structure VecOp where
  /-- Dd. -/
  d : Fin 8 := 0
  /-- Dx. -/
  x : Fin 8 := 0
  /-- Dy. -/
  y : Fin 8 := 0
  /-- Lane mask. -/
  m : BitVec 4 := 0
  /-- Lane ly of Dy goes to all four lanes. -/
  b : Bool := false
  /-- Lane ly. -/
  ly : Fin 4 := 0
  deriving DecidableEq, Repr

/-- The address operand of a Brush memory instruction: pointer, addressing mode 0 to 3, signed
displacement (R240, R247). -/
structure MemOp where
  /-- Pointer PTp. -/
  p : Fin 8 := 0
  /-- Addressing mode. -/
  am : Fin 4 := 0
  /-- Displacement, used by mode 3 only. -/
  disp : BitVec 12 := 0
  deriving DecidableEq, Repr

/-- Who accesses a register: a firmware engine, or the host in one of its sessions (R545, R559). -/
inductive Actor
  | firmware (m : Master)
  | session (s : Fin 4)
  deriving DecidableEq, Repr

/-- What Self-test found: the step that failed, if any, and the validity of the four MRAM headers as
step 1 read them (R571, R572). -/
structure SelfTest where
  /-- The step 1 to 4 that failed; 0 for none. -/
  failed : Nat := 0
  /-- The checker test failed in step 2: the memory and the case (R528). -/
  checker : Option (Nat × Nat) := none
  /-- Duration in ms. -/
  ms : Nat := 0
  deriving DecidableEq, Repr

/-- One load record of an image body (R574). -/
structure LoadRec where
  /-- Destination byte address. -/
  addr : Nat := 0
  /-- Kind 0 to 3. -/
  kind : Nat := 0
  /-- Count of destination words. -/
  count : Nat := 0
  /-- Data words. -/
  data : List Word := []
  deriving DecidableEq, Repr

/-- What reading the flash gave: the image by its parts. The schedule modes and station
configurations stand in the Palette in a layout that is Askino's; they are given here as what the
layout says (R136, R156, R552, R573, R574). DESIGN CHOICE, log entry 12. PRESUMED, log entry 58. -/
structure LoadImage where
  /-- The flash interface works. -/
  flashOk : Bool := true
  /-- The image was read in 1-1-1 mode (R573). -/
  slow : Bool := false
  /-- Magic, version, reserved fields, L and the body's bounds are as R552 states. -/
  headerOk : Bool := true
  /-- L, bytes. -/
  len : Word := 0
  /-- Build number. -/
  build : Word := 0
  /-- SHA-256 of bytes 0 to L - 65. -/
  digest : List Byte := []
  /-- Public key, 64 bytes. -/
  publicKey : List Byte := []
  /-- Signature, 64 bytes. -/
  signature : List Byte := []
  /-- Load records in body order. -/
  recs : List LoadRec := []
  /-- The records fill the body exactly. -/
  bodyOk : Bool := true
  /-- Schedule modes as the Palette holds them. -/
  modes : List SchedMode := []
  /-- Station configurations. -/
  stCfgs : List StCfg := []
  /-- The Canvas pages of the slow-state image, as Askino lays it out (R472). -/
  slowPages : List Nat := []
  /-- Size of the state image in bytes (R20). -/
  stateImage : Nat := 0
  /-- The copy map of the image: memory code and length in bytes of each stretch (R475). -/
  copyMap : List (Nat × Nat) := []
  /-- The microstep tables that the image loads, by index: 257 halfwords each; where they stand in the
  Palette is Askino's (R324). -/
  tables : List (Nat × List (BitVec 16)) := []
  /-- Canvas window address of the recipe pool, as Askino places it (AT_POOL). -/
  atPool : Word := 0x10000000#32
  /-- Canvas window address of the pool of compare entries, as Askino places it (AX_CMP_POOL). -/
  cmpPool : Word := 0x10000000#32
  /-- Duration of Load in ms. -/
  ms : Nat := 0
  deriving DecidableEq, Repr

/-- The commands of the block, one per row of the table of operations and events. -/
inductive Instr
  /-- TICK_INSTANT (R13): At each tick instant T(n) the stations sample their inputs and the heads
  latch safe and event inputs, load the due job counters and apply a complete state copy. -/
  | tickInstant (samples : List StSample)
  /-- FRAME_TX_START (R14): At T(n)+TIM_TX_OFS each head starts its CYC frame of tick n on every
  line and sends its twin-link heartbeat. -/
  | frameTxStart
  /-- TICK_OUT_PULSE (R34): The TICK ball drives a high pulse of width_ns at T(n)+ofs_ns when the
  tick output is enabled. -/
  | tickOutPulse
  /-- EXT_TICK_EDGE (R36): A rising edge on the TICK input is accepted within the window and
  adjusts the leading head's rate, or is counted as a miss. -/
  | extTickEdge (ofsNs : Int)
  /-- EXT_TICK_LOST (R38): After 8 consecutive ticks without an accepted edge the device sets
  ext_lost and runs from REFCLK at the last rate. -/
  | extTickLost
  /-- TIM_NOW_LO_READ (R40): A read of TIM_NOW_LO returns network time [31:0] and latches the
  upper word for TIM_NOW_HI. -/
  | timNowLoRead (m : Master) (ofsNs : Fin 262144)
  /-- TIM_EPOCH_LO_WRITE (R42): A write to TIM_EPOCH_LO is buffered per bus master. -/
  | timEpochLoWrite (m : Master) (v : Word)
  /-- TIM_EPOCH_HI_WRITE (R42): A write to TIM_EPOCH_HI commits the 64-bit epoch offset at the
  next tick instant and records an EPOCH record. -/
  | timEpochHiWrite (m : Master) (v : Word)
  /-- TIM_CFG_WRITE (R31): A write to TIM_CFG or TIM_TICK is accepted by mode and field, taking
  effect at the next cold start or at the next tick. -/
  | timCfgWrite (tick : Bool) (v : Word)
  /-- EZ_DEADLINE (R200): At T(n)+EZ_DEADLINE the Easel aborts running jobs, discards unstarted
  ones, and the head ages the feedback slots and takes its end-of-tick decisions. -/
  | ezDeadline
  /-- STATE_COPY (R26): The active unit starts the state copy of tick n once the deadline has
  passed and every commit in progress has finished. -/
  | stateCopy
  /-- EZ_RELEASE (R195): At T(n)+EZ_RELEASE every feedback source that has not yet signalled
  signals on older data. -/
  | ezRelease
  /-- EASEL_TIMER (R196): An Easel timer fires at its offset in due ticks and signals its link
  list. -/
  | easelTimer (k : Fin 64)
  /-- FEEDBACK_SEGMENT_RX (R194): The network DMA writes a valid or failed feedback segment into
  its Canvas slot and signals the station's source. -/
  | feedbackSegmentRx (line : Fin 8) (seg : Seg) (atNs : Nat) (eccBad : Bool)
  /-- SAFETY_PDU_RX (R445): The safety channels evaluate a station-to-head PDU within 5 µs of its
  segment's arrival. -/
  | safetyPduRx (c : Fin 64) (pdu : List Word)
  /-- JOB_DISPATCH (R202): The Easel moves a ready job into the local queue of an eligible engine
  as soon as one has room. -/
  | jobDispatch
  /-- JOB_START (R204): An engine takes the next job of its queue, and the Easel writes its
  dispatch context and starts it at its entry point. -/
  | jobStart (e : Fin 4) (atNs : Nat)
  /-- MPY (R248): Brush instruction: each enabled lane's accumulator is loaded with the product of
  its lanes. -/
  | mpy (e : Fin 4) (f : LaneOp)
  /-- MAC (R248): Brush instruction: each enabled lane's accumulator adds its lane product. -/
  | mac (e : Fin 4) (f : LaneOp)
  /-- MSU (R248): Brush instruction: each enabled lane's accumulator subtracts its lane product.
  -/
  | msu (e : Fin 4) (f : LaneOp)
  /-- MPYS (R248): Brush instruction: one accumulator is loaded with the sum of the enabled lane
  products. -/
  | mpys (e : Fin 4) (f : LaneOp)
  /-- MACS (R229): Brush instruction: one accumulator adds the sum of the enabled lane products,
  with overflow detection. -/
  | macs (e : Fin 4) (f : LaneOp)
  /-- MSUS (R248): Brush instruction: one accumulator subtracts the sum of the enabled lane
  products. -/
  | msus (e : Fin 4) (f : LaneOp)
  /-- CLR (R236): Brush instruction: clears the enabled accumulators, lifting a hold where
  permitted. -/
  | clr (e : Fin 4) (m : BitVec 4)
  /-- ADDA (R248): Brush instruction: adds one accumulator to another. -/
  | adda (e a c : Fin 4)
  /-- SUBA (R248): Brush instruction: subtracts one accumulator from another. -/
  | suba (e a c : Fin 4)
  /-- MOVA (R248): Brush instruction: copies one accumulator to another. -/
  | mova (e a c : Fin 4)
  /-- SHA (R248): Brush instruction: shifts an accumulator left or arithmetically right. -/
  | sha (e a : Fin 4) (imm : BitVec 6)
  /-- NORM (R233): Brush instruction: writes the redundant sign count to a G register and
  normalises the accumulator. -/
  | norm (e a : Fin 4) (g : Fin 8)
  /-- EXPA (R233): Brush instruction: writes the redundant sign count of an accumulator to a G
  register. -/
  | expa (e a : Fin 4) (g : Fin 8)
  /-- INSA (R232): Brush instruction: places a Q15 lane value in an accumulator. -/
  | insa (e a : Fin 4) (d : Fin 8) (lane : Fin 4)
  /-- EXTA (R230): Brush instruction: extracts a saturated Q15 value from an accumulator into a
  lane. -/
  | exta (e a : Fin 4) (imm : BitVec 6) (d : Fin 8) (lane : Fin 4)
  /-- VADD (R231): Brush instruction: saturating lane-wise add. -/
  | vadd (e : Fin 4) (f : VecOp)
  /-- VSUB (R231): Brush instruction: saturating lane-wise subtract. -/
  | vsub (e : Fin 4) (f : VecOp)
  /-- VMIN (R231): Brush instruction: lane-wise minimum. -/
  | vmin (e : Fin 4) (f : VecOp)
  /-- VMAX (R231): Brush instruction: lane-wise maximum. -/
  | vmax (e : Fin 4) (f : VecOp)
  /-- VMOV (R248): Brush instruction: copies the enabled lanes of a D register. -/
  | vmov (e : Fin 4) (f : VecOp)
  /-- VNEG (R231): Brush instruction: saturating lane-wise negation. -/
  | vneg (e : Fin 4) (f : VecOp)
  /-- LDD (R248): Brush instruction: loads 8 bytes into a D register. -/
  | ldd (e : Fin 4) (a : MemOp) (r : Fin 8)
  /-- STD (R248): Brush instruction: stores a D register as 8 bytes. -/
  | std (e : Fin 4) (a : MemOp) (r : Fin 8)
  /-- LDH (R248): Brush instruction: loads 2 bytes into one lane. -/
  | ldh (e : Fin 4) (a : MemOp) (r : Fin 8) (lane : Fin 4)
  /-- STH (R248): Brush instruction: stores one lane as 2 bytes. -/
  | sth (e : Fin 4) (a : MemOp) (r : Fin 8) (lane : Fin 4)
  /-- LDBH (R248): Brush instruction: loads 2 bytes into every lane of a D register. -/
  | ldbh (e : Fin 4) (a : MemOp) (r : Fin 8)
  /-- LDG (R248): Brush instruction: loads 4 bytes into a G register. -/
  | ldg (e : Fin 4) (a : MemOp) (r : Fin 8)
  /-- STG (R248): Brush instruction: stores a G register as 4 bytes. -/
  | stg (e : Fin 4) (a : MemOp) (r : Fin 8)
  /-- LDA (R232): Brush instruction: loads a Q15 value from memory into an accumulator. -/
  | lda (e : Fin 4) (a : MemOp) (c : Fin 4)
  /-- STA (R230): Brush instruction: stores the saturated Q15 value of an accumulator. -/
  | sta (e : Fin 4) (a : MemOp) (c : Fin 4) (sh : BitVec 4)
  /-- LDX (R232): Brush instruction: loads a 40-bit accumulator from an 8-byte word. -/
  | ldx (e : Fin 4) (a : MemOp) (c : Fin 4)
  /-- STX (R232): Brush instruction: stores an accumulator sign-extended to 8 bytes. -/
  | stx (e : Fin 4) (a : MemOp) (c : Fin 4)
  /-- MOVI (R248): Brush instruction: loads a sign-extended immediate into a G register. -/
  | movi (e : Fin 4) (g : Fin 8) (imm : BitVec 16)
  /-- MOVHI (R248): Brush instruction: loads the upper half of a G register. -/
  | movhi (e : Fin 4) (g : Fin 8) (imm : BitVec 16)
  /-- ADDI (R248): Brush instruction: adds a sign-extended immediate to a G register. -/
  | addi (e : Fin 4) (g : Fin 8) (imm : BitVec 16)
  /-- ADDG (R248): Brush instruction: adds two G registers. -/
  | addg (e : Fin 4) (g k : Fin 8)
  /-- SUBG (R248): Brush instruction: subtracts two G registers. -/
  | subg (e : Fin 4) (g k : Fin 8)
  /-- CMPG (R248): Brush instruction: compares two G registers and sets z and n. -/
  | cmpg (e : Fin 4) (g k : Fin 8)
  /-- CMPI (R248): Brush instruction: compares a G register with an immediate. -/
  | cmpi (e : Fin 4) (g : Fin 8) (imm : BitVec 16)
  /-- MOVS (R219): Brush instruction: reads a special register into a G register. -/
  | movs (e : Fin 4) (g : Fin 8) (s : Fin 64)
  /-- MOVP (R242): Brush instruction: writes a pointer, step, base or length register. -/
  | movp (e : Fin 4) (g : Fin 8) (s : Fin 64)
  /-- JST (R248): Brush instruction: reads a job status word and sets z when its rv is 0. -/
  | jst (e : Fin 4) (g k : Fin 8)
  /-- B (R252): Brush instruction: branches when its condition holds, closing blocks it leaves. -/
  | b (e : Fin 4) (cond : Fin 16) (target : BitVec 16)
  /-- RPTI (R243): Brush instruction: opens a block repeat with an immediate count. -/
  | rpti (e : Fin 4) (count : Fin 1024) (last : BitVec 16)
  /-- RPTG (R246): Brush instruction: opens a block repeat with a count from a G register. -/
  | rptg (e : Fin 4) (g : Fin 8) (last : BitVec 16)
  /-- XIN (R251): Brush instruction: starts a copy of up to 256 words into local data memory. -/
  | xin (e : Fin 4) (p q : Fin 8) (n : Fin 256)
  /-- XIN_COMPLETE (R251): An outstanding XIN copy completes its words in local memory. -/
  | xinComplete (e : Fin 4)
  /-- WAITX (R248): Brush instruction: waits until every XIN of the job has completed. -/
  | waitx (e : Fin 4)
  /-- END (R253): Brush instruction: ends the job, sets rv from aov and starts the commit or
  discard. -/
  | endJob (e : Fin 4)
  /-- NOP (R248): Brush instruction: does nothing for one cycle. -/
  | nop (e : Fin 4)
  /-- JOB_COMMIT_COMPLETE (R227): The last posted entry is written to the Canvas, the job status
  is written and the job's end source signals. -/
  | jobCommitComplete (e : Fin 4) (atNs : Nat)
  /-- TAKE (R207): Kernel operation: the highest-priority ready or pre-empted thread of the engine
  becomes running. -/
  | take (k : Fin 3) (atNs : Nat)
  /-- WAIT (R207): Kernel operation: the running thread waits and its counter is reloaded, or it
  becomes ready at once with pend. -/
  | wait (k : Fin 3) (atNs : Nat)
  /-- DONE (R207): Kernel operation: the thread becomes dormant and its completion source signals.
  -/
  | done (k : Fin 3) (atNs : Nat)
  /-- SIG (R207): Kernel operation: signals one counter. -/
  | sig (k : Fin 3) (cnt : Fin 4096) (atNs : Nat)
  /-- YIELD (R207): Kernel operation: the running thread becomes ready at the tail of its
  priority. -/
  | yield (k : Fin 3) (atNs : Nat)
  /-- START (R207): Kernel operation: a dormant thread's counter is loaded and it becomes ready
  when the value is 0. -/
  | start (k : Fin 3) (thread : Fin 1024) (atNs : Nat)
  /-- EZ_SIG (R210): A write to EZ_SIG from any master signals the named counter, unless it is
  reserved. -/
  | ezSig (m : Master) (v : Word) (atNs : Nat)
  /-- EZ_HIST_CLR (R217): EZ_CTRL.hist_clr clears every wait histogram bin. -/
  | ezHistClr
  /-- EZ_MAX_CLR (R217): EZ_CTRL.max_clr clears the inflight, spill, depth and finish maxima. -/
  | ezMaxClr
  /-- SPILL_READBACK (R212): The Easel reads spilled ready entries back into freed on-chip
  entries. -/
  | spillReadback (eccBad : Bool)
  /-- BR_PM_DATA_WRITE (R260): A write to BR_PM_DATA writes program memory of the addressed
  engines and increments addr, or is rejected. -/
  | brPmDataWrite (m : Master) (v : Word)
  /-- BR_PM_DATA_READ (R260): A read of BR_PM_DATA returns the word at addr in the lowest
  addressed engine and increments addr. -/
  | brPmDataRead (m : Master)
  /-- BR_CNT_CLR (R261): BR_CTRL.cnt_clr clears the engine statistics. -/
  | brCntClr
  /-- CYC_RX (R110): A head receives a CYC frame on a line port, checks it against the guardian
  and takes its feedback segments. -/
  | cycRx (line : Fin 8) (f : CycFrame) (atNs lastNs : Nat)
  /-- CST_RX (R116): A head in LISTEN or COLD_C accepts a CST frame of the other head and follows
  or aborts its cold start. -/
  | cstRx (line : Fin 8) (f : CstFrame)
  /-- ALM_RX (R102): A head receives an ALM frame in an alarm slot window and records the
  station's alarm. -/
  | almRx (line : Fin 8) (f : AlmFrame) (atNs lastNs : Nat)
  /-- FRAME_CUT (R105): A frame whose last byte has not arrived by its latest instant is cut and
  counted as a babble. -/
  | frameCut (line : Fin 8) (atNs : Nat) (addr : Fin 256)
  /-- RESERVED_FRAME_RX (R70): A frame of a reserved type is discarded and counted as an invalid
  code-group event. -/
  | reservedFrameRx (line : Fin 8) (type : BitVec 8)
  /-- MBX_REQUEST (R99): The owning head sends one MBX request at the mailbox request offset. -/
  | mbxRequest (line : Fin 8) (addr : Fin 256)
  /-- MBX_REPLY_RX (R99): A head receives the addressed station's MBX reply in the reply window.
  -/
  | mbxReplyRx (line : Fin 8) (r : MbxReply) (atNs lastNs : Nat)
  /-- READ_ID (R154): Mailbox service: the station returns identity record words. -/
  | readId (st : Fin 256) (index count : Nat)
  /-- WRITE_CFG (R154): Mailbox service: the station receives configuration words for a mode. -/
  | writeCfg (st : Fin 256) (index : Nat) (words : List Word)
  /-- COMMIT_CFG (R158): Mailbox service: the station checks and commits a mode's configuration
  against its CRC. -/
  | commitCfg (st : Fin 256) (mode : Nat) (crc : Word)
  /-- READ_CFG (R154): Mailbox service: the station returns configuration words of a mode. -/
  | readCfg (st : Fin 256) (index count : Nat)
  /-- READ_DIAG (R154): Mailbox service: the station returns maker-defined diagnostic words. -/
  | readDiag (st : Fin 256) (index count : Nat)
  /-- DROP_CFG (R154): Mailbox service: the station drops its configuration for a mode. -/
  | dropCfg (st : Fin 256) (mode : Nat)
  /-- BCN_TX (R91): Every node holding a time sends a BCN on each port with link at bcn_ofs. -/
  | bcnTx
  /-- BCN_RX (R92): A node receives a neighbour's BCN and judges the neighbour live or dead. -/
  | bcnRx (p : Port) (f : BcnFrame) (atNs : Nat)
  /-- DELAY_EXCHANGE_START (R56): In ticks that are multiples of 1,024, and in COLD_D, the near
  node of each link sends a DREQ. -/
  | delayExchangeStart (egressPs : Nat)
  /-- DREQ_RX (R100): A far node answers a DREQ with a DRSP within the turnaround limits. -/
  | dreqRx (p : Port) (ingressPs turnaroundPs : Nat)
  /-- DRSP_RX (R57): The near node computes the link delay from a DRSP and takes or holds back the
  measurement. -/
  | drspRx (p : Port) (atNs ingressPs turnaroundPs : Nat)
  /-- LINE_LINK_LOSS (R68): A line port loses code-group synchronisation and the neighbour is
  regarded as dead. -/
  | lineLinkLoss (p : Port)
  /-- LINE_LINK_GAIN (R68): A line port gains code-group synchronisation. -/
  | lineLinkGain (p : Port)
  /-- ML_RX_REOPEN (R109): ML_CTRL.rx_reopen re-opens an isolated receiver and restarts the line's
  integration. -/
  | mlRxReopen (line : Fin 8)
  /-- ML_CNT_CLR (R113): ML_CTRL.cnt_clr clears the line counters. -/
  | mlCntClr (line : Fin 8)
  /-- LISTEN_TIME_EXPIRY (R116): A head's listen time expires and it enters COLD_C, starting
  network time at T(0). -/
  | listenTimeExpiry
  /-- COLD_D_ENTRY (R116): At the first tick at or after 1 ms of network time a head in COLD_C
  enters COLD_D. -/
  | coldDEntry
  /-- GATHER_ENTRY (R116): After 16 ticks of COLD_D the head enters GATHER and sends CYC frames of
  the initial mode. -/
  | gatherEntry
  /-- GATHER_TIMEOUT (R117): A head in GATHER reaches SYNCED by the 500 ms limit and sets
  cs_timeout. -/
  | gatherTimeout
  /-- FOLLOW_SYNCED (R116): A following head reaches SYNCED after dom_ofs has held within 20 ns
  for 8 ticks and its link is measured. -/
  | followSynced
  /-- ROLE_WAIT_TIMEOUT (R462): Unit B, not leading, becomes active when no partner heartbeat with
  act = 1 arrives within 500 ms of SYNCED. -/
  | roleWaitTimeout
  /-- LEADER_LOSS_BEFORE_SYNC (R118): The leading domain vanishes before the following head is
  SYNCED, and that head returns to LISTEN. -/
  | leaderLossBeforeSync
  /-- WINDOWS_REENABLE (R130): After 64 good ticks the head re-enables a station's windows and
  clears its babble count. -/
  | windowsReenable (st : Fin 256)
  /-- ST_REINT (R127): ST_CTRL.reint orders the station to re-integrate. -/
  | stReint (st : Fin 256)
  /-- ST_WIN_EN (R130): ST_CTRL.win_en re-enables the station's alarm and mailbox windows at once.
  -/
  | stWinEn (st : Fin 256)
  /-- ST_CNT_CLR (R150): ST_CTRL.cnt_clr clears the station counters and max_abs. -/
  | stCntClr (st : Fin 256)
  /-- SCHED_REQ (R138): ML_SCHED_CTRL.req requests a schedule change, which is accepted and
  announced or rejected. -/
  | schedReq (lead : BitVec 8) (tgt : Fin 16)
  /-- SCHED_ABORT (R141): ML_SCHED_CTRL.abort cancels the pending change before its decision. -/
  | schedAbort
  /-- SCHED_DECISION (R141): At T(t-2)+EZ_DEADLINE the active unit commits or cancels the pending
  schedule change. -/
  | schedDecision
  /-- SCHED_SWITCH (R142): From the frame of the target tick both units send every frame in the
  target mode. -/
  | schedSwitch
  /-- STATION_CYC_RX (R84): A station takes its command segment from a passing CYC frame, acts on
  retractions and fills its placeholder. -/
  | stationCycRx (st : Fin 256) (side : Fin 2) (f : CycFrame) (ingressNs atNs residence : Nat)
  /-- STATION_APPLY_DEADLINE (R87): At its apply deadline a station selects one candidate,
  evaluates its watchdogs and stores TO entries. -/
  | stationApplyDeadline (st : Fin 256)
  /-- STATION_APPLY (R169): At the apply instant a station applies switching times, references,
  DO, AO and PR counts. -/
  | stationApply (st : Fin 256)
  /-- TIMED_OUTPUT_FIRE (R181): A held timed-output entry fires at the first 10 ns grid instant at
  or after its fire time. -/
  | timedOutputFire (st : Fin 256) (id : Fin 32768)
  /-- STATION_ALARM_SLOT (R98): A station sends one ALM frame in its alarm slot for each fault it
  latched. -/
  | stationAlarmSlot (st : Fin 256)
  /-- STATION_PDU_EVAL (R446): A station evaluates the SAFE block of each candidate segment and
  withholds permissions within 10 µs. -/
  | stationPduEval (st : Fin 256) (unit : Fin 2) (conn : Fin 4) (pdu : List Word)
  /-- AX_ENABLE (R296): AX_CTRL.enable takes an axis from Off to Catching, or is rejected. -/
  | axEnable (a : Fin 128)
  /-- AX_DISABLE (R293): AX_CTRL.disable takes an axis to Stopping, or to Off from Coasting. -/
  | axDisable (a : Fin 128)
  /-- AX_RESET (R295): AX_CTRL.reset takes an axis from Lost, Fault or Safe-off to Off when its
  conditions hold. -/
  | axReset (a : Fin 128)
  /-- AX_CNT_CLR (R301): AX_CTRL.cnt_clr clears AX_CNT. -/
  | axCntClr (a : Fin 128)
  /-- AX_REF_WRITE (R278): A write to AX_REF.src changes the reference source when permitted, or
  sets src_rej. -/
  | axRefWrite (a : Fin 128) (v : Word)
  /-- COAST_TIMEOUT (R287): After coast_ms in Coasting the axis enters Catching again. -/
  | coastTimeout (a : Fin 128)
  /-- CATCH_TIMEOUT (R290): A catch that has not succeeded within t_ms fails. -/
  | catchTimeout (a : Fin 128)
  /-- BRAKE_RELEASE_DONE (R293): After t_rel_ms in Releasing the axis enters Enabled. -/
  | brakeReleaseDone (a : Fin 128)
  /-- STOPPING_DONE (R293): After standstill for t_zero ticks and the brake engage time the axis
  enters Off. -/
  | stoppingDone (a : Fin 128)
  /-- TRIES_RESET (R287): After 1,024 ticks in Enabled without ROTOR_LOST the catch attempt count
  returns to 0. -/
  | triesReset (a : Fin 128)
  /-- STEPPER_CATCH_DONE (R329): After 32 ticks in Catching a stepper axis sets its encoder offset
  and enters Releasing or Enabled. -/
  | stepperCatchDone (a : Fin 128)
  /-- HOLD_CURRENT_TIMEOUT (R325): After t_hold at commanded speed 0 the base current becomes
  i_hold. -/
  | holdCurrentTimeout (a : Fin 128)
  /-- MOVE_ABS (R306): Profile command: move to the absolute target, starting, queuing or
  rejecting. -/
  | moveAbs (a : Fin 128)
  /-- MOVE_REL (R306): Profile command: move by a distance from the chosen base. -/
  | moveRel (a : Fin 128)
  /-- STOP (R315): Profile command: empties the queue and decelerates to standstill. -/
  | stop (a : Fin 128)
  /-- FLUSH (R316): Profile command: empties the queue while the running move continues. -/
  | flush (a : Fin 128)
  /-- PRF_RESERVED_OP (R306): A reserved profile op has no effect and reports INVALID. -/
  | prfReservedOp (a : Fin 128) (op : Fin 16)
  /-- PROFILE_LATE_STOP (R319): late_lim consecutive missing profile steps put the axis in
  Stopping with reaction 1. -/
  | profileLateStop (a : Fin 128)
  /-- AX_EMU_CFG_WRITE (R345): A write enabling emulation or changing its resolution resets the
  emulation reference and carry. -/
  | axEmuCfgWrite (a : Fin 128) (res : Bool) (v : Word)
  /-- AX_FB_POFS_WRITE (R345): A write to AX_FB_POFS shifts the position and resets the emulation
  reference. -/
  | axFbPofsWrite (a : Fin 128) (v : Word)
  /-- COMPARE_EVALUATION (R353): After the axis job ends, the compare thread predicts crossings in
  the window and stages or retracts timed outputs. -/
  | compareEvaluation (l : Fin 16)
  /-- AX_CMP_ARM (R360): A write to AX_CMP_CFG arms or configures a compare list, or is rejected.
  -/
  | axCmpArm (l : Fin 16) (v : Word)
  /-- AX_CMP_REWIND (R357): AX_CMP_CTRL.rewind sets the list pointer and seq to 0 on a disarmed
  list. -/
  | axCmpRewind (l : Fin 16)
  /-- AX_CMP_CNT_CLR (R361): AX_CMP_CTRL.cnt_clr clears AX_CMP_CNT. -/
  | axCmpCntClr (l : Fin 16)
  /-- PL_AUTO (R372): PL_CTRL.auto closes a loop in Manual bumplessly at its next run. -/
  | plAuto (i : Fin 384)
  /-- PL_MANUAL (R372): PL_CTRL.manual opens a loop at its next run with the last output. -/
  | plManual (i : Fin 384)
  /-- PL_RESUME (R372): PL_CTRL.resume takes a loop from Hold to Auto when its input is fresh. -/
  | plResume (i : Fin 384)
  /-- PL_RESET (R372): PL_CTRL.reset takes a loop from Fault to Manual when its input is fresh. -/
  | plReset (i : Fin 384)
  /-- PL_CFG_WRITE (R372): A write to PL_CFG enables a loop or, with en 0, takes it to Off in the
  same tick. -/
  | plCfgWrite (i : Fin 384) (v : Word)
  /-- PL_COEF_WRITE (R375): A write to a loop's coefficients or limits is accepted in Off or
  Manual, or rejected. -/
  | plCoefWrite (i : Fin 384) (k : Fin 16) (v : Word)
  /-- PL_GRP_CNT_CLR (R382): PL_GRP_CTRL.cnt_clr clears the group's selection count. -/
  | plGrpCntClr (g : Fin 96)
  /-- RECIPE_START (R392): AT_RCP_CTRL.start checks the recipe and starts it at the given step. -/
  | recipeStart (r : Fin 64) (step : Fin 4096)
  /-- RECIPE_HOLD (R406): AT_RCP_CTRL.hold retracts staged actions, runs the hold block and enters
  HOLDING. -/
  | recipeHold (r : Fin 64)
  /-- RECIPE_RESUME (R408): AT_RCP_CTRL.resume decides the held step's guard and restarts or
  continues it. -/
  | recipeResume (r : Fin 64)
  /-- RECIPE_ABORT (R407): AT_RCP_CTRL.abort retracts staged actions, runs the abort block and
  enters ABORTING. -/
  | recipeAbort (r : Fin 64)
  /-- RECIPE_RESET (R407): AT_RCP_CTRL.reset takes a recipe from DONE or ABORTED to IDLE. -/
  | recipeReset (r : Fin 64)
  /-- RESUME_JNL (R421): AT_RCP_CTRL.resume_jnl restores journaled state and enters HELD at the
  journaled step, or is rejected. -/
  | resumeJnl (r : Fin 64)
  /-- STEP_START (R392): A step starts at its planned tick, and a journal entry is queued. -/
  | stepStart (r : Fin 64)
  /-- ACTION_TO (R387): Recipe action: a timed output at the step start plus ofs_ns. -/
  | actionTo (r : Fin 64) (stn : Fin 256) (output : Fin 256) (ofsNs : Word) (act : Fin 4)
  /-- ACTION_DO (R387): Recipe action: sets a DO point. -/
  | actionDo (r : Fin 64) (stn : Fin 256) (point : BitVec 16) (on : Bool)
  /-- ACTION_AO (R387): Recipe action: sets an AO channel. -/
  | actionAo (r : Fin 64) (stn : Fin 256) (chan : BitVec 16) (v : BitVec 16)
  /-- ACTION_SP (R396): Recipe action: sets or ramps a loop setpoint. -/
  | actionSp (r : Fin 64) (loop : Fin 384) (rampUs : Word) (target : BitVec 16)
  /-- SP_RAMP_STEP (R396): A running setpoint ramp writes its next PL_SP value in each tick. -/
  | spRampStep (r : Fin 64)
  /-- ACTION_LOOP (R387): Recipe action: issues PL_CTRL.auto or manual to a loop. -/
  | actionLoop (r : Fin 64) (loop : Fin 384) (auto : Bool)
  /-- ACTION_MOVE (R387): Recipe action: issues MOVE_ABS or MOVE_REL to an axis. -/
  | actionMove (r : Fin 64) (a : Fin 128) (target : Word) (rel : Bool)
  /-- ACTION_STOP (R387): Recipe action: issues a profile STOP to an axis. -/
  | actionStop (r : Fin 64) (a : Fin 128)
  /-- ACTION_SPD (R387): Recipe action: writes AX_SPD_CMD. -/
  | actionSpd (r : Fin 64) (a : Fin 128) (v : Word)
  /-- ACTION_ARM (R387): Recipe action: arms or disarms a compare list. -/
  | actionArm (r : Fin 64) (l : Fin 16) (arm : Bool)
  /-- ACTION_FLAG (R387): Recipe action: sets or clears a recipe flag. -/
  | actionFlag (r : Fin 64) (flag : Fin 32) (on : Bool)
  /-- ACTION_SIG (R387): Recipe action: signals an Easel counter. -/
  | actionSig (r : Fin 64) (cnt : Fin 4096)
  /-- ACTION_CNT (R387): Recipe action: sets or adds to a recipe counter. -/
  | actionCnt (r : Fin 64) (c : Fin 4) (v : Word) (add : Bool)
  /-- RETRACTION_JUDGEMENT (R403): At the fire tick's deadline each retracted action is judged
  Prevented, Fired or RETRACT_LATE. -/
  | retractionJudgement (r : Fin 64) (id : Fin 32768)
  /-- JOURNAL_COMMIT (R419): A queued journal entry is written durably to MRAM, or its failure is
  recorded. -/
  | journalCommit (ok : Bool)
  /-- SAFE_INPUT_CHANGE (R437): A level change on SFI_A or SFI_B starts the filter time. -/
  | safeInputChange (b : Bool) (level : Bool)
  /-- SAFE_INPUT_FILTERED (R437): After the filter time the filtered state changes, raising or
  clearing zone demands. -/
  | safeInputFiltered (b : Bool)
  /-- DISCREPANCY_TIMEOUT (R438): Paired inputs disagreeing for longer than disc_ms raise a
  discrepancy fault. -/
  | discrepancyTimeout
  /-- CHANNEL_COMPARE (R425): At T(n)+1,000 ns the two safety channels compare their states and
  outgoing PDUs. -/
  | channelCompare (agree : Bool) (crcOk : Bool)
  /-- SS1_TMAX_EXPIRY (R434): SS1 monitoring past t_max commands STO. -/
  | ss1TmaxExpiry (a : Fin 128)
  /-- SS1_STANDSTILL (R434): t_zero consecutive ticks below v_zero take the axis to Safe-off. -/
  | ss1Standstill (a : Fin 128)
  /-- READBACK_FAULT (R440): A read-back differing from the commanded state for longer than rb_us
  is a device fault. -/
  | readbackFault (hs : Bool)
  /-- TEST_PULSE (R441): Every tp_s the device pulses SFO_HS then SFO_LS off and checks the read-
  backs. -/
  | testPulse (hs : Bool) (ok : Bool)
  /-- PDU_WATCHDOG_EXPIRY (R447): W consecutive ticks without a valid PDU take the connection's
  zone to LOCKED. -/
  | pduWatchdogExpiry (c : Fin 64)
  /-- JOINING_RELEASE (R448): After 1,024 ticks of clear conditions and granting partner PDUs a
  zone takes RUN without reset. -/
  | joiningRelease (z : Fin 16)
  /-- SF_DEM_STO (R428): SF_DEM.sto latches an STO demand on the named zones. -/
  | sfDemSto (mask : BitVec 16)
  /-- SF_DEM_SS1 (R428): SF_DEM.ss1 latches an SS1 demand on the named zones. -/
  | sfDemSs1 (mask : BitVec 16)
  /-- SF_CNT_CLR (R459): SF_CTRL.cnt_clr clears the test and connection counters. -/
  | sfCntClr
  /-- SAFETY_RESET (R453): A valid falling edge of a reset input resets zones or starts the lock-
  out retest, or is rejected. -/
  | safetyReset (zone : Option (Fin 16)) (pulseMs : Nat)
  /-- LOCKOUT_RETEST_DONE (R453): The retests after a device reset complete and end the lock-out
  when its cause has cleared. -/
  | lockoutRetestDone (pass : Bool)
  /-- TW_BLOCK_LOCK_GAIN (R471): The twin link gains block lock and the identity exchange starts.
  -/
  | twBlockLockGain
  /-- TW_BLOCK_LOCK_LOSS (R473): The twin link loses block lock and the unit enters DOWN or ALONE.
  -/
  | twBlockLockLoss
  /-- TW_HB_RX (R469): A unit receives its partner's heartbeat with mode, role, fitness and relay
  requests. -/
  | twHbRx (hb : Heartbeat)
  /-- IDENT (R471): A unit receives the partner's IDENT and checks pair_id, unit letters and
  cfg_crc. -/
  | ident (pairId : Word) (unit : Bool) (cfgCrc : Word)
  /-- COPY (R476): A standby receives a COPY frame of the state copy. -/
  | copy (ofs : Nat) (data : List Byte) (last : Bool) (crc : Word) (img : Option CopyImage)
  /-- RELAY (R95): A unit receives a relayed feedback segment over the twin link and treats it as
  an arrival. -/
  | relay (line : Fin 8) (seg : Seg) (atNs : Nat)
  /-- TIME (R470): A unit receives a TIME frame and computes the twin-link delay. -/
  | time (txTime : Word) (txPs : Nat) (rxTime : Word) (rxPs : Nat) (ingressPs : Nat)
  /-- HEALTH (R482): A unit receives its partner's health word. -/
  | health (w : Word)
  /-- RSYNC (R472): A standby receives slow-state image data in an RSYNC frame. -/
  | rsync (page : Nat) (data : List Byte) (last : Bool)
  /-- HANDOVER (R490): CTRL HANDOVER: the standby takes the active role from the next frame when
  its copy was valid, or refuses. -/
  | handover (target : Nat)
  /-- LEAVING (R493): CTRL LEAVING: the active unit records the coming withdrawal of the standby.
  -/
  | leaving
  /-- RESYNC_REQ (R478): CTRL RESYNC_REQ: the active unit starts the resync again. -/
  | resyncReq
  /-- RESYNC_DONE (R472): CTRL RESYNC_DONE: both units enter tstate SYNCED. -/
  | resyncDone
  /-- REFUSE (R490): CTRL REFUSE: the partner refused the identity check or a handover. -/
  | refuse (reason : Fin 8)
  /-- HEALTH_REPORT (R481): Every 1,024 ticks each unit forms its health word and sends a HEALTH
  frame. -/
  | healthReport
  /-- HEALTH_MISSING (R482): Two missed HEALTH frames of a live partner set TW_EVT.health. -/
  | healthMissing
  /-- TW_LINK_SILENCE (R486): Three ticks without a valid twin-link frame while partner frames
  arrive set link_loss. -/
  | twLinkSilence
  /-- LINES_DEAD_HANDOVER (R487): An active unit whose every line has been dead for 2 ticks hands
  over to a fit partner. -/
  | linesDeadHandover
  /-- TW_SWITCH (R491): TW_CTRL.switch requests a handover, or is rejected. -/
  | twSwitch
  /-- TW_RESYNC (R471): TW_CTRL.resync repeats the identity check and resync. -/
  | twResync
  /-- TW_CNT_CLR (R499): TW_CTRL.cnt_clr clears the twin counters. -/
  | twCntClr
  /-- PRESENT_N_DEASSERT (R492): PRESENT_N deasserts and the unit hands over or announces its
  leaving. -/
  | presentNDeassert
  /-- WITHDRAWAL_IDLE (R494): From T(k+2) a withdrawn unit holds its lanes idle and enters Reset.
  -/
  | withdrawalIdle
  /-- STREAM_ACK (R505): SHP message: the host acknowledges stream bytes and grants a window. -/
  | streamAck (s : Fin 4) (ack : Nat) (win : Nat)
  /-- STREAM_DATAGRAM (R504): The device sends a stream datagram when data and window allow. -/
  | streamDatagram
  /-- STREAM_RESEND (R505): When ack has not advanced for rtx_us the device sends again from ack.
  -/
  | streamResend
  /-- STREAM_STALL (R505): No accepted STREAM_ACK for stall_ms stops sending. -/
  | streamStall
  /-- VN_CNT_CLR (R517): VN_CTRL.cnt_clr clears the stream counters and fill_max. -/
  | vnCntClr
  /-- VN_OFS_LO_READ (R628): A read of VN_OFS_LO or VN_ACK_LO latches the upper word for that
  master. -/
  | vnOfsLoRead (m : Master) (ack : Bool)
  /-- SK_ARM (R516): SK_CTRL.arm arms a trace unit, or is rejected. -/
  | skArm (u : Fin 8)
  /-- SK_DISARM (R513): SK_CTRL.disarm takes a trace unit to IDLE. -/
  | skDisarm (u : Fin 8)
  /-- SK_FORCE (R514): SK_CTRL.force triggers the unit at its next row. -/
  | skForce (u : Fin 8)
  /-- SK_RD_DATA_READ (R510): A read of SK_RD_DATA returns a sample and increments SK_RD_ADDR. -/
  | skRdDataRead (m : Master)
  /-- SCRUB_ACCESS (R525): The scrubber reads 32 bytes, correcting and logging errors. -/
  | scrubAccess
  /-- ERROR_LOG_COMMIT (R530): A queued error-log entry is written to MRAM. -/
  | errorLogCommit
  /-- ECC_INJ_CTRL_WRITE (R533): A write to ECC_INJ_CTRL arms an error injection in Service. -/
  | eccInjCtrlWrite (v : Word)
  /-- ECC_RET_WRITE (R531): A write to ECC_RET names a retired page, or is rejected. -/
  | eccRetWrite (i : Fin 64) (v : Word)
  /-- ECC_CNT_CLR (R534): ECC_CTRL.cnt_clr clears ECC_CNT and the lost count. -/
  | eccCntClr
  /-- HOST_FRAME_RX (R536): A host-port frame or datagram is accepted or discarded. -/
  | hostFrameRx (f : HostFrame)
  /-- ARP_REQUEST (R535): The device answers an ARP request for HP_ADDR. -/
  | arpRequest (target : Word)
  /-- HELLO (R543): SHP message: opens a session handshake and is answered with CHALLENGE. -/
  | hello (slot kind : Nat) (nonce : List Byte) (src : Word) (port : BitVec 16)
  /-- AUTH (R543): SHP message: authenticates the session, answered with AUTH_OK, or counted as
  failure. -/
  | auth (sid : Word) (seq : Nat) (hostNonce devNonce tag : List Byte)
  /-- CLOSE (R543): SHP message: closes the session. -/
  | close (s : Fin 4)
  /-- PING (R539): SHP message: keeps the session alive. -/
  | ping (s : Fin 4)
  /-- READ (R547): SHP message: reads up to 256 words at one instant. -/
  | read (s : Fin 4) (req : Word) (ranges : List (Word × Nat))
  /-- WRITE (R549): SHP message: evaluates guards and applies up to 64 masked writes as one
  class-5 event. -/
  | write (s : Fin 4) (req : Word) (entries : List WEntry)
  /-- STORE (R556): SHP command: writes every RWS field and the retirement list to the other
  settings bank. -/
  | store (s : Fin 4) (req : Word)
  /-- STORE_COMPLETE (R556): A STORE finishes its verification and header write, or fails. -/
  | storeComplete (ok : Bool)
  /-- COMMIT_LC (R560): SHP command: stores changed limited-change settings with change-log
  entries. -/
  | commitLc (s : Fin 4) (req : Word)
  /-- DISCARD_LC (R551): SHP command: discards the staged limited-change values. -/
  | discardLc (s : Fin 4) (req : Word)
  /-- PROVISION (R562): SHP command: unwraps and stages a key for a slot. -/
  | provision (s : Fin 4) (req : Word) (slot : Fin 8) (priv : Fin 4) (wrapped : List Byte)
  /-- CHALLENGE_TIMEOUT (R543): A CHALLENGE without valid AUTH lapses after 1 s. -/
  | challengeTimeout (sid : Word)
  /-- SESSION_IDLE_TIMEOUT (R543): A session closes after idle_s seconds without a valid message.
  -/
  | sessionIdleTimeout (s : Fin 4)
  /-- TAMPER_TRIP (R563): TAMPER_N low for 10 µs sets the tamper latch and trips security class 0.
  -/
  | tamperTrip
  /-- VBAT_BROWNOUT (R615): VBAT below 1.6 V sets the tamper latch. -/
  | vbatBrownout
  /-- VOLTAGE_TRIP (R605): A supply outside its window for 2 µs trips security class 1. -/
  | voltageTrip
  /-- TEMPERATURE_TRIP (R606): A junction temperature above 125 °C for 1 ms trips security class
  2. -/
  | temperatureTrip
  /-- CLOCK_TRIP (R607): REFCLK out of limits or stopped trips security class 3. -/
  | clockTrip
  /-- SEC_ERASE (R565): SEC_CTRL.erase erases the keys now. -/
  | secErase (s : Fin 4)
  /-- SEC_TAMP_CLR (R566): SEC_CTRL.tamp_clr clears the tamper latch. -/
  | secTampClr (s : Fin 4)
  /-- RESET_ASSERT (R570): RST_N or PGOOD low takes the device into Reset. -/
  | resetAssert
  /-- RESET_RELEASE (R570): After the release levels are held for 10 ms the device leaves Reset
  and enters Self-test. -/
  | resetRelease (roleB powerUp orderOk : Bool)
  /-- SELF_TEST_DONE (R571): Self-test completes and the device enters Load, or halts on a
  failure. -/
  | selfTestDone (r : SelfTest)
  /-- LOAD_DONE (R576): The image is read, verified, applied and checked, and the device enters
  Listen or halts. -/
  | loadDone (img : LoadImage)
  /-- GO_RUN (R581): Mode command: Ready to Run. -/
  | goRun (s : Fin 4) (req : Word)
  /-- GO_HOLD (R586): Mode command: Run to Hold. -/
  | goHold (s : Fin 4) (req : Word)
  /-- GO_RESUME (R586): Mode command: Hold to Run. -/
  | goResume (s : Fin 4) (req : Word)
  /-- GO_READY (R584): Mode command: Run or Hold to Ready when every axis is off. -/
  | goReady (s : Fin 4) (req : Word)
  /-- GO_STOP (R585): Mode command: Run or Hold to Stop. -/
  | goStop (s : Fin 4) (req : Word)
  /-- GO_SERVICE (R587): Mode command: Ready to Service. -/
  | goService (s : Fin 4) (req : Word)
  /-- SVC_EXIT (R587): Mode command: Service to Ready after the checks. -/
  | svcExit (s : Fin 4) (req : Word)
  /-- RESTART (R588): Mode command: Service to Listen with a fresh listen time after the checks.
  -/
  | restart (s : Fin 4) (req : Word)
  /-- ALARM_EXIT (R591): Mode command: Alarm to Ready when its conditions hold. -/
  | alarmExit (s : Fin 4) (req : Word)
  /-- RESET (R583): Mode command: takes the device through Reset to a fresh start. -/
  | reset (s : Fin 4) (req : Word)
  /-- STOP_COMPLETE (R585): The device leaves Stop for Ready once every axis is off and no SS1
  monitoring runs. -/
  | stopComplete
  /-- DEV_CNT_CLR (R595): DEV_CTRL.cnt_clr clears DEV_CNT. -/
  | devCntClr
  /-- REGISTER_WRITE (R5): A write to a register without a row of its own is accepted by its
  access code, mode and range, or rejected. -/
  | registerWrite (by_ : Actor) (addr : Word) (v mask : Word)
  /-- STATION_CST_RX (R121): A station accepts a CST frame, takes its time from it and enters
  COARSE, or switches to follow unit A. -/
  | stationCstRx (st : Fin 256) (side : Fin 2) (f : CstFrame) (ingressNs : Nat)
  /-- EXT_TICK_COLD_START_TIMEOUT (R39): When no TICK edge arrives within 10 ms of the end of the
  listen time, the head cold-starts on REFCLK and sets ext_lost. -/
  | extTickColdStartTimeout
  /-- HOST_BLOCK_LOCK_LOSS (R535): The host port loses PCS block lock, sets HP_EVT.link_loss and
  clears HP_STAT.link. -/
  | hostBlockLockLoss
  /-- HOST_BLOCK_LOCK_GAIN (R535): The host port gains PCS block lock and sets HP_STAT.link. -/
  | hostBlockLockGain
  /-- COMMIT_LC_COMPLETE (R560): A COMMIT_LC finishes verifying and writing the new limited-change
  bank header, sets NV_EVT.commit and sends its response, or fails. -/
  | commitLcComplete (ok : Bool)
  /-- RESYNC_PASS_END (R472): The active unit finds no dirty page left, sends the last RSYNC frame
  and CTRL RESYNC_DONE, and enters tstate SYNCED. -/
  | resyncPassEnd
  /-- TW_FRAME_DISCARD (R466): A twin-link frame with a failed CRC or a reserved type is discarded
  and counted in TW_LINK. -/
  | twFrameDiscard (reserved : Bool)
  /-- SAFETY_DIAGNOSTIC_TEST (R451): A diagnostic test of a safety channel completes, and a
  failure is a device fault with lo_cause 2. -/
  | safetyDiagnosticTest (pass : Bool)
  /-- SAFE_READBACK_CHANGE (R440): SFB_HS or SFB_LS changes level, starting or ending the rb_us
  read-back comparison. -/
  | safeReadbackChange (hs level : Bool)
  /-- DEBUG_PORT_ACCESS (R617): An access on DCK and DIO is answered, with identification reads
  only once key slot 0 is provisioned. -/
  | debugPortAccess (idRead : Bool)
  /-- STATION_POWER_UP (R114): A station powers up or resets its network interface, enters FORWARD
  and forwards frames without a time. -/
  | stationPowerUp (st : Fin 256) (kept : Bool) (ident : List Word)
  /-- CONFIGURATION_LOST (R629): An integrated station loses a committed configuration, clears
  that mode's bit and latches alarm 0x0A. -/
  | configurationLost (st : Fin 256) (mode : Fin 16)
  /-- RESERVED_OPCODE (R249): A Brush engine decodes a reserved opcode and ends the job with job
  fault code 1. -/
  | reservedOpcode (e : Fin 4) (op : BitVec 6)
  deriving DecidableEq, Repr

end Sys2Proof
end

