-- ==== Sys2Proof/Config.lean ====
section
/-! DEFINITION. What an implementation fixes, and the free values: constants without a body, so that
no proof can see what they are. -/

namespace Sys2Proof.Config

/-- The serial number in one-time-programmable memory (DEV_SERIAL). -/
opaque serial : Word

/-- The device bootstrap key in one-time-programmable memory, 32 bytes (R565). -/
opaque bootKey : List Byte

/-- The free values: what the spec leaves open where the machine goes on (a fresh random number, a
maker-defined word), one for each count of `Dev.free` or of a station's own count. DESIGN CHOICE, log entry 5. -/
opaque freeValue : Nat → BitVec 128

/-- A maker-defined diagnostic word of a station, by address, index and the station's count
(R154). DESIGN CHOICE, log entry 5. -/
opaque diagWord : Nat → Nat → Nat → Word

/-- The value an operation gives where the spec states no result, by the rule concerned and the
operands. DESIGN CHOICE, log entry 5. -/
opaque openValue : Nat → List Int → Int

/-- sine of an angle given in turns. DESIGN CHOICE, log entry 6. -/
opaque sin : Rat → Rat

/-- cosine of an angle given in turns. DESIGN CHOICE, log entry 6. -/
opaque cos : Rat → Rat

/-- arc tangent of y over x, in turns, from 0 inclusive to 1 exclusive. DESIGN CHOICE, log entry 6. -/
opaque atan2 : Rat → Rat → Rat

/-- The ratio of a circle's circumference to its diameter. DESIGN CHOICE, log entry 6. -/
opaque pi : Rat

/-- The square root of a non-negative number. DESIGN CHOICE, log entry 6. -/
opaque sqrt : Rat → Rat

/-- The natural exponential. DESIGN CHOICE, log entry 6. -/
opaque exp : Rat → Rat

end Sys2Proof.Config
end

