-- ==== Sys2Proof/Machine/Fields.lean ====
section
/-! DEFINITION. The address of every register and the place of every field, under the names the
chapters give them: `R.<register>.adr` and `R.<register>.<field>`. -/

namespace Sys2Proof.Machine

/-- A field of one register: the register's address and the field's bits. -/
structure Fld where
  /-- Address of the register. -/
  adr : Nat
  /-- Highest bit. -/
  hi : Nat
  /-- Lowest bit. -/
  lo : Nat
  deriving DecidableEq, Repr

/-- The width of a field in bits. -/
def Fld.width (f : Fld) : Nat := f.hi + 1 - f.lo

/-- Address of TIM_CFG (chapter 02). -/
def R.TIM_CFG.adr : Nat := 0x1000
/-- TIM_CFG [2] tick_out_en: 1: TICK pulse output enabled when tick_in is 0. Writes in every mode,
taking effect from the next tick instant (R31) -/
def R.TIM_CFG.tick_out_en : Fld := ⟨R.TIM_CFG.adr, 2, 2⟩
/-- TIM_CFG [1] tick_in: 0: TICK is an output; 1: TICK is an external tick input. Writes as R31 -/
def R.TIM_CFG.tick_in : Fld := ⟨R.TIM_CFG.adr, 1, 1⟩
/-- TIM_CFG [0] forerunner: 0: native mode; 1: forerunner time mode. Writes as R31 -/
def R.TIM_CFG.forerunner : Fld := ⟨R.TIM_CFG.adr, 0, 0⟩
/-- Address of TIM_TICK (chapter 02). -/
def R.TIM_TICK.adr : Nat := 0x1004
/-- TIM_TICK [17:0] tick_ns: Tick period in ns, 15,625–250,000 (31,250 at reset). Writes as R31 -/
def R.TIM_TICK.tick_ns : Fld := ⟨R.TIM_TICK.adr, 17, 0⟩
/-- Address of TIM_TX_OFS (chapter 02). -/
def R.TIM_TX_OFS.adr : Nat := 0x1008
/-- TIM_TX_OFS [15:0] tx_ofs_ns: Frame send offset in ns (2,000 at reset), subject to R20 -/
def R.TIM_TX_OFS.tx_ofs_ns : Fld := ⟨R.TIM_TX_OFS.adr, 15, 0⟩
/-- Address of TIM_STAT (chapter 02). -/
def R.TIM_STAT.adr : Nat := 0x100C
/-- TIM_STAT [8] holdover: 1: forerunner mode and this head runs with no leading domain in view -/
def R.TIM_STAT.holdover : Fld := ⟨R.TIM_STAT.adr, 8, 8⟩
/-- TIM_STAT [7] other_dom: 1: the partner's domain is received in the present tick -/
def R.TIM_STAT.other_dom : Fld := ⟨R.TIM_STAT.adr, 7, 7⟩
/-- TIM_STAT [6] leader: Unit ID of the leading head -/
def R.TIM_STAT.leader : Fld := ⟨R.TIM_STAT.adr, 6, 6⟩
/-- TIM_STAT [5] tick_mis: Set by R33 -/
def R.TIM_STAT.tick_mis : Fld := ⟨R.TIM_STAT.adr, 5, 5⟩
/-- TIM_STAT [4] dom_tol: Set by R47 -/
def R.TIM_STAT.dom_tol : Fld := ⟨R.TIM_STAT.adr, 4, 4⟩
/-- TIM_STAT [3] cfg_rej: Set by R31 -/
def R.TIM_STAT.cfg_rej : Fld := ⟨R.TIM_STAT.adr, 3, 3⟩
/-- TIM_STAT [2] ext_lost: Set and cleared by R38 and R39 -/
def R.TIM_STAT.ext_lost : Fld := ⟨R.TIM_STAT.adr, 2, 2⟩
/-- TIM_STAT [1] ext_lock: 1: external tick followed -/
def R.TIM_STAT.ext_lock : Fld := ⟨R.TIM_STAT.adr, 1, 1⟩
/-- TIM_STAT [0] leads: 1: this head is the leading head -/
def R.TIM_STAT.leads : Fld := ⟨R.TIM_STAT.adr, 0, 0⟩
/-- Address of TIM_NOW_LO (chapter 02). -/
def R.TIM_NOW_LO.adr : Nat := 0x1010
/-- TIM_NOW_LO [31:0] now: LO: network time [31:0], latches [63:32]. HI: latched network time
[63:32] (R40) -/
def R.TIM_NOW_LO.now : Fld := ⟨R.TIM_NOW_LO.adr, 31, 0⟩
/-- Address of TIM_NOW_HI (chapter 02). -/
def R.TIM_NOW_HI.adr : Nat := 0x1014
/-- TIM_NOW_HI [31:0] now: LO: network time [31:0], latches [63:32]. HI: latched network time
[63:32] (R40) -/
def R.TIM_NOW_HI.now : Fld := ⟨R.TIM_NOW_HI.adr, 31, 0⟩
/-- Address of TIM_EPOCH_LO (chapter 02). -/
def R.TIM_EPOCH_LO.adr : Nat := 0x1018
/-- TIM_EPOCH_LO [31:0] epoch: LO: offset [31:0], buffered. HI: offset [63:32]; the write commits
both words (R42). Signed ns -/
def R.TIM_EPOCH_LO.epoch : Fld := ⟨R.TIM_EPOCH_LO.adr, 31, 0⟩
/-- Address of TIM_EPOCH_HI (chapter 02). -/
def R.TIM_EPOCH_HI.adr : Nat := 0x101C
/-- TIM_EPOCH_HI [31:0] epoch: LO: offset [31:0], buffered. HI: offset [63:32]; the write commits
both words (R42). Signed ns -/
def R.TIM_EPOCH_HI.epoch : Fld := ⟨R.TIM_EPOCH_HI.adr, 31, 0⟩
/-- Address of TIM_TICK_CNT (chapter 02). -/
def R.TIM_TICK_CNT.adr : Nat := 0x1020
/-- TIM_TICK_CNT [31:0] tick_cnt: Low 32 bits of n for the present tick, from 0 at T(0) -/
def R.TIM_TICK_CNT.tick_cnt : Fld := ⟨R.TIM_TICK_CNT.adr, 31, 0⟩
/-- Address of TIM_TICK_OUT (chapter 02). -/
def R.TIM_TICK_OUT.adr : Nat := 0x1024
/-- TIM_TICK_OUT [31:16] ofs_ns: Pulse start relative to T(n), signed ns, −32,768 to +32,767 -/
def R.TIM_TICK_OUT.ofs_ns : Fld := ⟨R.TIM_TICK_OUT.adr, 31, 16⟩
/-- TIM_TICK_OUT [15:0] width_ns: Pulse width in ns (1,000 at reset), limited to TIM_TICK / 2 -/
def R.TIM_TICK_OUT.width_ns : Fld := ⟨R.TIM_TICK_OUT.adr, 15, 0⟩
/-- Address of TIM_EXT (chapter 02). -/
def R.TIM_EXT.adr : Nat := 0x1028
/-- TIM_EXT [23:16] miss_cnt: Consecutive ticks without an accepted edge, saturates at 255 -/
def R.TIM_EXT.miss_cnt : Fld := ⟨R.TIM_EXT.adr, 23, 16⟩
/-- TIM_EXT [15:0] win_ns: Acceptance half-window in ns (500 at reset), 20–10,000 -/
def R.TIM_EXT.win_ns : Fld := ⟨R.TIM_EXT.adr, 15, 0⟩
/-- Address of TIM_DOM (chapter 02). -/
def R.TIM_DOM.adr : Nat := 0x102C
/-- TIM_DOM [31:16] dom_tol_ns: Domain offset tolerance in ns (50 at reset) -/
def R.TIM_DOM.dom_tol_ns : Fld := ⟨R.TIM_DOM.adr, 31, 16⟩
/-- TIM_DOM [15:0] dom_ofs: This head's domain minus the leading domain, signed ns; 0 on the
leading head -/
def R.TIM_DOM.dom_ofs : Fld := ⟨R.TIM_DOM.adr, 15, 0⟩
/-- Address of TIM_SLEW (chapter 02). -/
def R.TIM_SLEW.adr : Nat := 0x1030
/-- TIM_SLEW [31:16] slew_lim_ns: Largest offset removed by slewing, ns (1,000 at reset) -/
def R.TIM_SLEW.slew_lim_ns : Fld := ⟨R.TIM_SLEW.adr, 31, 16⟩
/-- TIM_SLEW [6:0] slew_ppm: Slew rate in ppm, 1–100 (50 at reset) -/
def R.TIM_SLEW.slew_ppm : Fld := ⟨R.TIM_SLEW.adr, 6, 0⟩
/-- Address of TIM_EVT_LAST (chapter 02). -/
def R.TIM_EVT_LAST.adr : Nat := 0x1034
/-- TIM_EVT_LAST [31:16] coinc_cnt: Ticks in which events of two or more classes coincided,
saturates at 65,535 -/
def R.TIM_EVT_LAST.coinc_cnt : Fld := ⟨R.TIM_EVT_LAST.adr, 31, 16⟩
/-- TIM_EVT_LAST [5:0] cls: Bit c set: at least one class-c event in the last completed tick -/
def R.TIM_EVT_LAST.cls : Fld := ⟨R.TIM_EVT_LAST.adr, 5, 0⟩
/-- Address of TIM_PORT (chapter 02). -/
def R.TIM_PORT.adr (i : Nat) : Nat := 0x1040 + 0x4 * i
/-- TIM_PORT [31:16] egr_ps: Egress constant in ps (3,200 at reset), UQ16.0 -/
def R.TIM_PORT.egr_ps (i : Nat) : Fld := ⟨R.TIM_PORT.adr i, 31, 16⟩
/-- TIM_PORT [15:0] ing_ps: Ingress constant in ps (4,800 at reset), UQ16.0 -/
def R.TIM_PORT.ing_ps (i : Nat) : Fld := ⟨R.TIM_PORT.adr i, 15, 0⟩
/-- Address of TIM_LINK (chapter 02). -/
def R.TIM_LINK.adr (i : Nat) (j : Nat) : Nat := 0x1400 + 0x100 * i + 0x4 * j
/-- TIM_LINK [31:16] asym_ps: Delay away from unit A minus delay toward unit A, signed ps -/
def R.TIM_LINK.asym_ps (i : Nat) (j : Nat) : Fld := ⟨R.TIM_LINK.adr i j, 31, 16⟩
/-- TIM_LINK [15:0] dly: Held forward delay d_fwd, ns, UQ11.5, truncated; 0 for an absent link -/
def R.TIM_LINK.dly (i : Nat) (j : Nat) : Fld := ⟨R.TIM_LINK.adr i j, 15, 0⟩
/-- Address of ML_CFG (chapter 03). -/
def R.ML_CFG.adr (i : Nat) : Nat := 0x2000 + 0x100 * i
/-- ML_CFG [8] media: 0: twinax; 1: optical modules (R69) -/
def R.ML_CFG.media (i : Nat) : Fld := ⟨R.ML_CFG.adr i, 8, 8⟩
/-- ML_CFG [2] relay_en: 1: feedback relay permitted (R95) -/
def R.ML_CFG.relay_en (i : Nat) : Fld := ⟨R.ML_CFG.adr i, 2, 2⟩
/-- ML_CFG [1] open_end: 1: open-end mode (R94) -/
def R.ML_CFG.open_end (i : Nat) : Fld := ⟨R.ML_CFG.adr i, 1, 1⟩
/-- ML_CFG [0] en: 1: line enabled -/
def R.ML_CFG.en (i : Nat) : Fld := ⟨R.ML_CFG.adr i, 0, 0⟩
/-- Address of ML_CTRL (chapter 03). -/
def R.ML_CTRL.adr (i : Nat) : Nat := 0x2004 + 0x100 * i
/-- ML_CTRL [1] rx_reopen: 1: re-open an isolated receiver (R109) -/
def R.ML_CTRL.rx_reopen (i : Nat) : Fld := ⟨R.ML_CTRL.adr i, 1, 1⟩
/-- ML_CTRL [0] cnt_clr: 1: clear ML_CNT[0]–ML_CNT[15] -/
def R.ML_CTRL.cnt_clr (i : Nat) : Fld := ⟨R.ML_CTRL.adr i, 0, 0⟩
/-- Address of ML_STAT (chapter 03). -/
def R.ML_STAT.adr (i : Nat) : Nat := 0x2008 + 0x100 * i
/-- ML_STAT [23:16] live: Stations with valid feedback in the last completed tick -/
def R.ML_STAT.live (i : Nat) : Fld := ⟨R.ML_STAT.adr i, 23, 16⟩
/-- ML_STAT [13:8] fold_pos: Position of the station folding this head's frame; 0 for none -/
def R.ML_STAT.fold_pos (i : Nat) : Fld := ⟨R.ML_STAT.adr i, 13, 8⟩
/-- ML_STAT [5] relay: 1: feedback relay running for this line -/
def R.ML_STAT.relay (i : Nat) : Fld := ⟨R.ML_STAT.adr i, 5, 5⟩
/-- ML_STAT [4] isolated: 1: receiver cut (R108) -/
def R.ML_STAT.isolated (i : Nat) : Fld := ⟨R.ML_STAT.adr i, 4, 4⟩
/-- ML_STAT [3] folded: 1: this head's frame returned folded in the last tick -/
def R.ML_STAT.folded (i : Nat) : Fld := ⟨R.ML_STAT.adr i, 3, 3⟩
/-- ML_STAT [2] partner: 1: the partner's CYC frame was accepted in the last tick -/
def R.ML_STAT.partner (i : Nat) : Fld := ⟨R.ML_STAT.adr i, 2, 2⟩
/-- ML_STAT [1] nbr: 1: the neighbour on the port is live (R92) -/
def R.ML_STAT.nbr (i : Nat) : Fld := ⟨R.ML_STAT.adr i, 1, 1⟩
/-- ML_STAT [0] link: 1: the port has link (R68) -/
def R.ML_STAT.link (i : Nat) : Fld := ⟨R.ML_STAT.adr i, 0, 0⟩
/-- Address of ML_EVT (chapter 03). -/
def R.ML_EVT.adr (i : Nat) : Nat := 0x200C + 0x100 * i
/-- ML_EVT [8] sync_loss: The port lost link -/
def R.ML_EVT.sync_loss (i : Nat) : Fld := ⟨R.ML_EVT.adr i, 8, 8⟩
/-- ML_EVT [7] cfg_rej: A write was rejected (R109, R112) -/
def R.ML_EVT.cfg_rej (i : Nat) : Fld := ⟨R.ML_EVT.adr i, 7, 7⟩
/-- ML_EVT [6] slot_dis: A station's windows were disabled (R107) -/
def R.ML_EVT.slot_dis (i : Nat) : Fld := ⟨R.ML_EVT.adr i, 6, 6⟩
/-- ML_EVT [5] late: A valid segment arrived after EZ_DEADLINE -/
def R.ML_EVT.late (i : Nat) : Fld := ⟨R.ML_EVT.adr i, 5, 5⟩
/-- ML_EVT [4] crc: A frame or segment CRC failed -/
def R.ML_EVT.crc (i : Nat) : Fld := ⟨R.ML_EVT.adr i, 4, 4⟩
/-- ML_EVT [3] edge: A transmission was accepted with EDGE -/
def R.ML_EVT.edge (i : Nat) : Fld := ⟨R.ML_EVT.adr i, 3, 3⟩
/-- ML_EVT [2] babble: A babble was counted -/
def R.ML_EVT.babble (i : Nat) : Fld := ⟨R.ML_EVT.adr i, 2, 2⟩
/-- ML_EVT [1] fold_chg: fold_pos changed -/
def R.ML_EVT.fold_chg (i : Nat) : Fld := ⟨R.ML_EVT.adr i, 1, 1⟩
/-- ML_EVT [0] isolated: The receiver was cut -/
def R.ML_EVT.isolated (i : Nat) : Fld := ⟨R.ML_EVT.adr i, 0, 0⟩
/-- Address of ML_APPLY_OFS (chapter 03). -/
def R.ML_APPLY_OFS.adr (i : Nat) : Nat := 0x2010 + 0x100 * i
/-- ML_APPLY_OFS [17:0] apply_ofs_ns: Apply offset in ns (14,000 at reset); subject to R20 and
R21. Both units carry a write that belongs to tick n in the head segment from the frame … -/
def R.ML_APPLY_OFS.apply_ofs_ns (i : Nat) : Fld := ⟨R.ML_APPLY_OFS.adr i, 17, 0⟩
/-- Address of ML_GUARD (chapter 03). -/
def R.ML_GUARD.adr (i : Nat) : Nat := 0x2014 + 0x100 * i
/-- ML_GUARD [10:0] guard_ns: Guard band in ns, 40–2,000 (200 at reset); takes effect at the next
tick and is checked by R101 -/
def R.ML_GUARD.guard_ns (i : Nat) : Fld := ⟨R.ML_GUARD.adr i, 10, 0⟩
/-- Address of ML_BAB_CFG (chapter 03). -/
def R.ML_BAB_CFG.adr (i : Nat) : Nat := 0x2018 + 0x100 * i
/-- ML_BAB_CFG [15:8] line_lim: Babbles that isolate the line, 1–255 -/
def R.ML_BAB_CFG.line_lim (i : Nat) : Fld := ⟨R.ML_BAB_CFG.adr i, 15, 8⟩
/-- ML_BAB_CFG [7:0] line_win: Window in ticks, 1–255 (32 at reset) -/
def R.ML_BAB_CFG.line_win (i : Nat) : Fld := ⟨R.ML_BAB_CFG.adr i, 7, 0⟩
/-- Address of ML_BCN (chapter 03). -/
def R.ML_BCN.adr (i : Nat) : Nat := 0x201C + 0x100 * i
/-- ML_BCN [17:0] bcn_ofs: Beacon /S/ offset from T(n) in ns, from the schedule mode in force -/
def R.ML_BCN.bcn_ofs (i : Nat) : Fld := ⟨R.ML_BCN.adr i, 17, 0⟩
/-- Address of ML_ALM_OFS (chapter 03). -/
def R.ML_ALM_OFS.adr (i : Nat) : Nat := 0x2020 + 0x100 * i
/-- ML_ALM_OFS [17:0] ofs_ns: Offset of alarm slot 0 in ns -/
def R.ML_ALM_OFS.ofs_ns (i : Nat) : Fld := ⟨R.ML_ALM_OFS.adr i, 17, 0⟩
/-- Address of ML_ALM_PITCH (chapter 03). -/
def R.ML_ALM_PITCH.adr (i : Nat) : Nat := 0x2024 + 0x100 * i
/-- ML_ALM_PITCH [23:16] per_tick: Alarm slots per tick, 1–32 -/
def R.ML_ALM_PITCH.per_tick (i : Nat) : Fld := ⟨R.ML_ALM_PITCH.adr i, 23, 16⟩
/-- ML_ALM_PITCH [15:0] pitch_ns: Slot spacing in ns -/
def R.ML_ALM_PITCH.pitch_ns (i : Nat) : Fld := ⟨R.ML_ALM_PITCH.adr i, 15, 0⟩
/-- Address of ML_MBX_REQ (chapter 03). -/
def R.ML_MBX_REQ.adr (i : Nat) : Nat := 0x2028 + 0x100 * i
/-- ML_MBX_REQ [17:0] ofs_ns: REQ: request and DREQ offset; RSP: reply offset; ns -/
def R.ML_MBX_REQ.ofs_ns (i : Nat) : Fld := ⟨R.ML_MBX_REQ.adr i, 17, 0⟩
/-- Address of ML_MBX_RSP (chapter 03). -/
def R.ML_MBX_RSP.adr (i : Nat) : Nat := 0x202C + 0x100 * i
/-- ML_MBX_RSP [17:0] ofs_ns: REQ: request and DREQ offset; RSP: reply offset; ns -/
def R.ML_MBX_RSP.ofs_ns (i : Nat) : Fld := ⟨R.ML_MBX_RSP.adr i, 17, 0⟩
/-- Address of ML_FRAME (chapter 03). -/
def R.ML_FRAME.adr (i : Nat) : Nat := 0x2030 + 0x100 * i
/-- ML_FRAME [31:16] len: L of the CYC frame in bytes -/
def R.ML_FRAME.len (i : Nat) : Fld := ⟨R.ML_FRAME.adr i, 31, 16⟩
/-- ML_FRAME [15:8] segs: Segments, including the head segment -/
def R.ML_FRAME.segs (i : Nat) : Fld := ⟨R.ML_FRAME.adr i, 15, 8⟩
/-- ML_FRAME [3:0] sched: Schedule mode in force -/
def R.ML_FRAME.sched (i : Nat) : Fld := ⟨R.ML_FRAME.adr i, 3, 0⟩
/-- Address of ML_ARR (chapter 03). -/
def R.ML_ARR.adr (i : Nat) : Nat := 0x2034 + 0x100 * i
/-- ML_ARR [31:16] last_4ns: Arrival of the last valid feedback segment after T(n), in units of 4
ns -/
def R.ML_ARR.last_4ns (i : Nat) : Fld := ⟨R.ML_ARR.adr i, 31, 16⟩
/-- ML_ARR [15:0] first_4ns: Arrival of the first valid feedback segment after T(n), in units of 4
ns -/
def R.ML_ARR.first_4ns (i : Nat) : Fld := ⟨R.ML_ARR.adr i, 15, 0⟩
/-- Address of ML_CNT (chapter 03). -/
def R.ML_CNT.adr (i : Nat) (j : Nat) : Nat := 0x2040 + 0x100 * i + 0x4 * j
/-- ML_CNT [31:0] cnt: Event count as listed below; saturates at 0xFFFF_FFFF -/
def R.ML_CNT.cnt (i : Nat) (j : Nat) : Fld := ⟨R.ML_CNT.adr i j, 31, 0⟩
/-- Address of ML_NET_CFG (chapter 04). -/
def R.ML_NET_CFG.adr : Nat := 0x2800
/-- ML_NET_CFG [3:0] init_sched: Mode in force after cold start (R136); writes as R149 -/
def R.ML_NET_CFG.init_sched : Fld := ⟨R.ML_NET_CFG.adr, 3, 0⟩
/-- Address of ML_NET_STAT (chapter 04). -/
def R.ML_NET_STAT.adr : Nat := 0x2804
/-- ML_NET_STAT [23:16] integ: Stations on all lines that delivered valid feedback in the last
completed tick -/
def R.ML_NET_STAT.integ : Fld := ⟨R.ML_NET_STAT.adr, 23, 16⟩
/-- ML_NET_STAT [11] cfg_rej: A write was rejected (R149) -/
def R.ML_NET_STAT.cfg_rej : Fld := ⟨R.ML_NET_STAT.adr, 11, 11⟩
/-- ML_NET_STAT [10] fore_mis: A frame from the other head was refused in LISTEN because fore
differed -/
def R.ML_NET_STAT.fore_mis : Fld := ⟨R.ML_NET_STAT.adr, 10, 10⟩
/-- ML_NET_STAT [9] cs_timeout: Set by R117 -/
def R.ML_NET_STAT.cs_timeout : Fld := ⟨R.ML_NET_STAT.adr, 9, 9⟩
/-- ML_NET_STAT [8] cs_abort: Set by R117 -/
def R.ML_NET_STAT.cs_abort : Fld := ⟨R.ML_NET_STAT.adr, 8, 8⟩
/-- ML_NET_STAT [2:0] hstate: 0 LISTEN, 1 COLD_C, 2 COLD_D, 3 GATHER, 4 FOLLOW, 5 SYNCED -/
def R.ML_NET_STAT.hstate : Fld := ⟨R.ML_NET_STAT.adr, 2, 0⟩
/-- Address of ML_SCHED_CTRL (chapter 04). -/
def R.ML_SCHED_CTRL.adr : Nat := 0x2808
/-- ML_SCHED_CTRL [31] req: 1: request a change to tgt (R137) -/
def R.ML_SCHED_CTRL.req : Fld := ⟨R.ML_SCHED_CTRL.adr, 31, 31⟩
/-- ML_SCHED_CTRL [30] abort: 1: cancel the pending change before its decision (R141) -/
def R.ML_SCHED_CTRL.abort : Fld := ⟨R.ML_SCHED_CTRL.adr, 30, 30⟩
/-- ML_SCHED_CTRL [15:8] lead: Ticks from the announcement to the target tick. Any value 0–255 is
stored. A request made with a value below 10 is rejected by R138, which governs … -/
def R.ML_SCHED_CTRL.lead : Fld := ⟨R.ML_SCHED_CTRL.adr, 15, 8⟩
/-- ML_SCHED_CTRL [3:0] tgt: Target schedule mode -/
def R.ML_SCHED_CTRL.tgt : Fld := ⟨R.ML_SCHED_CTRL.adr, 3, 0⟩
/-- Address of ML_SCHED_STAT (chapter 04). -/
def R.ML_SCHED_STAT.adr : Nat := 0x280C
/-- ML_SCHED_STAT [31:24] nack_addr: Lowest address that did not acknowledge; 0 for none -/
def R.ML_SCHED_STAT.nack_addr : Fld := ⟨R.ML_SCHED_STAT.adr, 31, 24⟩
/-- ML_SCHED_STAT [23:16] nack_cnt: Live stations that did not acknowledge -/
def R.ML_SCHED_STAT.nack_cnt : Fld := ⟨R.ML_SCHED_STAT.adr, 23, 16⟩
/-- ML_SCHED_STAT [11:8] pend_tgt: Target of the pending or last change -/
def R.ML_SCHED_STAT.pend_tgt : Fld := ⟨R.ML_SCHED_STAT.adr, 11, 8⟩
/-- ML_SCHED_STAT [7:6] result: 0 none; 1 committed; 2 cancelled for lack of acknowledgement; 3
cancelled by abort -/
def R.ML_SCHED_STAT.result : Fld := ⟨R.ML_SCHED_STAT.adr, 7, 6⟩
/-- ML_SCHED_STAT [5] pend: 1: a change is pending -/
def R.ML_SCHED_STAT.pend : Fld := ⟨R.ML_SCHED_STAT.adr, 5, 5⟩
/-- ML_SCHED_STAT [4] rej: A request was rejected (R138) -/
def R.ML_SCHED_STAT.rej : Fld := ⟨R.ML_SCHED_STAT.adr, 4, 4⟩
/-- ML_SCHED_STAT [3:0] sched: Mode in force -/
def R.ML_SCHED_STAT.sched : Fld := ⟨R.ML_SCHED_STAT.adr, 3, 0⟩
/-- Address of ML_SCHED_TICK (chapter 04). -/
def R.ML_SCHED_TICK.adr : Nat := 0x2810
/-- ML_SCHED_TICK [31:0] tgt_tick: Low 32 bits of t of the pending or last change -/
def R.ML_SCHED_TICK.tgt_tick : Fld := ⟨R.ML_SCHED_TICK.adr, 31, 0⟩
/-- Address of ST_CFG (chapter 04). -/
def R.ST_CFG.adr (i : Nat) : Nat := 0x10000 + 0x40 * i
/-- ST_CFG [31:24] lost_lim: Age limit for station loss (R146) -/
def R.ST_CFG.lost_lim (i : Nat) : Fld := ⟨R.ST_CFG.adr i, 31, 24⟩
/-- ST_CFG [21:16] pos: Position from unit A's end, 1–32. A write of 0 is accepted and marks the
context unused, whatever its other fields (R136) -/
def R.ST_CFG.pos (i : Nat) : Fld := ⟨R.ST_CFG.adr i, 21, 16⟩
/-- ST_CFG [10:8] line: Line 0–7 -/
def R.ST_CFG.line (i : Nat) : Fld := ⟨R.ST_CFG.adr i, 10, 8⟩
/-- ST_CFG [2:0] ptype: Station type as in R76, 1–4. A write of 0 is accepted for a context that
is not in use. An image that lists a station whose context has ptype 0 is … -/
def R.ST_CFG.ptype (i : Nat) : Fld := ⟨R.ST_CFG.adr i, 2, 0⟩
/-- Address of ST_STATE (chapter 04). -/
def R.ST_STATE.adr (i : Nat) : Nat := 0x10004 + 0x40 * i
/-- ST_STATE [31:24] age: Mirror of the slot age (R111) -/
def R.ST_STATE.age (i : Nat) : Fld := ⟨R.ST_STATE.adr i, 31, 24⟩
/-- ST_STATE [19:16] ack_tgt: Target echoed in the last acknowledgement -/
def R.ST_STATE.ack_tgt (i : Nat) : Fld := ⟨R.ST_STATE.adr i, 19, 16⟩
/-- ST_STATE [15] ack: 1: the last feedback acknowledged the pending change -/
def R.ST_STATE.ack (i : Nat) : Fld := ⟨R.ST_STATE.adr i, 15, 15⟩
/-- ST_STATE [11] win_dis: 1: alarm and mailbox windows disabled -/
def R.ST_STATE.win_dis (i : Nat) : Fld := ⟨R.ST_STATE.adr i, 11, 11⟩
/-- ST_STATE [10] src: Unit whose command the station last applied -/
def R.ST_STATE.src (i : Nat) : Fld := ⟨R.ST_STATE.adr i, 10, 10⟩
/-- ST_STATE [9] relay: 1: last data came by relay -/
def R.ST_STATE.relay (i : Nat) : Fld := ⟨R.ST_STATE.adr i, 9, 9⟩
/-- ST_STATE [2:0] sstate: 0 unused, 1 absent, 2 live, 3 aged, 4 lost, 5 re-integrating -/
def R.ST_STATE.sstate (i : Nat) : Fld := ⟨R.ST_STATE.adr i, 2, 0⟩
/-- Address of ST_EVT (chapter 04). -/
def R.ST_EVT.adr (i : Nat) : Nat := 0x10008 + 0x40 * i
/-- ST_EVT [9] res_dev: Reported residence outside declared r ± 4 ns (R79) -/
def R.ST_EVT.res_dev (i : Nat) : Fld := ⟨R.ST_EVT.adr i, 9, 9⟩
/-- ST_EVT [8] sched_nack: Counted as not acknowledging (R141) -/
def R.ST_EVT.sched_nack (i : Nat) : Fld := ⟨R.ST_EVT.adr i, 8, 8⟩
/-- ST_EVT [7] step: Sync step reported (R52) -/
def R.ST_EVT.step (i : Nat) : Fld := ⟨R.ST_EVT.adr i, 7, 7⟩
/-- ST_EVT [6] sync_tol: Set by R125 -/
def R.ST_EVT.sync_tol (i : Nat) : Fld := ⟨R.ST_EVT.adr i, 6, 6⟩
/-- ST_EVT [5] reint: Re-integration ordered (R127) -/
def R.ST_EVT.reint (i : Nat) : Fld := ⟨R.ST_EVT.adr i, 5, 5⟩
/-- ST_EVT [4] slot_dis: Windows disabled (R107) -/
def R.ST_EVT.slot_dis (i : Nat) : Fld := ⟨R.ST_EVT.adr i, 4, 4⟩
/-- ST_EVT [3] babble: Babble attributed -/
def R.ST_EVT.babble (i : Nat) : Fld := ⟨R.ST_EVT.adr i, 3, 3⟩
/-- ST_EVT [2] edge: EDGE acceptance -/
def R.ST_EVT.edge (i : Nat) : Fld := ⟨R.ST_EVT.adr i, 2, 2⟩
/-- ST_EVT [1] join: Station joined (R134, R135) -/
def R.ST_EVT.join (i : Nat) : Fld := ⟨R.ST_EVT.adr i, 1, 1⟩
/-- ST_EVT [0] loss: Station lost (R146) -/
def R.ST_EVT.loss (i : Nat) : Fld := ⟨R.ST_EVT.adr i, 0, 0⟩
/-- Address of ST_SYNC (chapter 04). -/
def R.ST_SYNC.adr (i : Nat) : Nat := 0x1000C + 0x40 * i
/-- ST_SYNC [31:16] max_abs: Largest \|sync_err\| since the last cnt_clr, ns -/
def R.ST_SYNC.max_abs (i : Nat) : Fld := ⟨R.ST_SYNC.adr i, 31, 16⟩
/-- ST_SYNC [15:0] sync_err: Last reported sync_err, signed ns -/
def R.ST_SYNC.sync_err (i : Nat) : Fld := ⟨R.ST_SYNC.adr i, 15, 0⟩
/-- Address of ST_SYNC_CFG (chapter 04). -/
def R.ST_SYNC_CFG.adr (i : Nat) : Nat := 0x10010 + 0x40 * i
/-- ST_SYNC_CFG [31:24] pt_lim: Age limit of this station's points (R146) -/
def R.ST_SYNC_CFG.pt_lim (i : Nat) : Fld := ⟨R.ST_SYNC_CFG.adr i, 31, 24⟩
/-- ST_SYNC_CFG [11:0] sync_tol_ns: Sync tolerance in ns, 1–2,000 (40 at reset) -/
def R.ST_SYNC_CFG.sync_tol_ns (i : Nat) : Fld := ⟨R.ST_SYNC_CFG.adr i, 11, 0⟩
/-- Address of ST_IDENT (chapter 04). -/
def R.ST_IDENT.adr (i : Nat) : Nat := 0x10014 + 0x40 * i
/-- ST_IDENT [27:16] t_prep_ns: Declared t_prep, ns, 0–2,000 -/
def R.ST_IDENT.t_prep_ns (i : Nat) : Fld := ⟨R.ST_IDENT.adr i, 27, 16⟩
/-- ST_IDENT [15:8] r_ns: Declared residence r, ns, 0–150 -/
def R.ST_IDENT.r_ns (i : Nat) : Fld := ⟨R.ST_IDENT.adr i, 15, 8⟩
/-- ST_IDENT [7:4] nax: Axes served, 0–4 -/
def R.ST_IDENT.nax (i : Nat) : Fld := ⟨R.ST_IDENT.adr i, 7, 4⟩
/-- ST_IDENT [3:0] prof_rev: Station profile revision -/
def R.ST_IDENT.prof_rev (i : Nat) : Fld := ⟨R.ST_IDENT.adr i, 3, 0⟩
/-- Address of ST_MODES (chapter 04). -/
def R.ST_MODES.adr (i : Nat) : Nat := 0x10018 + 0x40 * i
/-- ST_MODES [15:0] modes: Bit m set: the station holds a configuration for mode m -/
def R.ST_MODES.modes (i : Nat) : Fld := ⟨R.ST_MODES.adr i, 15, 0⟩
/-- Address of ST_RES (chapter 04). -/
def R.ST_RES.adr (i : Nat) : Nat := 0x1001C + 0x40 * i
/-- ST_RES [31:16] res_max: Largest reported residence, ns, UQ14.2 -/
def R.ST_RES.res_max (i : Nat) : Fld := ⟨R.ST_RES.adr i, 31, 16⟩
/-- ST_RES [15:0] res_last: Last reported residence, ns, UQ14.2 -/
def R.ST_RES.res_last (i : Nat) : Fld := ⟨R.ST_RES.adr i, 15, 0⟩
/-- Address of ST_CNT_SEG (chapter 04). -/
def R.ST_CNT_SEG.adr (i : Nat) : Nat := 0x10020 + 0x40 * i
/-- ST_CNT_SEG [31:16] late: Valid segments arriving after EZ_DEADLINE -/
def R.ST_CNT_SEG.late (i : Nat) : Fld := ⟨R.ST_CNT_SEG.adr i, 31, 16⟩
/-- ST_CNT_SEG [15:0] bad: Segments failing R110 -/
def R.ST_CNT_SEG.bad (i : Nat) : Fld := ⟨R.ST_CNT_SEG.adr i, 15, 0⟩
/-- Address of ST_CNT_BAB (chapter 04). -/
def R.ST_CNT_BAB.adr (i : Nat) : Nat := 0x10024 + 0x40 * i
/-- ST_CNT_BAB [31:16] total: Babbles attributed -/
def R.ST_CNT_BAB.total (i : Nat) : Fld := ⟨R.ST_CNT_BAB.adr i, 31, 16⟩
/-- ST_CNT_BAB [1:0] consec: Babbles since the last accepted spontaneous transmission, 0–3 -/
def R.ST_CNT_BAB.consec (i : Nat) : Fld := ⟨R.ST_CNT_BAB.adr i, 1, 0⟩
/-- Address of ST_CNT_EDGE (chapter 04). -/
def R.ST_CNT_EDGE.adr (i : Nat) : Nat := 0x10028 + 0x40 * i
/-- ST_CNT_EDGE [31:0] edge: Transmissions accepted with EDGE -/
def R.ST_CNT_EDGE.edge (i : Nat) : Fld := ⟨R.ST_CNT_EDGE.adr i, 31, 0⟩
/-- Address of ST_CNT_DLY (chapter 04). -/
def R.ST_CNT_DLY.adr (i : Nat) : Nat := 0x1002C + 0x40 * i
/-- ST_CNT_DLY [31:16] held: Measurements held back (R57) -/
def R.ST_CNT_DLY.held (i : Nat) : Fld := ⟨R.ST_CNT_DLY.adr i, 31, 16⟩
/-- ST_CNT_DLY [15:0] taken: Measurements taken within 2 ns -/
def R.ST_CNT_DLY.taken (i : Nat) : Fld := ⟨R.ST_CNT_DLY.adr i, 15, 0⟩
/-- Address of ST_CNT_SYNC (chapter 04). -/
def R.ST_CNT_SYNC.adr (i : Nat) : Nat := 0x10030 + 0x40 * i
/-- ST_CNT_SYNC [31:16] reint: Re-integrations ordered -/
def R.ST_CNT_SYNC.reint (i : Nat) : Fld := ⟨R.ST_CNT_SYNC.adr i, 31, 16⟩
/-- ST_CNT_SYNC [15:0] step: Sync steps -/
def R.ST_CNT_SYNC.step (i : Nat) : Fld := ⟨R.ST_CNT_SYNC.adr i, 15, 0⟩
/-- Address of ST_CNT_CMD (chapter 04). -/
def R.ST_CNT_CMD.adr (i : Nat) : Nat := 0x10034 + 0x40 * i
/-- ST_CNT_CMD [31:16] stby: Ticks in which the station applied the standby's segment -/
def R.ST_CNT_CMD.stby (i : Nat) : Fld := ⟨R.ST_CNT_CMD.adr i, 31, 16⟩
/-- ST_CNT_CMD [15:0] miss: Feedback segments with cmd_miss = 1 -/
def R.ST_CNT_CMD.miss (i : Nat) : Fld := ⟨R.ST_CNT_CMD.adr i, 15, 0⟩
/-- Address of ST_CNT_AGE (chapter 04). -/
def R.ST_CNT_AGE.adr (i : Nat) : Nat := 0x10038 + 0x40 * i
/-- ST_CNT_AGE [31:16] loss: Station losses -/
def R.ST_CNT_AGE.loss (i : Nat) : Fld := ⟨R.ST_CNT_AGE.adr i, 31, 16⟩
/-- ST_CNT_AGE [15:0] aged: Ticks aged by R111 -/
def R.ST_CNT_AGE.aged (i : Nat) : Fld := ⟨R.ST_CNT_AGE.adr i, 15, 0⟩
/-- Address of ST_CTRL (chapter 04). -/
def R.ST_CTRL.adr (i : Nat) : Nat := 0x1003C + 0x40 * i
/-- ST_CTRL [2] win_en: 1: re-enable the alarm and mailbox windows (R130) -/
def R.ST_CTRL.win_en (i : Nat) : Fld := ⟨R.ST_CTRL.adr i, 2, 2⟩
/-- ST_CTRL [1] reint: 1: order re-integration (R127) -/
def R.ST_CTRL.reint (i : Nat) : Fld := ⟨R.ST_CTRL.adr i, 1, 1⟩
/-- ST_CTRL [0] cnt_clr: 1: clear ST_CNT_SEG to ST_CNT_AGE and ST_SYNC.max_abs -/
def R.ST_CTRL.cnt_clr (i : Nat) : Fld := ⟨R.ST_CTRL.adr i, 0, 0⟩
/-- Address of EZ_CFG (chapter 06). -/
def R.EZ_CFG.adr : Nat := 0x40000
/-- EZ_CFG [1] pre_en: 1: pre-emption of threads (R209) -/
def R.EZ_CFG.pre_en : Fld := ⟨R.EZ_CFG.adr, 1, 1⟩
/-- EZ_CFG [0] bad_sig: 1: a failed segment signals at once (R194) -/
def R.EZ_CFG.bad_sig : Fld := ⟨R.EZ_CFG.adr, 0, 0⟩
/-- Address of EZ_DEADLINE (chapter 06). -/
def R.EZ_DEADLINE.adr : Nat := 0x40004
/-- EZ_DEADLINE [17:0] deadline_ns: ns after T(n) (22,000 at reset); subject to R20, R21 and R215;
takes effect at the next tick -/
def R.EZ_DEADLINE.deadline_ns : Fld := ⟨R.EZ_DEADLINE.adr, 17, 0⟩
/-- Address of EZ_RELEASE (chapter 06). -/
def R.EZ_RELEASE.adr : Nat := 0x40008
/-- EZ_RELEASE [17:0] release_ns: ns after T(n) (12,000 at reset); subject to R215; takes effect
at the next tick -/
def R.EZ_RELEASE.release_ns : Fld := ⟨R.EZ_RELEASE.adr, 17, 0⟩
/-- Address of EZ_STAT (chapter 06). -/
def R.EZ_STAT.adr : Nat := 0x4000C
/-- EZ_STAT [31:24] inflight_max: Largest inflight since the last max_clr -/
def R.EZ_STAT.inflight_max : Fld := ⟨R.EZ_STAT.adr, 31, 24⟩
/-- EZ_STAT [23:16] inflight: Jobs dispatched and unfinished, 0–128 -/
def R.EZ_STAT.inflight : Fld := ⟨R.EZ_STAT.adr, 23, 16⟩
/-- EZ_STAT [0] spill: 1: the spill region holds entries -/
def R.EZ_STAT.spill : Fld := ⟨R.EZ_STAT.adr, 0, 0⟩
/-- Address of EZ_SPILL (chapter 06). -/
def R.EZ_SPILL.adr : Nat := 0x40010
/-- EZ_SPILL [31:16] spill_max: Largest spilled count since the last max_clr -/
def R.EZ_SPILL.spill_max : Fld := ⟨R.EZ_SPILL.adr, 31, 16⟩
/-- EZ_SPILL [15:0] spill_cnt: Spilled entries, 0–4,096 -/
def R.EZ_SPILL.spill_cnt : Fld := ⟨R.EZ_SPILL.adr, 15, 0⟩
/-- Address of EZ_EVT (chapter 06). -/
def R.EZ_EVT.adr : Nat := 0x40014
/-- EZ_EVT [5] cfg_rej: A write was rejected (R210, R215) -/
def R.EZ_EVT.cfg_rej : Fld := ⟨R.EZ_EVT.adr, 5, 5⟩
/-- EZ_EVT [4] underrun: Signal to a counter at 0 (R192) -/
def R.EZ_EVT.underrun : Fld := ⟨R.EZ_EVT.adr, 4, 4⟩
/-- EZ_EVT [3] ecc: A job was aborted by an uncorrectable ECC error -/
def R.EZ_EVT.ecc : Fld := ⟨R.EZ_EVT.adr, 3, 3⟩
/-- EZ_EVT [2] skipped: A job was discarded at EZ_DEADLINE (R200) -/
def R.EZ_EVT.skipped : Fld := ⟨R.EZ_EVT.adr, 2, 2⟩
/-- EZ_EVT [1] aborted: A running job was aborted at EZ_DEADLINE (R18) -/
def R.EZ_EVT.aborted : Fld := ⟨R.EZ_EVT.adr, 1, 1⟩
/-- EZ_EVT [0] released: A source signalled at EZ_RELEASE (R195) -/
def R.EZ_EVT.released : Fld := ⟨R.EZ_EVT.adr, 0, 0⟩
/-- Address of EZ_TICK_JOBS (chapter 06). -/
def R.EZ_TICK_JOBS.adr : Nat := 0x40018
/-- EZ_TICK_JOBS [31:24] skipped: Discarded jobs, saturating at 255 -/
def R.EZ_TICK_JOBS.skipped : Fld := ⟨R.EZ_TICK_JOBS.adr, 31, 24⟩
/-- EZ_TICK_JOBS [23:16] aborted: Jobs that ended with cause 2, 3 or 4 of R257: aborted at
EZ_DEADLINE, aborted by an uncorrectable ECC error, or ended by a job fault; saturating … -/
def R.EZ_TICK_JOBS.aborted : Fld := ⟨R.EZ_TICK_JOBS.adr, 23, 16⟩
/-- EZ_TICK_JOBS [15:0] done: Jobs completed, with cause 0 or 1 of R257 -/
def R.EZ_TICK_JOBS.done : Fld := ⟨R.EZ_TICK_JOBS.adr, 15, 0⟩
/-- Address of EZ_TICK_REL (chapter 06). -/
def R.EZ_TICK_REL.adr : Nat := 0x4001C
/-- EZ_TICK_REL [31:16] late_rel: Valid segments arriving after EZ_RELEASE (R195) -/
def R.EZ_TICK_REL.late_rel : Fld := ⟨R.EZ_TICK_REL.adr, 31, 16⟩
/-- EZ_TICK_REL [15:0] rel: Sources signalled at EZ_RELEASE -/
def R.EZ_TICK_REL.rel : Fld := ⟨R.EZ_TICK_REL.adr, 15, 0⟩
/-- Address of EZ_CTRL (chapter 06). -/
def R.EZ_CTRL.adr : Nat := 0x40020
/-- EZ_CTRL [1] hist_clr: 1: clear every EZ_HIST bin -/
def R.EZ_CTRL.hist_clr : Fld := ⟨R.EZ_CTRL.adr, 1, 1⟩
/-- EZ_CTRL [0] max_clr: 1: clear inflight_max, spill_max, depth_max and fin_max -/
def R.EZ_CTRL.max_clr : Fld := ⟨R.EZ_CTRL.adr, 0, 0⟩
/-- Address of EZ_SIG (chapter 06). -/
def R.EZ_SIG.adr : Nat := 0x40024
/-- EZ_SIG [11:0] cnt: Counter to signal (R210) -/
def R.EZ_SIG.cnt : Fld := ⟨R.EZ_SIG.adr, 11, 0⟩
/-- Address of EZ_ENG_CFG (chapter 06). -/
def R.EZ_ENG_CFG.adr (i : Nat) : Nat := 0x40100 + 0x20 * i
/-- EZ_ENG_CFG [5:0] q_depth: Brush local queue depth, 1–32 (R203); reserved and 0 for e = 4–6 -/
def R.EZ_ENG_CFG.q_depth (i : Nat) : Fld := ⟨R.EZ_ENG_CFG.adr i, 5, 0⟩
/-- Address of EZ_ENG_DEPTH (chapter 06). -/
def R.EZ_ENG_DEPTH.adr (i : Nat) : Nat := 0x40104 + 0x20 * i
/-- EZ_ENG_DEPTH [31:16] depth_max: Largest depth since the last max_clr -/
def R.EZ_ENG_DEPTH.depth_max (i : Nat) : Fld := ⟨R.EZ_ENG_DEPTH.adr i, 31, 16⟩
/-- EZ_ENG_DEPTH [15:0] depth: Ready entries on-chip and spilled, excluding the local queue -/
def R.EZ_ENG_DEPTH.depth (i : Nat) : Fld := ⟨R.EZ_ENG_DEPTH.adr i, 15, 0⟩
/-- Address of EZ_ENG_LOAD (chapter 06). -/
def R.EZ_ENG_LOAD.adr (i : Nat) : Nat := 0x40108 + 0x20 * i
/-- EZ_ENG_LOAD [31:16] load_32: Load over 32 ticks, UQ0.16 (R214) -/
def R.EZ_ENG_LOAD.load_32 (i : Nat) : Fld := ⟨R.EZ_ENG_LOAD.adr i, 31, 16⟩
/-- EZ_ENG_LOAD [15:0] load_1: Load over the last tick, UQ0.16 -/
def R.EZ_ENG_LOAD.load_1 (i : Nat) : Fld := ⟨R.EZ_ENG_LOAD.adr i, 15, 0⟩
/-- Address of EZ_ENG_LOAD1K (chapter 06). -/
def R.EZ_ENG_LOAD1K.adr (i : Nat) : Nat := 0x4010C + 0x20 * i
/-- EZ_ENG_LOAD1K [15:0] load_1k: Load over 1,024 ticks, UQ0.16 -/
def R.EZ_ENG_LOAD1K.load_1k (i : Nat) : Fld := ⟨R.EZ_ENG_LOAD1K.adr i, 15, 0⟩
/-- Address of EZ_ENG_FIN (chapter 06). -/
def R.EZ_ENG_FIN.adr (i : Nat) : Nat := 0x40110 + 0x20 * i
/-- EZ_ENG_FIN [31:16] fin_max_4ns: Largest fin_4ns since the last max_clr -/
def R.EZ_ENG_FIN.fin_max_4ns (i : Nat) : Fld := ⟨R.EZ_ENG_FIN.adr i, 31, 16⟩
/-- EZ_ENG_FIN [15:0] fin_4ns: End of the last job of the last completed tick after T(n), units of
4 ns; 0 for e = 4–6 -/
def R.EZ_ENG_FIN.fin_4ns (i : Nat) : Fld := ⟨R.EZ_ENG_FIN.adr i, 15, 0⟩
/-- Address of EZ_HIST (chapter 06). -/
def R.EZ_HIST.adr (i : Nat) (j : Nat) : Nat := 0x40400 + 0x40 * i + 0x4 * j
/-- EZ_HIST [31:0] cnt: Waits in bin b (R213), saturating at 0xFFFF_FFFF -/
def R.EZ_HIST.cnt (i : Nat) (j : Nat) : Fld := ⟨R.EZ_HIST.adr i j, 31, 0⟩
/-- Address of EZ_K_CMD (chapter 06). -/
def R.EZ_K_CMD.adr (i : Nat) : Nat := 0x40800 + 0x10 * i
/-- EZ_K_CMD [31:28] op: Operation, as R207; other values have no effect and set cfg_rej -/
def R.EZ_K_CMD.op (i : Nat) : Fld := ⟨R.EZ_K_CMD.adr i, 31, 28⟩
/-- EZ_K_CMD [11:0] idx: Thread or counter index -/
def R.EZ_K_CMD.idx (i : Nat) : Fld := ⟨R.EZ_K_CMD.adr i, 11, 0⟩
/-- Address of EZ_K_RES (chapter 06). -/
def R.EZ_K_RES.adr (i : Nat) : Nat := 0x40804 + 0x10 * i
/-- EZ_K_RES [31] none: 1: no thread was ready -/
def R.EZ_K_RES.none (i : Nat) : Fld := ⟨R.EZ_K_RES.adr i, 31, 31⟩
/-- EZ_K_RES [30] was_pre: 1: the thread resumes after pre-emption -/
def R.EZ_K_RES.was_pre (i : Nat) : Fld := ⟨R.EZ_K_RES.adr i, 30, 30⟩
/-- EZ_K_RES [14:10] prio: Priority of the thread taken -/
def R.EZ_K_RES.prio (i : Nat) : Fld := ⟨R.EZ_K_RES.adr i, 14, 10⟩
/-- EZ_K_RES [9:0] thr: Thread taken -/
def R.EZ_K_RES.thr (i : Nat) : Fld := ⟨R.EZ_K_RES.adr i, 9, 0⟩
/-- Address of EZ_TMR_OFS (chapter 06). -/
def R.EZ_TMR_OFS.adr (i : Nat) : Nat := 0x41000 + 0x8 * i
/-- EZ_TMR_OFS [31] en: 1: timer running -/
def R.EZ_TMR_OFS.en (i : Nat) : Fld := ⟨R.EZ_TMR_OFS.adr i, 31, 31⟩
/-- EZ_TMR_OFS [17:0] ofs_ns: ns after T(n), less than TIM_TICK -/
def R.EZ_TMR_OFS.ofs_ns (i : Nat) : Fld := ⟨R.EZ_TMR_OFS.adr i, 17, 0⟩
/-- Address of EZ_TMR_PER (chapter 06). -/
def R.EZ_TMR_PER.adr (i : Nat) : Nat := 0x41004 + 0x8 * i
/-- EZ_TMR_PER [31:16] phase: Phase in ticks, less than period -/
def R.EZ_TMR_PER.phase (i : Nat) : Fld := ⟨R.EZ_TMR_PER.adr i, 31, 16⟩
/-- EZ_TMR_PER [15:0] period: Period in ticks, 1–65,535 (R196) -/
def R.EZ_TMR_PER.period (i : Nat) : Fld := ⟨R.EZ_TMR_PER.adr i, 15, 0⟩
/-- Address of EZ_THR (chapter 06). -/
def R.EZ_THR.adr (i : Nat) : Nat := 0x42000 + 0x4 * i
/-- EZ_THR [31:29] state: 0 dormant, 1 waiting, 2 ready, 3 running, 4 pre-empted -/
def R.EZ_THR.state (i : Nat) : Fld := ⟨R.EZ_THR.adr i, 31, 29⟩
/-- EZ_THR [28:27] home: 0 AT0, 1 AT1, 2 supervisor, 3 unused -/
def R.EZ_THR.home (i : Nat) : Fld := ⟨R.EZ_THR.adr i, 28, 27⟩
/-- EZ_THR [26:22] prio: Priority, 0 highest -/
def R.EZ_THR.prio (i : Nat) : Fld := ⟨R.EZ_THR.adr i, 26, 22⟩
/-- EZ_THR [11:0] cnt: Counter of the thread -/
def R.EZ_THR.cnt (i : Nat) : Fld := ⟨R.EZ_THR.adr i, 11, 0⟩
/-- Address of EZ_CNT (chapter 06). -/
def R.EZ_CNT.adr (i : Nat) : Nat := 0x44000 + 0x4 * i
/-- EZ_CNT [31:24] init: Initial value, 0–255 -/
def R.EZ_CNT.init (i : Nat) : Fld := ⟨R.EZ_CNT.adr i, 31, 24⟩
/-- EZ_CNT [23:16] cur: Current value -/
def R.EZ_CNT.cur (i : Nat) : Fld := ⟨R.EZ_CNT.adr i, 23, 16⟩
/-- EZ_CNT [13:12] kind: 0 unused, 1 job, 2 thread, 3 flag -/
def R.EZ_CNT.kind (i : Nat) : Fld := ⟨R.EZ_CNT.adr i, 13, 12⟩
/-- EZ_CNT [10] pend: Set by R208 -/
def R.EZ_CNT.pend (i : Nat) : Fld := ⟨R.EZ_CNT.adr i, 10, 10⟩
/-- EZ_CNT [9:0] tgt: Job or thread index; for a flag, reserved and 0 -/
def R.EZ_CNT.tgt (i : Nat) : Fld := ⟨R.EZ_CNT.adr i, 9, 0⟩
/-- Address of BR_E_STAT (chapter 07). -/
def R.BR_E_STAT.adr (i : Nat) : Nat := 0x48000 + 0x40 * i
/-- BR_E_STAT [31] busy: 1: a job is running or committing -/
def R.BR_E_STAT.busy (i : Nat) : Fld := ⟨R.BR_E_STAT.adr i, 31, 31⟩
/-- BR_E_STAT [27:26] depth: SR.depth of the running job -/
def R.BR_E_STAT.depth (i : Nat) : Fld := ⟨R.BR_E_STAT.adr i, 27, 26⟩
/-- BR_E_STAT [25:16] job: Index of the running or last job -/
def R.BR_E_STAT.job (i : Nat) : Fld := ⟨R.BR_E_STAT.adr i, 25, 16⟩
/-- BR_E_STAT [15:0] pc: Word address of the current or last instruction -/
def R.BR_E_STAT.pc (i : Nat) : Fld := ⟨R.BR_E_STAT.adr i, 15, 0⟩
/-- Address of BR_E_FLT (chapter 07). -/
def R.BR_E_FLT.adr (i : Nat) : Nat := 0x48004 + 0x40 * i
/-- BR_E_FLT [31:28] code: Job fault code (R254); 0 for none since reset -/
def R.BR_E_FLT.code (i : Nat) : Fld := ⟨R.BR_E_FLT.adr i, 31, 28⟩
/-- BR_E_FLT [25:16] job: Faulting job -/
def R.BR_E_FLT.job (i : Nat) : Fld := ⟨R.BR_E_FLT.adr i, 25, 16⟩
/-- BR_E_FLT [15:0] pc: Word address of the faulting instruction -/
def R.BR_E_FLT.pc (i : Nat) : Fld := ⟨R.BR_E_FLT.adr i, 15, 0⟩
/-- Address of BR_E_CYC (chapter 07). -/
def R.BR_E_CYC.adr (i : Nat) : Nat := 0x48008 + 0x40 * i
/-- BR_E_CYC [31:16] cyc_max: Largest cyc_last since the last cnt_clr -/
def R.BR_E_CYC.cyc_max (i : Nat) : Fld := ⟨R.BR_E_CYC.adr i, 31, 16⟩
/-- BR_E_CYC [15:0] cyc_last: Cycles of the last job, first instruction through commit, saturating
at 65,535 -/
def R.BR_E_CYC.cyc_last (i : Nat) : Fld := ⟨R.BR_E_CYC.adr i, 15, 0⟩
/-- Address of BR_E_JOBS (chapter 07). -/
def R.BR_E_JOBS.adr (i : Nat) : Nat := 0x4800C + 0x40 * i
/-- BR_E_JOBS [31:0] jobs: Jobs ended on the engine, saturating at 0xFFFF_FFFF -/
def R.BR_E_JOBS.jobs (i : Nat) : Fld := ⟨R.BR_E_JOBS.adr i, 31, 0⟩
/-- Address of BR_E_INV (chapter 07). -/
def R.BR_E_INV.adr (i : Nat) : Nat := 0x48010 + 0x40 * i
/-- BR_E_INV [31:16] aov: Ends with cause 1, saturating -/
def R.BR_E_INV.aov (i : Nat) : Fld := ⟨R.BR_E_INV.adr i, 31, 16⟩
/-- BR_E_INV [15:0] abort: Ends with causes 2, 3 and 4, saturating -/
def R.BR_E_INV.abort (i : Nat) : Fld := ⟨R.BR_E_INV.adr i, 15, 0⟩
/-- Address of BR_E_OVR (chapter 07). -/
def R.BR_E_OVR.adr (i : Nat) : Nat := 0x48014 + 0x40 * i
/-- BR_E_OVR [15:0] ovr: Jobs exceeding their declared cycles (R258), saturating -/
def R.BR_E_OVR.ovr (i : Nat) : Fld := ⟨R.BR_E_OVR.adr i, 15, 0⟩
/-- Address of BR_CFG (chapter 07). -/
def R.BR_CFG.adr : Nat := 0x48200
/-- BR_CFG [0] ovr_evt: 1: an over-run records a class-2 event (R258) -/
def R.BR_CFG.ovr_evt : Fld := ⟨R.BR_CFG.adr, 0, 0⟩
/-- Address of BR_CTRL (chapter 07). -/
def R.BR_CTRL.adr : Nat := 0x48204
/-- BR_CTRL [0] cnt_clr: 1: clear cyc_max, BR_E_JOBS, BR_E_INV and BR_E_OVR of all engines -/
def R.BR_CTRL.cnt_clr : Fld := ⟨R.BR_CTRL.adr, 0, 0⟩
/-- Address of BR_EVT (chapter 07). -/
def R.BR_EVT.adr : Nat := 0x48208
/-- BR_EVT [6] cfg_rej: A write was rejected (R259) -/
def R.BR_EVT.cfg_rej : Fld := ⟨R.BR_EVT.adr, 6, 6⟩
/-- BR_EVT [5] pm_rej: A program memory write was rejected (R260) -/
def R.BR_EVT.pm_rej : Fld := ⟨R.BR_EVT.adr, 5, 5⟩
/-- BR_EVT [4] ovr: A job exceeded its declared cycles -/
def R.BR_EVT.ovr : Fld := ⟨R.BR_EVT.adr, 4, 4⟩
/-- BR_EVT [3] ecc: A job was aborted by an uncorrectable ECC error -/
def R.BR_EVT.ecc : Fld := ⟨R.BR_EVT.adr, 3, 3⟩
/-- BR_EVT [2] fault: A job fault occurred -/
def R.BR_EVT.fault : Fld := ⟨R.BR_EVT.adr, 2, 2⟩
/-- BR_EVT [1] sov: A job ended with SR.sov = 1 -/
def R.BR_EVT.sov : Fld := ⟨R.BR_EVT.adr, 1, 1⟩
/-- BR_EVT [0] aov: A job ended with SR.aov = 1 -/
def R.BR_EVT.aov : Fld := ⟨R.BR_EVT.adr, 0, 0⟩
/-- Address of BR_PM_ADDR (chapter 07). -/
def R.BR_PM_ADDR.adr : Nat := 0x48210
/-- BR_PM_ADDR [31:28] eng_mask: Bit e: engine BRe is addressed -/
def R.BR_PM_ADDR.eng_mask : Fld := ⟨R.BR_PM_ADDR.adr, 31, 28⟩
/-- BR_PM_ADDR [15:0] addr: Word address; increments after each BR_PM_DATA access -/
def R.BR_PM_ADDR.addr : Fld := ⟨R.BR_PM_ADDR.adr, 15, 0⟩
/-- Address of BR_PM_DATA (chapter 07). -/
def R.BR_PM_DATA.adr : Nat := 0x48214
/-- BR_PM_DATA [31:0] word: Read: the word at addr in the lowest engine of eng_mask. Write: the
word at addr in every engine of eng_mask (R260) -/
def R.BR_PM_DATA.word : Fld := ⟨R.BR_PM_DATA.adr, 31, 0⟩
/-- Address of BR_JSTAT (chapter 07). -/
def R.BR_JSTAT.adr (i : Nat) : Nat := 0x49000 + 0x4 * i
/-- BR_JSTAT [31:24] inv_run: Consecutive ends with rv = 0, saturating at 255 (R257) -/
def R.BR_JSTAT.inv_run (i : Nat) : Fld := ⟨R.BR_JSTAT.adr i, 31, 24⟩
/-- BR_JSTAT [23:16] tick_lo: Low 8 bits of the tick of the last end -/
def R.BR_JSTAT.tick_lo (i : Nat) : Fld := ⟨R.BR_JSTAT.adr i, 23, 16⟩
/-- BR_JSTAT [11:8] cause: Cause of the last end, 0–5 (R257) -/
def R.BR_JSTAT.cause (i : Nat) : Fld := ⟨R.BR_JSTAT.adr i, 11, 8⟩
/-- BR_JSTAT [7] rv: Result-valid bit -/
def R.BR_JSTAT.rv (i : Nat) : Fld := ⟨R.BR_JSTAT.adr i, 7, 7⟩
/-- BR_JSTAT [6] aov: SR.aov at the end -/
def R.BR_JSTAT.aov (i : Nat) : Fld := ⟨R.BR_JSTAT.adr i, 6, 6⟩
/-- BR_JSTAT [5] sov: SR.sov at the end -/
def R.BR_JSTAT.sov (i : Nat) : Fld := ⟨R.BR_JSTAT.adr i, 5, 5⟩
/-- BR_JSTAT [4] cbx: SR.cbx at the end -/
def R.BR_JSTAT.cbx (i : Nat) : Fld := ⟨R.BR_JSTAT.adr i, 4, 4⟩
/-- BR_JSTAT [1:0] eng: Engine that ran the job -/
def R.BR_JSTAT.eng (i : Nat) : Fld := ⟨R.BR_JSTAT.adr i, 1, 0⟩
/-- Address of AX_CFG (chapter 08). -/
def R.AX_CFG.adr (i : Nat) : Nat := 0x20000 + 0x100 * i
/-- AX_CFG [31:27] grp: Motion group, 0–31 (R264) -/
def R.AX_CFG.grp (i : Nat) : Fld := ⟨R.AX_CFG.adr i, 31, 27⟩
/-- AX_CFG [23:16] stn: Station address, 1–255 for an axis in use; 0 is stored and judged in Load
(R300, R262, R320) -/
def R.AX_CFG.stn (i : Nat) : Fld := ⟨R.AX_CFG.adr i, 23, 16⟩
/-- AX_CFG [15:14] slot: Axis slot in the station, 0–3 -/
def R.AX_CFG.slot (i : Nat) : Fld := ⟨R.AX_CFG.adr i, 15, 14⟩
/-- AX_CFG [11:8] pp: Pole pairs, 1–15 for a servo axis; 0 is stored and judged in Load (R300,
R262) -/
def R.AX_CFG.pp (i : Nat) : Fld := ⟨R.AX_CFG.adr i, 11, 8⟩
/-- AX_CFG [7:6] ang_fb: Fallback angle source: 0 none, 1 encoder, 2 Hall, 3 sensorless -/
def R.AX_CFG.ang_fb (i : Nat) : Fld := ⟨R.AX_CFG.adr i, 7, 6⟩
/-- AX_CFG [5:4] ang_pri: Primary angle source, 1–3 as ang_fb, for a servo axis; 0 is stored and
judged in Load (R300, R262) -/
def R.AX_CFG.ang_pri (i : Nat) : Fld := ⟨R.AX_CFG.adr i, 5, 4⟩
/-- AX_CFG [1:0] kind: 0 unused, 1 servo, 2 stepper, 3 reserved -/
def R.AX_CFG.kind (i : Nat) : Fld := ⟨R.AX_CFG.adr i, 1, 0⟩
/-- Address of AX_CTRL (chapter 08). -/
def R.AX_CTRL.adr (i : Nat) : Nat := 0x20004 + 0x100 * i
/-- AX_CTRL [3] cnt_clr: 1: clear AX_CNT -/
def R.AX_CTRL.cnt_clr (i : Nat) : Fld := ⟨R.AX_CTRL.adr i, 3, 3⟩
/-- AX_CTRL [2] reset: 1: leave Lost, Fault or Safe-off (R295) -/
def R.AX_CTRL.reset (i : Nat) : Fld := ⟨R.AX_CTRL.adr i, 2, 2⟩
/-- AX_CTRL [1] disable: 1: disable (R293) -/
def R.AX_CTRL.disable (i : Nat) : Fld := ⟨R.AX_CTRL.adr i, 1, 1⟩
/-- AX_CTRL [0] enable: 1: enable (R296) -/
def R.AX_CTRL.enable (i : Nat) : Fld := ⟨R.AX_CTRL.adr i, 0, 0⟩
/-- Address of AX_STATE (chapter 08). -/
def R.AX_STATE.adr (i : Nat) : Nat := 0x20008 + 0x100 * i
/-- AX_STATE [31:24] age: Slot age (R111) -/
def R.AX_STATE.age (i : Nat) : Fld := ⟨R.AX_STATE.adr i, 31, 24⟩
/-- AX_STATE [19:16] tries: Catch attempts (R287) -/
def R.AX_STATE.tries (i : Nat) : Fld := ⟨R.AX_STATE.adr i, 19, 16⟩
/-- AX_STATE [15:14] ang_use: Angle source in use, coded as ang_fb -/
def R.AX_STATE.ang_use (i : Nat) : Fld := ⟨R.AX_STATE.adr i, 15, 14⟩
/-- AX_STATE [13] inj: 1: injection applied -/
def R.AX_STATE.inj (i : Nat) : Fld := ⟨R.AX_STATE.adr i, 13, 13⟩
/-- AX_STATE [12] aged: 1: R297 applies -/
def R.AX_STATE.aged (i : Nat) : Fld := ⟨R.AX_STATE.adr i, 12, 12⟩
/-- AX_STATE [11] fb_used: 1: fallback source in use (R286) -/
def R.AX_STATE.fb_used (i : Nat) : Fld := ⟨R.AX_STATE.adr i, 11, 11⟩
/-- AX_STATE [3:0] astate: State code (R292) -/
def R.AX_STATE.astate (i : Nat) : Fld := ⟨R.AX_STATE.adr i, 3, 0⟩
/-- Address of AX_EVT (chapter 08). -/
def R.AX_EVT.adr (i : Nat) : Nat := 0x2000C + 0x100 * i
/-- AX_EVT [11] cfg_rej: A write was rejected (R300) -/
def R.AX_EVT.cfg_rej (i : Nat) : Fld := ⟨R.AX_EVT.adr i, 11, 11⟩
/-- AX_EVT [10] rej: A control was rejected (R295, R296) -/
def R.AX_EVT.rej (i : Nat) : Fld := ⟨R.AX_EVT.adr i, 10, 10⟩
/-- AX_EVT [9] src_rej: A source change was rejected (R278) -/
def R.AX_EVT.src_rej (i : Nat) : Fld := ⟨R.AX_EVT.adr i, 9, 9⟩
/-- AX_EVT [8] clamp: The cell reported clamp -/
def R.AX_EVT.clamp (i : Nat) : Fld := ⟨R.AX_EVT.adr i, 8, 8⟩
/-- AX_EVT [7] cell: Cell fault reported (R299) -/
def R.AX_EVT.cell (i : Nat) : Fld := ⟨R.AX_EVT.adr i, 7, 7⟩
/-- AX_EVT [6] loop_flt: Loop fault (R298) -/
def R.AX_EVT.loop_flt (i : Nat) : Fld := ⟨R.AX_EVT.adr i, 6, 6⟩
/-- AX_EVT [5] catch_fail: A catch failed -/
def R.AX_EVT.catch_fail (i : Nat) : Fld := ⟨R.AX_EVT.adr i, 5, 5⟩
/-- AX_EVT [4] rotor_lost: ROTOR_LOST declared -/
def R.AX_EVT.rotor_lost (i : Nat) : Fld := ⟨R.AX_EVT.adr i, 4, 4⟩
/-- AX_EVT [3] lost: The axis entered Lost -/
def R.AX_EVT.lost (i : Nat) : Fld := ⟨R.AX_EVT.adr i, 3, 3⟩
/-- AX_EVT [2] i_lim: Current reference limited (R270) -/
def R.AX_EVT.i_lim (i : Nat) : Fld := ⟨R.AX_EVT.adr i, 2, 2⟩
/-- AX_EVT [1] v_lim: Voltage clamped (R269) -/
def R.AX_EVT.v_lim (i : Nat) : Fld := ⟨R.AX_EVT.adr i, 1, 1⟩
/-- AX_EVT [0] sto: The axis entered Safe-off -/
def R.AX_EVT.sto (i : Nat) : Fld := ⟨R.AX_EVT.adr i, 0, 0⟩
/-- Address of AX_MOT_R (chapter 08). -/
def R.AX_MOT_R.adr (i : Nat) : Nat := 0x20010 + 0x100 * i
/-- AX_MOT_R [31:16] psi: Magnet flux linkage ψ, units of 10 µVs -/
def R.AX_MOT_R.psi (i : Nat) : Fld := ⟨R.AX_MOT_R.adr i, 31, 16⟩
/-- AX_MOT_R [15:0] r_mohm: Phase resistance R_s, mΩ -/
def R.AX_MOT_R.r_mohm (i : Nat) : Fld := ⟨R.AX_MOT_R.adr i, 15, 0⟩
/-- Address of AX_MOT_L (chapter 08). -/
def R.AX_MOT_L.adr (i : Nat) : Nat := 0x20014 + 0x100 * i
/-- AX_MOT_L [31:16] lq_uh: L_q, µH -/
def R.AX_MOT_L.lq_uh (i : Nat) : Fld := ⟨R.AX_MOT_L.adr i, 31, 16⟩
/-- AX_MOT_L [15:0] ld_uh: L_d, µH -/
def R.AX_MOT_L.ld_uh (i : Nat) : Fld := ⟨R.AX_MOT_L.adr i, 15, 0⟩
/-- Address of AX_BASE (chapter 08). -/
def R.AX_BASE.adr (i : Nat) : Nat := 0x20018 + 0x100 * i
/-- AX_BASE [31:16] v_base: Voltage base, units of 0.1 V -/
def R.AX_BASE.v_base (i : Nat) : Fld := ⟨R.AX_BASE.adr i, 31, 16⟩
/-- AX_BASE [15:0] n_base: Speed base, rpm -/
def R.AX_BASE.n_base (i : Nat) : Fld := ⟨R.AX_BASE.adr i, 15, 0⟩
/-- Address of AX_LIM (chapter 08). -/
def R.AX_LIM.adr (i : Nat) : Nat := 0x2001C + 0x100 * i
/-- AX_LIM [31:16] i_lim: Current limit, UQ0.15 of i_fs in bits [30:16]; bit 31 reserved -/
def R.AX_LIM.i_lim (i : Nat) : Fld := ⟨R.AX_LIM.adr i, 31, 16⟩
/-- AX_LIM [15:0] n_lim: Speed limit, UQ0.15 of n_base in bits [14:0]; bit 15 reserved -/
def R.AX_LIM.n_lim (i : Nat) : Fld := ⟨R.AX_LIM.adr i, 15, 0⟩
/-- Address of AX_PWM (chapter 08). -/
def R.AX_PWM.adr (i : Nat) : Nat := 0x20020 + 0x100 * i
/-- AX_PWM [31:16] m_lim: Modulation limit, UQ0.16 (0.95 at reset) -/
def R.AX_PWM.m_lim (i : Nat) : Fld := ⟨R.AX_PWM.adr i, 31, 16⟩
/-- AX_PWM [15] dtc_en: 1: dead-time compensation (R272) -/
def R.AX_PWM.dtc_en (i : Nat) : Fld := ⟨R.AX_PWM.adr i, 15, 15⟩
/-- AX_PWM [14:0] dtc_band: Linear band, UQ0.15 of i_fs -/
def R.AX_PWM.dtc_band (i : Nat) : Fld := ⟨R.AX_PWM.adr i, 14, 0⟩
/-- Address of AX_CUR_KP (chapter 08). -/
def R.AX_CUR_KP.adr (i : Nat) : Nat := 0x20024 + 0x100 * i
/-- AX_CUR_KP [31:16] kp_q: Q15, quarter scale (R268) -/
def R.AX_CUR_KP.kp_q (i : Nat) : Fld := ⟨R.AX_CUR_KP.adr i, 31, 16⟩
/-- AX_CUR_KP [15:0] kp_d: Q15, quarter scale -/
def R.AX_CUR_KP.kp_d (i : Nat) : Fld := ⟨R.AX_CUR_KP.adr i, 15, 0⟩
/-- Address of AX_CUR_KI (chapter 08). -/
def R.AX_CUR_KI.adr (i : Nat) : Nat := 0x20028 + 0x100 * i
/-- AX_CUR_KI [31:16] ki_q: Q15 per tick, quarter scale -/
def R.AX_CUR_KI.ki_q (i : Nat) : Fld := ⟨R.AX_CUR_KI.adr i, 31, 16⟩
/-- AX_CUR_KI [15:0] ki_d: Q15 per tick, quarter scale -/
def R.AX_CUR_KI.ki_d (i : Nat) : Fld := ⟨R.AX_CUR_KI.adr i, 15, 0⟩
/-- Address of AX_SPD_PI (chapter 08). -/
def R.AX_SPD_PI.adr (i : Nat) : Nat := 0x2002C + 0x100 * i
/-- AX_SPD_PI [31:16] ki: K_iω per tick, Q15 of i_fs per n_base, scaled by 2^−spd_sh -/
def R.AX_SPD_PI.ki (i : Nat) : Fld := ⟨R.AX_SPD_PI.adr i, 31, 16⟩
/-- AX_SPD_PI [15:0] kp: K_pω, Q15 of i_fs per n_base, scaled by 2^−spd_sh -/
def R.AX_SPD_PI.kp (i : Nat) : Fld := ⟨R.AX_SPD_PI.adr i, 15, 0⟩
/-- Address of AX_LOOP (chapter 08). -/
def R.AX_LOOP.adr (i : Nat) : Nat := 0x20030 + 0x100 * i
/-- AX_LOOP [31:16] kv_ff: Velocity feed-forward, UQ1.15 (1.0 at reset) -/
def R.AX_LOOP.kv_ff (i : Nat) : Fld := ⟨R.AX_LOOP.adr i, 31, 16⟩
/-- AX_LOOP [2:0] spd_sh: Speed output shift, 0–7 (R274) -/
def R.AX_LOOP.spd_sh (i : Nat) : Fld := ⟨R.AX_LOOP.adr i, 2, 0⟩
/-- Address of AX_POS_KP (chapter 08). -/
def R.AX_POS_KP.adr (i : Nat) : Nat := 0x20034 + 0x100 * i
/-- AX_POS_KP [15:0] kpp: K_pp, units of 0.01 s⁻¹ (R275) -/
def R.AX_POS_KP.kpp (i : Nat) : Fld := ⟨R.AX_POS_KP.adr i, 15, 0⟩
/-- Address of AX_RAMP (chapter 08). -/
def R.AX_RAMP.adr (i : Nat) : Nat := 0x20038 + 0x100 * i
/-- AX_RAMP [31:16] dec: Deceleration, rpm/ms -/
def R.AX_RAMP.dec (i : Nat) : Fld := ⟨R.AX_RAMP.adr i, 31, 16⟩
/-- AX_RAMP [15:0] acc: Acceleration, rpm/ms -/
def R.AX_RAMP.acc (i : Nat) : Fld := ⟨R.AX_RAMP.adr i, 15, 0⟩
/-- Address of AX_REF (chapter 08). -/
def R.AX_REF.adr (i : Nat) : Nat := 0x2003C + 0x100 * i
/-- AX_REF [1:0] src: 0 profile, 1 speed command, 2 external, 3 reserved (R276, R278) -/
def R.AX_REF.src (i : Nat) : Fld := ⟨R.AX_REF.adr i, 1, 0⟩
/-- Address of AX_SPD_CMD (chapter 08). -/
def R.AX_SPD_CMD.adr (i : Nat) : Nat := 0x20040 + 0x100 * i
/-- AX_SPD_CMD [31:0] cmd: Speed command, signed, units of 0.001 rpm -/
def R.AX_SPD_CMD.cmd (i : Nat) : Fld := ⟨R.AX_SPD_CMD.adr i, 31, 0⟩
/-- Address of AX_EXT (chapter 08). -/
def R.AX_EXT.adr (i : Nat) : Nat := 0x20044 + 0x100 * i
/-- AX_EXT [31:16] n_fs: Speed at full-scale ext_ref, rpm -/
def R.AX_EXT.n_fs (i : Nat) : Fld := ⟨R.AX_EXT.adr i, 31, 16⟩
/-- AX_EXT [14:0] db: Dead band, UQ0.15 (R277) -/
def R.AX_EXT.db (i : Nat) : Fld := ⟨R.AX_EXT.adr i, 14, 0⟩
/-- Address of AX_ENC_CPR (chapter 08). -/
def R.AX_ENC_CPR.adr (i : Nat) : Nat := 0x20048 + 0x100 * i
/-- AX_ENC_CPR [31:0] cpr: Counts per mechanical revolution, 1–2³¹ for a slot with quadrature
fitted; any value is stored, and R262 and R320 judge it in Load (R300). Not … -/
def R.AX_ENC_CPR.cpr (i : Nat) : Fld := ⟨R.AX_ENC_CPR.adr i, 31, 0⟩
/-- Address of AX_ENC_OFS (chapter 08). -/
def R.AX_ENC_OFS.adr (i : Nat) : Nat := 0x2004C + 0x100 * i
/-- AX_ENC_OFS [15:0] ofs: Electrical angle at count 0, UQ0.16 of a turn (R279) -/
def R.AX_ENC_OFS.ofs (i : Nat) : Fld := ⟨R.AX_ENC_OFS.adr i, 15, 0⟩
/-- Address of AX_SL (chapter 08). -/
def R.AX_SL.adr (i : Nat) : Nat := 0x20050 + 0x100 * i
/-- AX_SL [31:16] x_spd: Crossover speed x, rpm -/
def R.AX_SL.x_spd (i : Nat) : Fld := ⟨R.AX_SL.adr i, 31, 16⟩
/-- AX_SL [15:0] band: Half-width b of the blend, rpm, less than x_spd -/
def R.AX_SL.band (i : Nat) : Fld := ⟨R.AX_SL.adr i, 15, 0⟩
/-- Address of AX_HFI (chapter 08). -/
def R.AX_HFI.adr (i : Nat) : Nat := 0x20054 + 0x100 * i
/-- AX_HFI [31:16] v_inj: Injection amplitude, Q15 of v_base -/
def R.AX_HFI.v_inj (i : Nat) : Fld := ⟨R.AX_HFI.adr i, 31, 16⟩
/-- AX_HFI [15:0] i_pol: Polarity test current, Q15 of i_fs (R282) -/
def R.AX_HFI.i_pol (i : Nat) : Fld := ⟨R.AX_HFI.adr i, 15, 0⟩
/-- Address of AX_OBS (chapter 08). -/
def R.AX_OBS.adr (i : Nat) : Nat := 0x20058 + 0x100 * i
/-- AX_OBS [31:16] obs_bw: Observer bandwidth, Hz -/
def R.AX_OBS.obs_bw (i : Nat) : Fld := ⟨R.AX_OBS.adr i, 31, 16⟩
/-- AX_OBS [15:0] pll_bw: Tracking-loop bandwidth, Hz -/
def R.AX_OBS.pll_bw (i : Nat) : Fld := ⟨R.AX_OBS.adr i, 15, 0⟩
/-- Address of AX_PLAUS (chapter 08). -/
def R.AX_PLAUS.adr (i : Nat) : Nat := 0x2005C + 0x100 * i
/-- AX_PLAUS [31:24] n: Consecutive ticks beyond win, 1–255 -/
def R.AX_PLAUS.n (i : Nat) : Fld := ⟨R.AX_PLAUS.adr i, 31, 24⟩
/-- AX_PLAUS [15:0] win: Residual window, UQ0.16 of i_fs (R285) -/
def R.AX_PLAUS.win (i : Nat) : Fld := ⟨R.AX_PLAUS.adr i, 15, 0⟩
/-- Address of AX_CATCH (chapter 08). -/
def R.AX_CATCH.adr (i : Nat) : Nat := 0x20060 + 0x100 * i
/-- AX_CATCH [31:28] max: Catch attempts after a rotor loss, 0–7 -/
def R.AX_CATCH.max (i : Nat) : Fld := ⟨R.AX_CATCH.adr i, 31, 28⟩
/-- AX_CATCH [27:16] coast_ms: Coasting time before each attempt, ms (50 at reset) -/
def R.AX_CATCH.coast_ms (i : Nat) : Fld := ⟨R.AX_CATCH.adr i, 27, 16⟩
/-- AX_CATCH [15:0] t_ms: Time allowed for one catch, ms (200 at reset) -/
def R.AX_CATCH.t_ms (i : Nat) : Fld := ⟨R.AX_CATCH.adr i, 15, 0⟩
/-- Address of AX_BRAKE (chapter 08). -/
def R.AX_BRAKE.adr (i : Nat) : Nat := 0x20064 + 0x100 * i
/-- AX_BRAKE [31] fitted: 1: a holding brake is fitted -/
def R.AX_BRAKE.fitted (i : Nat) : Fld := ⟨R.AX_BRAKE.adr i, 31, 31⟩
/-- AX_BRAKE [23:12] t_eng_ms: Brake engage time, ms (100 at reset) -/
def R.AX_BRAKE.t_eng_ms (i : Nat) : Fld := ⟨R.AX_BRAKE.adr i, 23, 12⟩
/-- AX_BRAKE [11:0] t_rel_ms: Brake release time, ms (100 at reset) -/
def R.AX_BRAKE.t_rel_ms (i : Nat) : Fld := ⟨R.AX_BRAKE.adr i, 11, 0⟩
/-- Address of AX_ZERO (chapter 08). -/
def R.AX_ZERO.adr (i : Nat) : Nat := 0x20068 + 0x100 * i
/-- AX_ZERO [31:16] t_zero: Ticks at standstill (32 at reset) -/
def R.AX_ZERO.t_zero (i : Nat) : Fld := ⟨R.AX_ZERO.adr i, 31, 16⟩
/-- AX_ZERO [15:0] n_zero: Standstill speed, units of 0.1 rpm (5.0 rpm at reset) -/
def R.AX_ZERO.n_zero (i : Nat) : Fld := ⟨R.AX_ZERO.adr i, 15, 0⟩
/-- Address of AX_AGE_LIM (chapter 08). -/
def R.AX_AGE_LIM.adr (i : Nat) : Nat := 0x2006C + 0x100 * i
/-- AX_AGE_LIM [7:0] age_lim: Age limit, 1–254 (R146) -/
def R.AX_AGE_LIM.age_lim (i : Nat) : Fld := ⟨R.AX_AGE_LIM.adr i, 7, 0⟩
/-- Address of AX_REACT (chapter 08). -/
def R.AX_REACT.adr (i : Nat) : Nat := 0x20070 + 0x100 * i
/-- AX_REACT [8] inv_pol: Invalid-result policy (R298) -/
def R.AX_REACT.inv_pol (i : Nat) : Fld := ⟨R.AX_REACT.adr i, 8, 8⟩
/-- AX_REACT [7:4] grp_flt: Group reaction on Fault: 0 none, 1 STOP, 2 SS1 (R264) -/
def R.AX_REACT.grp_flt (i : Nat) : Fld := ⟨R.AX_REACT.adr i, 7, 4⟩
/-- AX_REACT [3:0] grp_lost: Group reaction on Lost, coded as grp_flt -/
def R.AX_REACT.grp_lost (i : Nat) : Fld := ⟨R.AX_REACT.adr i, 3, 0⟩
/-- Address of AX_I_FB (chapter 08). -/
def R.AX_I_FB.adr (i : Nat) : Nat := 0x20074 + 0x100 * i
/-- AX_I_FB [31:16] i_q: Q15 of i_fs, tick n -/
def R.AX_I_FB.i_q (i : Nat) : Fld := ⟨R.AX_I_FB.adr i, 31, 16⟩
/-- AX_I_FB [15:0] i_d: Q15 of i_fs, tick n -/
def R.AX_I_FB.i_d (i : Nat) : Fld := ⟨R.AX_I_FB.adr i, 15, 0⟩
/-- Address of AX_V_OUT (chapter 08). -/
def R.AX_V_OUT.adr (i : Nat) : Nat := 0x20078 + 0x100 * i
/-- AX_V_OUT [31:16] v_q: Q15 of v_base, after R269 -/
def R.AX_V_OUT.v_q (i : Nat) : Fld := ⟨R.AX_V_OUT.adr i, 31, 16⟩
/-- AX_V_OUT [15:0] v_d: Q15 of v_base, after R269 -/
def R.AX_V_OUT.v_d (i : Nat) : Fld := ⟨R.AX_V_OUT.adr i, 15, 0⟩
/-- Address of AX_I_REF (chapter 08). -/
def R.AX_I_REF.adr (i : Nat) : Nat := 0x2007C + 0x100 * i
/-- AX_I_REF [31:16] iq_ref: Q15 of i_fs -/
def R.AX_I_REF.iq_ref (i : Nat) : Fld := ⟨R.AX_I_REF.adr i, 31, 16⟩
/-- AX_I_REF [15:0] id_ref: Q15 of i_fs -/
def R.AX_I_REF.id_ref (i : Nat) : Fld := ⟨R.AX_I_REF.adr i, 15, 0⟩
/-- Address of AX_ANGLE (chapter 08). -/
def R.AX_ANGLE.adr (i : Nat) : Nat := 0x20080 + 0x100 * i
/-- AX_ANGLE [31:16] theta: θ_m in use, UQ0.16 -/
def R.AX_ANGLE.theta (i : Nat) : Fld := ⟨R.AX_ANGLE.adr i, 31, 16⟩
/-- AX_ANGLE [15:0] diff: wrap(θ_pri − θ_fb), signed; 0 without a fallback -/
def R.AX_ANGLE.diff (i : Nat) : Fld := ⟨R.AX_ANGLE.adr i, 15, 0⟩
/-- Address of AX_CNT (chapter 08). -/
def R.AX_CNT.adr (i : Nat) : Nat := 0x20084 + 0x100 * i
/-- AX_CNT [31:16] catches: Catch attempts, saturating -/
def R.AX_CNT.catches (i : Nat) : Fld := ⟨R.AX_CNT.adr i, 31, 16⟩
/-- AX_CNT [15:0] losses: ROTOR_LOST declarations, saturating -/
def R.AX_CNT.losses (i : Nat) : Fld := ⟨R.AX_CNT.adr i, 15, 0⟩
/-- Address of AX_PRF_CMD (chapter 09). -/
def R.AX_PRF_CMD.adr (i : Nat) : Nat := 0x20090 + 0x100 * i
/-- AX_PRF_CMD [3:0] op: Command (R306) -/
def R.AX_PRF_CMD.op (i : Nat) : Fld := ⟨R.AX_PRF_CMD.adr i, 3, 0⟩
/-- Address of AX_PRF_TGT (chapter 09). -/
def R.AX_PRF_TGT.adr (i : Nat) : Nat := 0x20094 + 0x100 * i
/-- AX_PRF_TGT [31:0] tgt: Target (MOVE_ABS) or distance (MOVE_REL), signed pu -/
def R.AX_PRF_TGT.tgt (i : Nat) : Fld := ⟨R.AX_PRF_TGT.adr i, 31, 0⟩
/-- Address of AX_PRF_VMAX (chapter 09). -/
def R.AX_PRF_VMAX.adr (i : Nat) : Nat := 0x20098 + 0x100 * i
/-- AX_PRF_VMAX [31:0] vmax: Speed limit of the move, 0.001 rpm, unsigned -/
def R.AX_PRF_VMAX.vmax (i : Nat) : Fld := ⟨R.AX_PRF_VMAX.adr i, 31, 0⟩
/-- Address of AX_PRF_ACC (chapter 09). -/
def R.AX_PRF_ACC.adr (i : Nat) : Nat := 0x2009C + 0x100 * i
/-- AX_PRF_ACC [31:16] dec: Deceleration, units of 10 rpm/s -/
def R.AX_PRF_ACC.dec (i : Nat) : Fld := ⟨R.AX_PRF_ACC.adr i, 31, 16⟩
/-- AX_PRF_ACC [15:0] acc: Acceleration, units of 10 rpm/s -/
def R.AX_PRF_ACC.acc (i : Nat) : Fld := ⟨R.AX_PRF_ACC.adr i, 15, 0⟩
/-- Address of AX_PRF_LIM (chapter 09). -/
def R.AX_PRF_LIM.adr (i : Nat) : Nat := 0x200A0 + 0x100 * i
/-- AX_PRF_LIM [31:16] dec_lim: Deceleration limit, units of 10 rpm/s (R309, R314) -/
def R.AX_PRF_LIM.dec_lim (i : Nat) : Fld := ⟨R.AX_PRF_LIM.adr i, 31, 16⟩
/-- AX_PRF_LIM [15:0] acc_lim: Acceleration limit, units of 10 rpm/s -/
def R.AX_PRF_LIM.acc_lim (i : Nat) : Fld := ⟨R.AX_PRF_LIM.adr i, 15, 0⟩
/-- Address of AX_PRF_CFG (chapter 09). -/
def R.AX_PRF_CFG.adr (i : Nat) : Nat := 0x200A4 + 0x100 * i
/-- AX_PRF_CFG [11:8] late_lim: Consecutive missing steps before Stopping, 1–15 (R319) -/
def R.AX_PRF_CFG.late_lim (i : Nat) : Fld := ⟨R.AX_PRF_CFG.adr i, 11, 8⟩
/-- AX_PRF_CFG [0] qmode: 0: append; 1: reject (R307) -/
def R.AX_PRF_CFG.qmode (i : Nat) : Fld := ⟨R.AX_PRF_CFG.adr i, 0, 0⟩
/-- Address of AX_PRF_STAT (chapter 09). -/
def R.AX_PRF_STAT.adr (i : Nat) : Nat := 0x200A8 + 0x100 * i
/-- AX_PRF_STAT [19:16] res: Result of the last command (R307) -/
def R.AX_PRF_STAT.res (i : Nat) : Fld := ⟨R.AX_PRF_STAT.adr i, 19, 16⟩
/-- AX_PRF_STAT [11:8] queued: Moves queued, 0–8 -/
def R.AX_PRF_STAT.queued (i : Nat) : Fld := ⟨R.AX_PRF_STAT.adr i, 11, 8⟩
/-- AX_PRF_STAT [2:0] phase: 0 IDLE, 1 ACCEL, 2 CRUISE, 3 DECEL, 4 STOPPING, 5 RETURN -/
def R.AX_PRF_STAT.phase (i : Nat) : Fld := ⟨R.AX_PRF_STAT.adr i, 2, 0⟩
/-- Address of AX_PRF_EVT (chapter 09). -/
def R.AX_PRF_EVT.adr (i : Nat) : Nat := 0x200AC + 0x100 * i
/-- AX_PRF_EVT [6] late: A profile step was missing (R319) -/
def R.AX_PRF_EVT.late (i : Nat) : Fld := ⟨R.AX_PRF_EVT.adr i, 6, 6⟩
/-- AX_PRF_EVT [5] abort: The move was aborted (R317) -/
def R.AX_PRF_EVT.abort (i : Nat) : Fld := ⟨R.AX_PRF_EVT.adr i, 5, 5⟩
/-- AX_PRF_EVT [4] rej: A command returned BUSY, Q_FULL, NOT_READY or INVALID -/
def R.AX_PRF_EVT.rej (i : Nat) : Fld := ⟨R.AX_PRF_EVT.adr i, 4, 4⟩
/-- AX_PRF_EVT [3] overshoot: Set by R314 -/
def R.AX_PRF_EVT.overshoot (i : Nat) : Fld := ⟨R.AX_PRF_EVT.adr i, 3, 3⟩
/-- AX_PRF_EVT [2] acc_ovr: Set by R313 -/
def R.AX_PRF_EVT.acc_ovr (i : Nat) : Fld := ⟨R.AX_PRF_EVT.adr i, 2, 2⟩
/-- AX_PRF_EVT [1] started: A move started -/
def R.AX_PRF_EVT.started (i : Nat) : Fld := ⟨R.AX_PRF_EVT.adr i, 1, 1⟩
/-- AX_PRF_EVT [0] done: A move ended at its target (R305) -/
def R.AX_PRF_EVT.done (i : Nat) : Fld := ⟨R.AX_PRF_EVT.adr i, 0, 0⟩
/-- Address of AX_PRF_POS (chapter 09). -/
def R.AX_PRF_POS.adr (i : Nat) : Nat := 0x200B0 + 0x100 * i
/-- AX_PRF_POS [31:0] p_ref: p_ref of the present tick, signed pu -/
def R.AX_PRF_POS.p_ref (i : Nat) : Fld := ⟨R.AX_PRF_POS.adr i, 31, 0⟩
/-- Address of AX_PRF_VEL (chapter 09). -/
def R.AX_PRF_VEL.adr (i : Nat) : Nat := 0x200B4 + 0x100 * i
/-- AX_PRF_VEL [31:0] v_ref: v_ref of the present tick, signed, 0.001 rpm -/
def R.AX_PRF_VEL.v_ref (i : Nat) : Fld := ⟨R.AX_PRF_VEL.adr i, 31, 0⟩
/-- Address of AX_STP_CFG (chapter 09). -/
def R.AX_STP_CFG.adr (i : Nat) : Nat := 0x200B8 + 0x100 * i
/-- AX_STP_CFG [31:24] ecyc: Electrical turns per revolution, 1–255 (50 at reset) -/
def R.AX_STP_CFG.ecyc (i : Nat) : Fld := ⟨R.AX_STP_CFG.adr i, 31, 24⟩
/-- AX_STP_CFG [23:16] t_hold: Standstill time before i_hold, units of 10 ms; 0: never (R325) -/
def R.AX_STP_CFG.t_hold (i : Nat) : Fld := ⟨R.AX_STP_CFG.adr i, 23, 16⟩
/-- AX_STP_CFG [15:12] tbl: Microstep table, 0–15 (R324) -/
def R.AX_STP_CFG.tbl (i : Nat) : Fld := ⟨R.AX_STP_CFG.adr i, 15, 12⟩
/-- AX_STP_CFG [11:8] ustep_log2: log₂ of microsteps per full step, 0–8 -/
def R.AX_STP_CFG.ustep_log2 (i : Nat) : Fld := ⟨R.AX_STP_CFG.adr i, 11, 8⟩
/-- AX_STP_CFG [7:6] stall_act: 0 record, 1 Fault, 2 resynchronise; 3 reserved (R328) -/
def R.AX_STP_CFG.stall_act (i : Nat) : Fld := ⟨R.AX_STP_CFG.adr i, 7, 6⟩
/-- AX_STP_CFG [5] stall_en: 1: deviation window active -/
def R.AX_STP_CFG.stall_en (i : Nat) : Fld := ⟨R.AX_STP_CFG.adr i, 5, 5⟩
/-- AX_STP_CFG [4] la_en: 1: load-adaptive current (R326) -/
def R.AX_STP_CFG.la_en (i : Nat) : Fld := ⟨R.AX_STP_CFG.adr i, 4, 4⟩
/-- Address of AX_STP_I (chapter 09). -/
def R.AX_STP_I.adr (i : Nat) : Nat := 0x200BC + 0x100 * i
/-- AX_STP_I [31:16] i_run: Run current amplitude, Q15 of i_fs -/
def R.AX_STP_I.i_run (i : Nat) : Fld := ⟨R.AX_STP_I.adr i, 31, 16⟩
/-- AX_STP_I [15:0] i_hold: Hold current amplitude, Q15 of i_fs -/
def R.AX_STP_I.i_hold (i : Nat) : Fld := ⟨R.AX_STP_I.adr i, 15, 0⟩
/-- Address of AX_STP_LA (chapter 09). -/
def R.AX_STP_LA.adr (i : Nat) : Nat := 0x200C0 + 0x100 * i
/-- AX_STP_LA [31:16] k_la: Current added per full step of load angle beyond δ₀, Q15 of i_fs -/
def R.AX_STP_LA.k_la (i : Nat) : Fld := ⟨R.AX_STP_LA.adr i, 31, 16⟩
/-- AX_STP_LA [15:8] d0: δ₀, units of 1/256 full step (0.25 at reset) -/
def R.AX_STP_LA.d0 (i : Nat) : Fld := ⟨R.AX_STP_LA.adr i, 15, 8⟩
/-- AX_STP_LA [7:0] fall: Largest fall of I_coil per tick, units of 4 Q15 LSB -/
def R.AX_STP_LA.fall (i : Nat) : Fld := ⟨R.AX_STP_LA.adr i, 7, 0⟩
/-- Address of AX_STP_CHOP (chapter 09). -/
def R.AX_STP_CHOP.adr (i : Nat) : Nat := 0x200C4 + 0x100 * i
/-- AX_STP_CHOP [31:24] blank: Blanking time, units of 10 ns -/
def R.AX_STP_CHOP.blank (i : Nat) : Fld := ⟨R.AX_STP_CHOP.adr i, 31, 24⟩
/-- AX_STP_CHOP [23:16] fast_mix: Fast-decay share of toff, UQ0.8 -/
def R.AX_STP_CHOP.fast_mix (i : Nat) : Fld := ⟨R.AX_STP_CHOP.adr i, 23, 16⟩
/-- AX_STP_CHOP [15:8] toff: Off-time, units of 100 ns, 1–255 -/
def R.AX_STP_CHOP.toff (i : Nat) : Fld := ⟨R.AX_STP_CHOP.adr i, 15, 8⟩
/-- Address of AX_STP_STALL (chapter 09). -/
def R.AX_STP_STALL.adr (i : Nat) : Nat := 0x200C8 + 0x100 * i
/-- AX_STP_STALL [31:24] n_stall: Consecutive ticks beyond win, 1–255 -/
def R.AX_STP_STALL.n_stall (i : Nat) : Fld := ⟨R.AX_STP_STALL.adr i, 31, 24⟩
/-- AX_STP_STALL [15:0] win: Window, units of 1/256 full step (1.5 at reset) -/
def R.AX_STP_STALL.win (i : Nat) : Fld := ⟨R.AX_STP_STALL.adr i, 15, 0⟩
/-- Address of AX_STP_STAT (chapter 09). -/
def R.AX_STP_STAT.adr (i : Nat) : Nat := 0x200CC + 0x100 * i
/-- AX_STP_STAT [31:16] i_coil: I_coil of the present tick, Q15 of i_fs -/
def R.AX_STP_STAT.i_coil (i : Nat) : Fld := ⟨R.AX_STP_STAT.adr i, 31, 16⟩
/-- AX_STP_STAT [15:0] delta: Load angle, signed, units of 1/256 full step -/
def R.AX_STP_STAT.delta (i : Nat) : Fld := ⟨R.AX_STP_STAT.adr i, 15, 0⟩
/-- Address of AX_STP_DEV (chapter 09). -/
def R.AX_STP_DEV.adr (i : Nat) : Nat := 0x200D0 + 0x100 * i
/-- AX_STP_DEV [31:0] dev: dev of R327, signed, units of 1/256 full step -/
def R.AX_STP_DEV.dev (i : Nat) : Fld := ⟨R.AX_STP_DEV.adr i, 31, 0⟩
/-- Address of AX_STP_EVT (chapter 09). -/
def R.AX_STP_EVT.adr (i : Nat) : Nat := 0x200D4 + 0x100 * i
/-- AX_STP_EVT [4] open: The cell reported open_a or open_b -/
def R.AX_STP_EVT.open_ (i : Nat) : Fld := ⟨R.AX_STP_EVT.adr i, 4, 4⟩
/-- AX_STP_EVT [3] enc: Illegal transition with stall_en = 1 (R328) -/
def R.AX_STP_EVT.enc (i : Nat) : Fld := ⟨R.AX_STP_EVT.adr i, 3, 3⟩
/-- AX_STP_EVT [2] resync: Position resynchronised (R328) -/
def R.AX_STP_EVT.resync (i : Nat) : Fld := ⟨R.AX_STP_EVT.adr i, 2, 2⟩
/-- AX_STP_EVT [1] hold_i: The base current changed to i_hold -/
def R.AX_STP_EVT.hold_i (i : Nat) : Fld := ⟨R.AX_STP_EVT.adr i, 1, 1⟩
/-- AX_STP_EVT [0] stall: STALL declared -/
def R.AX_STP_EVT.stall (i : Nat) : Fld := ⟨R.AX_STP_EVT.adr i, 0, 0⟩
/-- Address of AX_FB_CFG (chapter 10). -/
def R.AX_FB_CFG.adr (i : Nat) : Nat := 0x200E0 + 0x100 * i
/-- AX_FB_CFG [31:16] hall_ofs: Electrical angle of boundary B_0, UQ0.16 (R337) -/
def R.AX_FB_CFG.hall_ofs (i : Nat) : Fld := ⟨R.AX_FB_CFG.adr i, 31, 16⟩
/-- AX_FB_CFG [15:8] ill_lim: Illegal transitions per tick that declare ROTOR_LOST; 0: never
(R336) -/
def R.AX_FB_CFG.ill_lim (i : Nat) : Fld := ⟨R.AX_FB_CFG.adr i, 15, 8⟩
/-- AX_FB_CFG [2:0] spd_flt: Speed filter, weight 2^−spd_flt (R335) -/
def R.AX_FB_CFG.spd_flt (i : Nat) : Fld := ⟨R.AX_FB_CFG.adr i, 2, 0⟩
/-- Address of AX_FB_POFS (chapter 10). -/
def R.AX_FB_POFS.adr (i : Nat) : Nat := 0x200E4 + 0x100 * i
/-- AX_FB_POFS [31:0] pofs: Position offset, signed pu (R334) -/
def R.AX_FB_POFS.pofs (i : Nat) : Fld := ⟨R.AX_FB_POFS.adr i, 31, 0⟩
/-- Address of AX_FB_POS (chapter 10). -/
def R.AX_FB_POS.adr (i : Nat) : Nat := 0x200E8 + 0x100 * i
/-- AX_FB_POS [31:0] p: Position at T(n), signed pu, low 32 bits -/
def R.AX_FB_POS.p (i : Nat) : Fld := ⟨R.AX_FB_POS.adr i, 31, 0⟩
/-- Address of AX_FB_SPD (chapter 10). -/
def R.AX_FB_SPD.adr (i : Nat) : Nat := 0x200EC + 0x100 * i
/-- AX_FB_SPD [31:0] spd: ω_fb of the source in use, signed, 0.001 rpm -/
def R.AX_FB_SPD.spd (i : Nat) : Fld := ⟨R.AX_FB_SPD.adr i, 31, 0⟩
/-- Address of AX_FB_STAT (chapter 10). -/
def R.AX_FB_STAT.adr (i : Nat) : Nat := 0x200F0 + 0x100 * i
/-- AX_FB_STAT [31:16] ill_tot: Illegal transitions, saturating at 65,535 (R336) -/
def R.AX_FB_STAT.ill_tot (i : Nat) : Fld := ⟨R.AX_FB_STAT.adr i, 31, 16⟩
/-- AX_FB_STAT [15:8] edge_age: Ticks since the last counted Hall edge, saturating -/
def R.AX_FB_STAT.edge_age (i : Nat) : Fld := ⟨R.AX_FB_STAT.adr i, 15, 8⟩
/-- AX_FB_STAT [7] h_valid: 1: the last fresh Hall code was valid -/
def R.AX_FB_STAT.h_valid (i : Nat) : Fld := ⟨R.AX_FB_STAT.adr i, 7, 7⟩
/-- AX_FB_STAT [6:4] sector: Hall sector, 0–5 -/
def R.AX_FB_STAT.sector (i : Nat) : Fld := ⟨R.AX_FB_STAT.adr i, 6, 4⟩
/-- AX_FB_STAT [2:0] hall: Last fresh Hall code h -/
def R.AX_FB_STAT.hall (i : Nat) : Fld := ⟨R.AX_FB_STAT.adr i, 2, 0⟩
/-- Address of AX_FB_EVT (chapter 10). -/
def R.AX_FB_EVT.adr (i : Nat) : Nat := 0x200F4 + 0x100 * i
/-- AX_FB_EVT [5] emu_lost: Emulation carry discarded (R344) -/
def R.AX_FB_EVT.emu_lost (i : Nat) : Fld := ⟨R.AX_FB_EVT.adr i, 5, 5⟩
/-- AX_FB_EVT [4] emu_miss: Counts re-sent after cmd_miss (R344) -/
def R.AX_FB_EVT.emu_miss (i : Nat) : Fld := ⟨R.AX_FB_EVT.adr i, 4, 4⟩
/-- AX_FB_EVT [3] emu_sat: Counts carried (R343) -/
def R.AX_FB_EVT.emu_sat (i : Nat) : Fld := ⟨R.AX_FB_EVT.adr i, 3, 3⟩
/-- AX_FB_EVT [2] h_inv: Invalid Hall code (R339) -/
def R.AX_FB_EVT.h_inv (i : Nat) : Fld := ⟨R.AX_FB_EVT.adr i, 2, 2⟩
/-- AX_FB_EVT [1] h_ill: Illegal Hall transition (R338) -/
def R.AX_FB_EVT.h_ill (i : Nat) : Fld := ⟨R.AX_FB_EVT.adr i, 1, 1⟩
/-- AX_FB_EVT [0] ill: Illegal quadrature transition (R336) -/
def R.AX_FB_EVT.ill (i : Nat) : Fld := ⟨R.AX_FB_EVT.adr i, 0, 0⟩
/-- Address of AX_EMU_CFG (chapter 10). -/
def R.AX_EMU_CFG.adr (i : Nat) : Nat := 0x200F8 + 0x100 * i
/-- AX_EMU_CFG [31] en: 1: emulation running (R342, R345) -/
def R.AX_EMU_CFG.en (i : Nat) : Fld := ⟨R.AX_EMU_CFG.adr i, 31, 31⟩
/-- AX_EMU_CFG [30] src: 0: measured p; 1: profile p_ref -/
def R.AX_EMU_CFG.src (i : Nat) : Fld := ⟨R.AX_EMU_CFG.adr i, 30, 30⟩
/-- AX_EMU_CFG [23:16] stn: Station address of the PR output -/
def R.AX_EMU_CFG.stn (i : Nat) : Fld := ⟨R.AX_EMU_CFG.adr i, 23, 16⟩
/-- AX_EMU_CFG [2:0] out: PR output, 0–7 -/
def R.AX_EMU_CFG.out (i : Nat) : Fld := ⟨R.AX_EMU_CFG.adr i, 2, 0⟩
/-- Address of AX_EMU_RES (chapter 10). -/
def R.AX_EMU_RES.adr (i : Nat) : Nat := 0x200FC + 0x100 * i
/-- AX_EMU_RES [31:0] res: Quadrature counts per revolution, 1–2³¹ -/
def R.AX_EMU_RES.res (i : Nat) : Fld := ⟨R.AX_EMU_RES.adr i, 31, 0⟩
/-- Address of AX_CMP_POOL (chapter 10). -/
def R.AX_CMP_POOL.adr : Nat := 0x28000
/-- AX_CMP_POOL [31:0] base: Canvas window address of pool entry 0, 8-byte aligned -/
def R.AX_CMP_POOL.base : Fld := ⟨R.AX_CMP_POOL.adr, 31, 0⟩
/-- Address of AX_CMP_CFG (chapter 10). -/
def R.AX_CMP_CFG.adr (i : Nat) : Nat := 0x28100 + 0x20 * i
/-- AX_CMP_CFG [31] arm: 1: armed; 0: disarmed (R357) -/
def R.AX_CMP_CFG.arm (i : Nat) : Fld := ⟨R.AX_CMP_CFG.adr i, 31, 31⟩
/-- AX_CMP_CFG [30] src: 0 reference, 1 measured (R354) -/
def R.AX_CMP_CFG.src (i : Nat) : Fld := ⟨R.AX_CMP_CFG.adr i, 30, 30⟩
/-- AX_CMP_CFG [29] cyc: 1: continue at the first entry after the last (R350) -/
def R.AX_CMP_CFG.cyc (i : Nat) : Fld := ⟨R.AX_CMP_CFG.adr i, 29, 29⟩
/-- AX_CMP_CFG [22:16] axis: Axis, 0–127 -/
def R.AX_CMP_CFG.axis (i : Nat) : Fld := ⟨R.AX_CMP_CFG.adr i, 22, 16⟩
/-- AX_CMP_CFG [15:8] stn: Station of the timed output -/
def R.AX_CMP_CFG.stn (i : Nat) : Fld := ⟨R.AX_CMP_CFG.adr i, 15, 8⟩
/-- AX_CMP_CFG [7:0] out: Timed-output point -/
def R.AX_CMP_CFG.out (i : Nat) : Fld := ⟨R.AX_CMP_CFG.adr i, 7, 0⟩
/-- Address of AX_CMP_SPAN (chapter 10). -/
def R.AX_CMP_SPAN.adr (i : Nat) : Nat := 0x28104 + 0x20 * i
/-- AX_CMP_SPAN [31:16] first: First pool entry, 0–65,535 -/
def R.AX_CMP_SPAN.first (i : Nat) : Fld := ⟨R.AX_CMP_SPAN.adr i, 31, 16⟩
/-- AX_CMP_SPAN [15:0] len_m1: Entries minus 1 (R347) -/
def R.AX_CMP_SPAN.len_m1 (i : Nat) : Fld := ⟨R.AX_CMP_SPAN.adr i, 15, 0⟩
/-- Address of AX_CMP_STAT (chapter 10). -/
def R.AX_CMP_STAT.adr (i : Nat) : Nat := 0x28108 + 0x20 * i
/-- AX_CMP_STAT [31:16] next: Index of the next entry within the list -/
def R.AX_CMP_STAT.next (i : Nat) : Fld := ⟨R.AX_CMP_STAT.adr i, 31, 16⟩
/-- AX_CMP_STAT [15:8] staged: Staged entries not yet fired -/
def R.AX_CMP_STAT.staged (i : Nat) : Fld := ⟨R.AX_CMP_STAT.adr i, 15, 8⟩
/-- AX_CMP_STAT [1:0] state: 0 disarmed, 1 armed, 2 armed and held (axis not Enabled), 3 done -/
def R.AX_CMP_STAT.state (i : Nat) : Fld := ⟨R.AX_CMP_STAT.adr i, 1, 0⟩
/-- Address of AX_CMP_EVT (chapter 10). -/
def R.AX_CMP_EVT.adr (i : Nat) : Nat := 0x2810C + 0x20 * i
/-- AX_CMP_EVT [4] cfg_rej: A write or an entry was rejected (R348, R360) -/
def R.AX_CMP_EVT.cfg_rej (i : Nat) : Fld := ⟨R.AX_CMP_EVT.adr i, 4, 4⟩
/-- AX_CMP_EVT [3] late: RETRACT_LATE logged (R356) -/
def R.AX_CMP_EVT.late (i : Nat) : Fld := ⟨R.AX_CMP_EVT.adr i, 3, 3⟩
/-- AX_CMP_EVT [2] retract: An entry was retracted (R356, R357) -/
def R.AX_CMP_EVT.retract (i : Nat) : Fld := ⟨R.AX_CMP_EVT.adr i, 2, 2⟩
/-- AX_CMP_EVT [1] miss: A crossing was missed (R352) -/
def R.AX_CMP_EVT.miss (i : Nat) : Fld := ⟨R.AX_CMP_EVT.adr i, 1, 1⟩
/-- AX_CMP_EVT [0] done: The list reached its end (R350) -/
def R.AX_CMP_EVT.done (i : Nat) : Fld := ⟨R.AX_CMP_EVT.adr i, 0, 0⟩
/-- Address of AX_CMP_CNT (chapter 10). -/
def R.AX_CMP_CNT.adr (i : Nat) : Nat := 0x28110 + 0x20 * i
/-- AX_CMP_CNT [31:16] fired: Entries counted as fired, saturating -/
def R.AX_CMP_CNT.fired (i : Nat) : Fld := ⟨R.AX_CMP_CNT.adr i, 31, 16⟩
/-- AX_CMP_CNT [15:0] missed: Crossings missed, saturating -/
def R.AX_CMP_CNT.missed (i : Nat) : Fld := ⟨R.AX_CMP_CNT.adr i, 15, 0⟩
/-- Address of AX_CMP_CTRL (chapter 10). -/
def R.AX_CMP_CTRL.adr (i : Nat) : Nat := 0x28114 + 0x20 * i
/-- AX_CMP_CTRL [1] cnt_clr: 1: clear AX_CMP_CNT -/
def R.AX_CMP_CTRL.cnt_clr (i : Nat) : Fld := ⟨R.AX_CMP_CTRL.adr i, 1, 1⟩
/-- AX_CMP_CTRL [0] rewind: 1: set next to 0 and seq to 0; disarmed lists only (R357) -/
def R.AX_CMP_CTRL.rewind (i : Nat) : Fld := ⟨R.AX_CMP_CTRL.adr i, 0, 0⟩
/-- Address of AX_CMP_LAST (chapter 10). -/
def R.AX_CMP_LAST.adr (i : Nat) : Nat := 0x28118 + 0x20 * i
/-- AX_CMP_LAST [31:0] fire: Frame time of the last staged entry -/
def R.AX_CMP_LAST.fire (i : Nat) : Fld := ⟨R.AX_CMP_LAST.adr i, 31, 0⟩
/-- Address of AX_CMP_CFG2 (chapter 10). -/
def R.AX_CMP_CFG2.adr (i : Nat) : Nat := 0x2811C + 0x20 * i
/-- AX_CMP_CFG2 [31:16] tol_ns: Re-prediction tolerance, ns (100 at reset) (R356) -/
def R.AX_CMP_CFG2.tol_ns (i : Nat) : Fld := ⟨R.AX_CMP_CFG2.adr i, 31, 16⟩
/-- AX_CMP_CFG2 [15:8] to_first: First reserved entry of the station's TO block (R352) -/
def R.AX_CMP_CFG2.to_first (i : Nat) : Fld := ⟨R.AX_CMP_CFG2.adr i, 15, 8⟩
/-- AX_CMP_CFG2 [2:0] to_n: Reserved TO entries, 1–4 -/
def R.AX_CMP_CFG2.to_n (i : Nat) : Fld := ⟨R.AX_CMP_CFG2.adr i, 2, 0⟩
/-- Address of PL_CFG (chapter 11). -/
def R.PL_CFG.adr (i : Nat) : Nat := 0x30000 + 0x40 * i
/-- PL_CFG [31] en: 1: loop enabled (R372) -/
def R.PL_CFG.en (i : Nat) : Fld := ⟨R.PL_CFG.adr i, 31, 31⟩
/-- PL_CFG [30] grp_en: 1: member of group grp (R367) -/
def R.PL_CFG.grp_en (i : Nat) : Fld := ⟨R.PL_CFG.adr i, 30, 30⟩
/-- PL_CFG [29:23] grp: Override group, 0–95 -/
def R.PL_CFG.grp (i : Nat) : Fld := ⟨R.PL_CFG.adr i, 29, 23⟩
/-- PL_CFG [22] act: 0 direct, 1 reverse (R365) -/
def R.PL_CFG.act (i : Nat) : Fld := ⟨R.PL_CFG.adr i, 22, 22⟩
/-- PL_CFG [21:12] div_m1: N − 1 (R362) -/
def R.PL_CFG.div_m1 (i : Nat) : Fld := ⟨R.PL_CFG.adr i, 21, 12⟩
/-- PL_CFG [9:0] phase: Run phase, 0 to N − 1 -/
def R.PL_CFG.phase (i : Nat) : Fld := ⟨R.PL_CFG.adr i, 9, 0⟩
/-- Address of PL_CTRL (chapter 11). -/
def R.PL_CTRL.adr (i : Nat) : Nat := 0x30004 + 0x40 * i
/-- PL_CTRL [3] reset: 1: leave Fault (R372) -/
def R.PL_CTRL.reset (i : Nat) : Fld := ⟨R.PL_CTRL.adr i, 3, 3⟩
/-- PL_CTRL [2] resume: 1: leave Hold -/
def R.PL_CTRL.resume (i : Nat) : Fld := ⟨R.PL_CTRL.adr i, 2, 2⟩
/-- PL_CTRL [1] manual: 1: open the loop -/
def R.PL_CTRL.manual (i : Nat) : Fld := ⟨R.PL_CTRL.adr i, 1, 1⟩
/-- PL_CTRL [0] auto: 1: close the loop -/
def R.PL_CTRL.auto (i : Nat) : Fld := ⟨R.PL_CTRL.adr i, 0, 0⟩
/-- Address of PL_STATE (chapter 11). -/
def R.PL_STATE.adr (i : Nat) : Nat := 0x30008 + 0x40 * i
/-- PL_STATE [31:24] age: Slot age of in_stn -/
def R.PL_STATE.age (i : Nat) : Fld := ⟨R.PL_STATE.adr i, 31, 24⟩
/-- PL_STATE [23:8] resid: Model residual r, signed Q15 of range -/
def R.PL_STATE.resid (i : Nat) : Fld := ⟨R.PL_STATE.adr i, 23, 8⟩
/-- PL_STATE [7] mdl: 1: model count reached n (R380) -/
def R.PL_STATE.mdl (i : Nat) : Fld := ⟨R.PL_STATE.adr i, 7, 7⟩
/-- PL_STATE [6] ts_stale: 1: t_s beyond ts_lim_ms (R377) -/
def R.PL_STATE.ts_stale (i : Nat) : Fld := ⟨R.PL_STATE.adr i, 6, 6⟩
/-- PL_STATE [5] aged: 1: last run on aged input -/
def R.PL_STATE.aged (i : Nat) : Fld := ⟨R.PL_STATE.adr i, 5, 5⟩
/-- PL_STATE [4] sel: 1: selected in its group (R370) -/
def R.PL_STATE.sel (i : Nat) : Fld := ⟨R.PL_STATE.adr i, 4, 4⟩
/-- PL_STATE [2:0] state: State code (R371) -/
def R.PL_STATE.state (i : Nat) : Fld := ⟨R.PL_STATE.adr i, 2, 0⟩
/-- Address of PL_EVT (chapter 11). -/
def R.PL_EVT.adr (i : Nat) : Nat := 0x3000C + 0x40 * i
/-- PL_EVT [7] coef_rej: Coefficient write rejected (R375) -/
def R.PL_EVT.coef_rej (i : Nat) : Fld := ⟨R.PL_EVT.adr i, 7, 7⟩
/-- PL_EVT [6] cfg_rej: Write rejected (R381) -/
def R.PL_EVT.cfg_rej (i : Nat) : Fld := ⟨R.PL_EVT.adr i, 6, 6⟩
/-- PL_EVT [5] ctrl_rej: Control rejected (R372) -/
def R.PL_EVT.ctrl_rej (i : Nat) : Fld := ⟨R.PL_EVT.adr i, 5, 5⟩
/-- PL_EVT [4] fault: Loop fault (R378) -/
def R.PL_EVT.fault (i : Nat) : Fld := ⟨R.PL_EVT.adr i, 4, 4⟩
/-- PL_EVT [3] inv: Invalid result (R378) -/
def R.PL_EVT.inv (i : Nat) : Fld := ⟨R.PL_EVT.adr i, 3, 3⟩
/-- PL_EVT [2] model: Model supervision tripped (R380) -/
def R.PL_EVT.model (i : Nat) : Fld := ⟨R.PL_EVT.adr i, 2, 2⟩
/-- PL_EVT [1] hold: Entered Hold -/
def R.PL_EVT.hold (i : Nat) : Fld := ⟨R.PL_EVT.adr i, 1, 1⟩
/-- PL_EVT [0] state: State changed -/
def R.PL_EVT.state (i : Nat) : Fld := ⟨R.PL_EVT.adr i, 0, 0⟩
/-- Address of PL_IO (chapter 11). -/
def R.PL_IO.adr (i : Nat) : Nat := 0x30010 + 0x40 * i
/-- PL_IO [31:24] in_stn: Station of the measurement -/
def R.PL_IO.in_stn (i : Nat) : Fld := ⟨R.PL_IO.adr i, 31, 24⟩
/-- PL_IO [23:18] in_ch: AI channel, 0–63 -/
def R.PL_IO.in_ch (i : Nat) : Fld := ⟨R.PL_IO.adr i, 23, 18⟩
/-- PL_IO [16] dst: 0 Canvas only, 1 AO channel (R364) -/
def R.PL_IO.dst (i : Nat) : Fld := ⟨R.PL_IO.adr i, 16, 16⟩
/-- PL_IO [15:8] out_stn: Station of the output -/
def R.PL_IO.out_stn (i : Nat) : Fld := ⟨R.PL_IO.adr i, 15, 8⟩
/-- PL_IO [7:2] out_ch: AO channel, 0–63 -/
def R.PL_IO.out_ch (i : Nat) : Fld := ⟨R.PL_IO.adr i, 7, 2⟩
/-- Address of PL_SP (chapter 11). -/
def R.PL_SP.adr (i : Nat) : Nat := 0x30014 + 0x40 * i
/-- PL_SP [15:0] sp: Setpoint, Q15 of range -/
def R.PL_SP.sp (i : Nat) : Fld := ⟨R.PL_SP.adr i, 15, 0⟩
/-- Address of PL_MAN (chapter 11). -/
def R.PL_MAN.adr (i : Nat) : Nat := 0x30018 + 0x40 * i
/-- PL_MAN [31:16] fail: Output in Fault with fail_sel = 1, Q15 -/
def R.PL_MAN.fail (i : Nat) : Fld := ⟨R.PL_MAN.adr i, 31, 16⟩
/-- PL_MAN [15:0] man: Output in Manual, Q15 (R372) -/
def R.PL_MAN.man (i : Nat) : Fld := ⟨R.PL_MAN.adr i, 15, 0⟩
/-- Address of PL_LIM (chapter 11). -/
def R.PL_LIM.adr (i : Nat) : Nat := 0x3001C + 0x40 * i
/-- PL_LIM [31:16] hi: Upper limit, Q15 -/
def R.PL_LIM.hi (i : Nat) : Fld := ⟨R.PL_LIM.adr i, 31, 16⟩
/-- PL_LIM [15:0] lo: Lower limit, Q15, less than hi -/
def R.PL_LIM.lo (i : Nat) : Fld := ⟨R.PL_LIM.adr i, 15, 0⟩
/-- Address of PL_KP (chapter 11). -/
def R.PL_KP.adr (i : Nat) : Nat := 0x30020 + 0x40 * i
/-- PL_KP [18:16] g_sh: Gain shift, 0–7 (R366) -/
def R.PL_KP.g_sh (i : Nat) : Fld := ⟨R.PL_KP.adr i, 18, 16⟩
/-- PL_KP [15:0] kp: Q15, scaled by 2^−g_sh -/
def R.PL_KP.kp (i : Nat) : Fld := ⟨R.PL_KP.adr i, 15, 0⟩
/-- Address of PL_KI (chapter 11). -/
def R.PL_KI.adr (i : Nat) : Nat := 0x30024 + 0x40 * i
/-- PL_KI [30:16] kt: K_t, UQ0.15 (0.5 at reset) -/
def R.PL_KI.kt (i : Nat) : Fld := ⟨R.PL_KI.adr i, 30, 16⟩
/-- PL_KI [15:0] ki: Q15 per run, scaled by 2^−g_sh -/
def R.PL_KI.ki (i : Nat) : Fld := ⟨R.PL_KI.adr i, 15, 0⟩
/-- Address of PL_KD (chapter 11). -/
def R.PL_KD.adr (i : Nat) : Nat := 0x30028 + 0x40 * i
/-- PL_KD [30:16] af: Filter coefficient a_f, UQ0.15 -/
def R.PL_KD.af (i : Nat) : Fld := ⟨R.PL_KD.adr i, 30, 16⟩
/-- PL_KD [15:0] kd: Q15, scaled by 2^−g_sh -/
def R.PL_KD.kd (i : Nat) : Fld := ⟨R.PL_KD.adr i, 15, 0⟩
/-- Address of PL_AGE_LIM (chapter 11). -/
def R.PL_AGE_LIM.adr (i : Nat) : Nat := 0x3002C + 0x40 * i
/-- PL_AGE_LIM [31:16] ts_lim_ms: Sample-age limit in ms; 0: not checked (R377) -/
def R.PL_AGE_LIM.ts_lim_ms (i : Nat) : Fld := ⟨R.PL_AGE_LIM.adr i, 31, 16⟩
/-- PL_AGE_LIM [7:0] age_lim: Age limit, 1–254 (R146) -/
def R.PL_AGE_LIM.age_lim (i : Nat) : Fld := ⟨R.PL_AGE_LIM.adr i, 7, 0⟩
/-- Address of PL_MDL (chapter 11). -/
def R.PL_MDL.adr (i : Nat) : Nat := 0x30030 + 0x40 * i
/-- PL_MDL [31:16] a: exp(−T_s / τ), UQ0.16 (R379) -/
def R.PL_MDL.a (i : Nat) : Fld := ⟨R.PL_MDL.adr i, 31, 16⟩
/-- PL_MDL [15:0] kg: Process gain, Q3.12 -/
def R.PL_MDL.kg (i : Nat) : Fld := ⟨R.PL_MDL.adr i, 15, 0⟩
/-- Address of PL_MDL2 (chapter 11). -/
def R.PL_MDL2.adr (i : Nat) : Nat := 0x30034 + 0x40 * i
/-- PL_MDL2 [31:24] d: Dead time, runs, 0–255 -/
def R.PL_MDL2.d (i : Nat) : Fld := ⟨R.PL_MDL2.adr i, 31, 24⟩
/-- PL_MDL2 [23:16] n: Consecutive runs beyond win, 1–255 -/
def R.PL_MDL2.n (i : Nat) : Fld := ⟨R.PL_MDL2.adr i, 23, 16⟩
/-- PL_MDL2 [14:0] win: Residual window, UQ0.15 of range (0.05 at reset) -/
def R.PL_MDL2.win (i : Nat) : Fld := ⟨R.PL_MDL2.adr i, 14, 0⟩
/-- Address of PL_OUT (chapter 11). -/
def R.PL_OUT.adr (i : Nat) : Nat := 0x30038 + 0x40 * i
/-- PL_OUT [31:16] pv: pv of the last run, Q15 -/
def R.PL_OUT.pv (i : Nat) : Fld := ⟨R.PL_OUT.adr i, 31, 16⟩
/-- PL_OUT [15:0] u: Output sent after the last run, Q15 -/
def R.PL_OUT.u (i : Nat) : Fld := ⟨R.PL_OUT.adr i, 15, 0⟩
/-- Address of PL_POL (chapter 11). -/
def R.PL_POL.adr (i : Nat) : Nat := 0x3003C + 0x40 * i
/-- PL_POL [5] fail_sel: 0: hold output in Fault; 1: PL_MAN.fail -/
def R.PL_POL.fail_sel (i : Nat) : Fld := ⟨R.PL_POL.adr i, 5, 5⟩
/-- PL_POL [4:3] mdl_act: 0 record, 1 Hold; 2–3 reserved (R380) -/
def R.PL_POL.mdl_act (i : Nat) : Fld := ⟨R.PL_POL.adr i, 4, 3⟩
/-- PL_POL [2] mdl_en: 1: model supervision running -/
def R.PL_POL.mdl_en (i : Nat) : Fld := ⟨R.PL_POL.adr i, 2, 2⟩
/-- PL_POL [1] ovf_pol: 0 freeze output; 1 Hold at first invalid result (R378) -/
def R.PL_POL.ovf_pol (i : Nat) : Fld := ⟨R.PL_POL.adr i, 1, 1⟩
/-- Address of PL_GRP_STAT (chapter 11). -/
def R.PL_GRP_STAT.adr (i : Nat) : Nat := 0x38000 + 0x10 * i
/-- PL_GRP_STAT [31:16] u_g: Group output, Q15 -/
def R.PL_GRP_STAT.u_g (i : Nat) : Fld := ⟨R.PL_GRP_STAT.adr i, 31, 16⟩
/-- PL_GRP_STAT [15:12] n_mem: Members, 0–4 -/
def R.PL_GRP_STAT.n_mem (i : Nat) : Fld := ⟨R.PL_GRP_STAT.adr i, 15, 12⟩
/-- PL_GRP_STAT [11:9] gstate: Group state, coded as PL_STATE.state (R368) -/
def R.PL_GRP_STAT.gstate (i : Nat) : Fld := ⟨R.PL_GRP_STAT.adr i, 11, 9⟩
/-- PL_GRP_STAT [8:0] sel: Selected loop -/
def R.PL_GRP_STAT.sel (i : Nat) : Fld := ⟨R.PL_GRP_STAT.adr i, 8, 0⟩
/-- Address of PL_GRP_CNT (chapter 11). -/
def R.PL_GRP_CNT.adr (i : Nat) : Nat := 0x38004 + 0x10 * i
/-- PL_GRP_CNT [31:0] chg: Selection changes (R370), saturating -/
def R.PL_GRP_CNT.chg (i : Nat) : Fld := ⟨R.PL_GRP_CNT.adr i, 31, 0⟩
/-- Address of PL_GRP_MAN (chapter 11). -/
def R.PL_GRP_MAN.adr (i : Nat) : Nat := 0x38008 + 0x10 * i
/-- PL_GRP_MAN [15:0] man: Output while the group is Manual, Q15 -/
def R.PL_GRP_MAN.man (i : Nat) : Fld := ⟨R.PL_GRP_MAN.adr i, 15, 0⟩
/-- Address of PL_GRP_CTRL (chapter 11). -/
def R.PL_GRP_CTRL.adr (i : Nat) : Nat := 0x3800C + 0x10 * i
/-- PL_GRP_CTRL [0] cnt_clr: 1: clear PL_GRP_CNT -/
def R.PL_GRP_CTRL.cnt_clr (i : Nat) : Fld := ⟨R.PL_GRP_CTRL.adr i, 0, 0⟩
/-- Address of AT_CFG (chapter 12). -/
def R.AT_CFG.adr : Nat := 0x50000
/-- AT_CFG [5:0] horizon: Staging horizon in ticks, 2–32 (R398) -/
def R.AT_CFG.horizon : Fld := ⟨R.AT_CFG.adr, 5, 0⟩
/-- Address of AT_EVT (chapter 12). -/
def R.AT_EVT.adr : Nat := 0x50004
/-- AT_EVT [5] cfg_rej: A write was rejected (R422) -/
def R.AT_EVT.cfg_rej : Fld := ⟨R.AT_EVT.adr, 5, 5⟩
/-- AT_EVT [4] task_ovr: A task overran or a trigger was merged (R412, R413) -/
def R.AT_EVT.task_ovr : Fld := ⟨R.AT_EVT.adr, 4, 4⟩
/-- AT_EVT [3] jnl_err: A journal write failed (R419) -/
def R.AT_EVT.jnl_err : Fld := ⟨R.AT_EVT.adr, 3, 3⟩
/-- AT_EVT [2] jnl_skip: A queued journal entry was replaced (R419) -/
def R.AT_EVT.jnl_skip : Fld := ⟨R.AT_EVT.adr, 2, 2⟩
/-- AT_EVT [1] retract_late: RETRACT_LATE logged (R403) -/
def R.AT_EVT.retract_late : Fld := ⟨R.AT_EVT.adr, 1, 1⟩
/-- AT_EVT [0] stage_late: An action was staged late (R399) -/
def R.AT_EVT.stage_late : Fld := ⟨R.AT_EVT.adr, 0, 0⟩
/-- Address of AT_POOL (chapter 12). -/
def R.AT_POOL.adr : Nat := 0x50008
/-- AT_POOL [31:0] base: Canvas window address of record 0, 16-byte aligned -/
def R.AT_POOL.base : Fld := ⟨R.AT_POOL.adr, 31, 0⟩
/-- Address of AT_JNL_STAT (chapter 12). -/
def R.AT_JNL_STAT.adr : Nat := 0x5000C
/-- AT_JNL_STAT [31:16] bad: Entries ignored for a failed CRC (R420) -/
def R.AT_JNL_STAT.bad : Fld := ⟨R.AT_JNL_STAT.adr, 31, 16⟩
/-- AT_JNL_STAT [15:0] valid: Valid entries found, 0–4,096 -/
def R.AT_JNL_STAT.valid : Fld := ⟨R.AT_JNL_STAT.adr, 15, 0⟩
/-- Address of AT_JNL_SEQ (chapter 12). -/
def R.AT_JNL_SEQ.adr : Nat := 0x50010
/-- AT_JNL_SEQ [31:0] seq: seq of the last entry written -/
def R.AT_JNL_SEQ.seq : Fld := ⟨R.AT_JNL_SEQ.adr, 31, 0⟩
/-- Address of AT_RCP_CFG (chapter 12). -/
def R.AT_RCP_CFG.adr (i : Nat) : Nat := 0x50400 + 0x20 * i
/-- AT_RCP_CFG [31:15] hdr: Record index of the header (R384) -/
def R.AT_RCP_CFG.hdr (i : Nat) : Fld := ⟨R.AT_RCP_CFG.adr i, 31, 15⟩
/-- AT_RCP_CFG [11:0] last: Index of the last step -/
def R.AT_RCP_CFG.last (i : Nat) : Fld := ⟨R.AT_RCP_CFG.adr i, 11, 0⟩
/-- Address of AT_RCP_CTRL (chapter 12). -/
def R.AT_RCP_CTRL.adr (i : Nat) : Nat := 0x50404 + 0x20 * i
/-- AT_RCP_CTRL [27:16] step: First step for start -/
def R.AT_RCP_CTRL.step (i : Nat) : Fld := ⟨R.AT_RCP_CTRL.adr i, 27, 16⟩
/-- AT_RCP_CTRL [5] resume_jnl: 1: enter HELD from the journal (R421) -/
def R.AT_RCP_CTRL.resume_jnl (i : Nat) : Fld := ⟨R.AT_RCP_CTRL.adr i, 5, 5⟩
/-- AT_RCP_CTRL [4] reset: 1: DONE or ABORTED to IDLE -/
def R.AT_RCP_CTRL.reset (i : Nat) : Fld := ⟨R.AT_RCP_CTRL.adr i, 4, 4⟩
/-- AT_RCP_CTRL [3] abort: 1: abort (R407) -/
def R.AT_RCP_CTRL.abort (i : Nat) : Fld := ⟨R.AT_RCP_CTRL.adr i, 3, 3⟩
/-- AT_RCP_CTRL [2] resume: 1: resume from HELD (R408) -/
def R.AT_RCP_CTRL.resume (i : Nat) : Fld := ⟨R.AT_RCP_CTRL.adr i, 2, 2⟩
/-- AT_RCP_CTRL [1] hold: 1: hold (R406) -/
def R.AT_RCP_CTRL.hold (i : Nat) : Fld := ⟨R.AT_RCP_CTRL.adr i, 1, 1⟩
/-- AT_RCP_CTRL [0] start: 1: start at step (R392) -/
def R.AT_RCP_CTRL.start (i : Nat) : Fld := ⟨R.AT_RCP_CTRL.adr i, 0, 0⟩
/-- Address of AT_RCP_STAT (chapter 12). -/
def R.AT_RCP_STAT.adr (i : Nat) : Nat := 0x50408 + 0x20 * i
/-- AT_RCP_STAT [31:28] cause: Cause (R391) -/
def R.AT_RCP_STAT.cause (i : Nat) : Fld := ⟨R.AT_RCP_STAT.adr i, 31, 28⟩
/-- AT_RCP_STAT [27:16] step: Present or held step -/
def R.AT_RCP_STAT.step (i : Nat) : Fld := ⟨R.AT_RCP_STAT.adr i, 27, 16⟩
/-- AT_RCP_STAT [15:8] staged: Actions staged and not yet judged or fired -/
def R.AT_RCP_STAT.staged (i : Nat) : Fld := ⟨R.AT_RCP_STAT.adr i, 15, 8⟩
/-- AT_RCP_STAT [7] jnl_valid: 1: a resumable journal entry exists (R420) -/
def R.AT_RCP_STAT.jnl_valid (i : Nat) : Fld := ⟨R.AT_RCP_STAT.adr i, 7, 7⟩
/-- AT_RCP_STAT [6] started: 1: the held step had started -/
def R.AT_RCP_STAT.started (i : Nat) : Fld := ⟨R.AT_RCP_STAT.adr i, 6, 6⟩
/-- AT_RCP_STAT [2:0] state: State code (R391) -/
def R.AT_RCP_STAT.state (i : Nat) : Fld := ⟨R.AT_RCP_STAT.adr i, 2, 0⟩
/-- Address of AT_RCP_EVT (chapter 12). -/
def R.AT_RCP_EVT.adr (i : Nat) : Nat := 0x5040C + 0x20 * i
/-- AT_RCP_EVT [10] cond_bad: A term found bad quality (R389) -/
def R.AT_RCP_EVT.cond_bad (i : Nat) : Fld := ⟨R.AT_RCP_EVT.adr i, 10, 10⟩
/-- AT_RCP_EVT [9] ctrl_rej: A control was rejected (R422) -/
def R.AT_RCP_EVT.ctrl_rej (i : Nat) : Fld := ⟨R.AT_RCP_EVT.adr i, 9, 9⟩
/-- AT_RCP_EVT [8] act_rej: An action was rejected (R397) -/
def R.AT_RCP_EVT.act_rej (i : Nat) : Fld := ⟨R.AT_RCP_EVT.adr i, 8, 8⟩
/-- AT_RCP_EVT [7] stage_late: An action was staged late (R399) -/
def R.AT_RCP_EVT.stage_late (i : Nat) : Fld := ⟨R.AT_RCP_EVT.adr i, 7, 7⟩
/-- AT_RCP_EVT [6] done: Entered DONE -/
def R.AT_RCP_EVT.done (i : Nat) : Fld := ⟨R.AT_RCP_EVT.adr i, 6, 6⟩
/-- AT_RCP_EVT [5] abort: Entered ABORTING -/
def R.AT_RCP_EVT.abort (i : Nat) : Fld := ⟨R.AT_RCP_EVT.adr i, 5, 5⟩
/-- AT_RCP_EVT [4] hold: Entered HOLDING -/
def R.AT_RCP_EVT.hold (i : Nat) : Fld := ⟨R.AT_RCP_EVT.adr i, 4, 4⟩
/-- AT_RCP_EVT [3] comp: A compensation block ran (R404) -/
def R.AT_RCP_EVT.comp (i : Nat) : Fld := ⟨R.AT_RCP_EVT.adr i, 3, 3⟩
/-- AT_RCP_EVT [2] retract_late: RETRACT_LATE logged (R403) -/
def R.AT_RCP_EVT.retract_late (i : Nat) : Fld := ⟨R.AT_RCP_EVT.adr i, 2, 2⟩
/-- AT_RCP_EVT [1] guard_fail: A step was cancelled (R393) -/
def R.AT_RCP_EVT.guard_fail (i : Nat) : Fld := ⟨R.AT_RCP_EVT.adr i, 1, 1⟩
/-- AT_RCP_EVT [0] step: A step started -/
def R.AT_RCP_EVT.step (i : Nat) : Fld := ⟨R.AT_RCP_EVT.adr i, 0, 0⟩
/-- Address of AT_RCP_ELAP (chapter 12). -/
def R.AT_RCP_ELAP.adr (i : Nat) : Nat := 0x50410 + 0x20 * i
/-- AT_RCP_ELAP [31:0] elap: Ticks since the present or held step started -/
def R.AT_RCP_ELAP.elap (i : Nat) : Fld := ⟨R.AT_RCP_ELAP.adr i, 31, 0⟩
/-- Address of AT_RCP_LAYER (chapter 12). -/
def R.AT_RCP_LAYER.adr (i : Nat) : Nat := 0x50414 + 0x20 * i
/-- AT_RCP_LAYER [31:0] layer: Layers closed, restored by R421 -/
def R.AT_RCP_LAYER.layer (i : Nat) : Fld := ⟨R.AT_RCP_LAYER.adr i, 31, 0⟩
/-- Address of AT_TASK_CFG (chapter 12). -/
def R.AT_TASK_CFG.adr (i : Nat) (j : Nat) : Nat := 0x51000 + 0x200 * i + 0x8 * j
/-- AT_TASK_CFG [31] en: 1: task in use -/
def R.AT_TASK_CFG.en (i : Nat) (j : Nat) : Fld := ⟨R.AT_TASK_CFG.adr i j, 31, 31⟩
/-- AT_TASK_CFG [30] event: 0 cyclic, 1 event (R411) -/
def R.AT_TASK_CFG.event (i : Nat) (j : Nat) : Fld := ⟨R.AT_TASK_CFG.adr i j, 30, 30⟩
/-- AT_TASK_CFG [29:26] trig: Trigger kind for an event task (R413) -/
def R.AT_TASK_CFG.trig (i : Nat) (j : Nat) : Fld := ⟨R.AT_TASK_CFG.adr i j, 29, 26⟩
/-- AT_TASK_CFG [25:16] thr: Thread, 128–1,023 -/
def R.AT_TASK_CFG.thr (i : Nat) (j : Nat) : Fld := ⟨R.AT_TASK_CFG.adr i j, 25, 16⟩
/-- AT_TASK_CFG [11:0] idx: Easel timer 0–63 for a cyclic task; trigger index for an event task -/
def R.AT_TASK_CFG.idx (i : Nat) (j : Nat) : Fld := ⟨R.AT_TASK_CFG.adr i j, 11, 0⟩
/-- Address of AT_TASK_STAT (chapter 12). -/
def R.AT_TASK_STAT.adr (i : Nat) (j : Nat) : Nat := 0x51004 + 0x200 * i + 0x8 * j
/-- AT_TASK_STAT [31:16] ovr: Overruns and merged triggers, saturating -/
def R.AT_TASK_STAT.ovr (i : Nat) (j : Nat) : Fld := ⟨R.AT_TASK_STAT.adr i j, 31, 16⟩
/-- AT_TASK_STAT [15:0] runs: Runs, modulo 65,536 -/
def R.AT_TASK_STAT.runs (i : Nat) (j : Nat) : Fld := ⟨R.AT_TASK_STAT.adr i j, 15, 0⟩
/-- Address of AT_EDGE_CFG (chapter 12). -/
def R.AT_EDGE_CFG.adr (i : Nat) : Nat := 0x52000 + 0x10 * i
/-- AT_EDGE_CFG [31] en: 1: unit evaluated (R416) -/
def R.AT_EDGE_CFG.en (i : Nat) : Fld := ⟨R.AT_EDGE_CFG.adr i, 31, 31⟩
/-- AT_EDGE_CFG [30:29] trig: Edges that release event tasks: 0 none, 1 rising, 2 falling, 3 both
-/
def R.AT_EDGE_CFG.trig (i : Nat) : Fld := ⟨R.AT_EDGE_CFG.adr i, 30, 29⟩
/-- AT_EDGE_CFG [23:16] stn: Station address -/
def R.AT_EDGE_CFG.stn (i : Nat) : Fld := ⟨R.AT_EDGE_CFG.adr i, 23, 16⟩
/-- AT_EDGE_CFG [15:0] point: DI point of the station -/
def R.AT_EDGE_CFG.point (i : Nat) : Fld := ⟨R.AT_EDGE_CFG.adr i, 15, 0⟩
/-- Address of AT_EDGE_CNT (chapter 12). -/
def R.AT_EDGE_CNT.adr (i : Nat) : Nat := 0x52004 + 0x10 * i
/-- AT_EDGE_CNT [31:16] fall: Falling edges, modulo 65,536 -/
def R.AT_EDGE_CNT.fall (i : Nat) : Fld := ⟨R.AT_EDGE_CNT.adr i, 31, 16⟩
/-- AT_EDGE_CNT [15:0] rise: Rising edges, modulo 65,536 -/
def R.AT_EDGE_CNT.rise (i : Nat) : Fld := ⟨R.AT_EDGE_CNT.adr i, 15, 0⟩
/-- Address of AT_EDGE_T (chapter 12). -/
def R.AT_EDGE_T.adr (i : Nat) : Nat := 0x52008 + 0x10 * i
/-- AT_EDGE_T [31:0] t: Frame time of the last counted edge (R416) -/
def R.AT_EDGE_T.t (i : Nat) : Fld := ⟨R.AT_EDGE_T.adr i, 31, 0⟩
/-- Address of SF_STAT (chapter 13). -/
def R.SF_STAT.adr : Nat := 0x60000
/-- SF_STAT [23:16] lo_cause: 0 none; 1 channel disagreement; 2 failed diagnostic test; 3 read-
back; 4 parameter set CRC; 5 ECC (R451) -/
def R.SF_STAT.lo_cause : Fld := ⟨R.SF_STAT.adr, 23, 16⟩
/-- SF_STAT [3] pend: 1: a stored set or architecture waits for the next power-up -/
def R.SF_STAT.pend : Fld := ⟨R.SF_STAT.adr, 3, 3⟩
/-- SF_STAT [2] lockout: 1: device lock-out -/
def R.SF_STAT.lockout : Fld := ⟨R.SF_STAT.adr, 2, 2⟩
/-- SF_STAT [1] gesso: 1: Gesso runs as second channel -/
def R.SF_STAT.gesso : Fld := ⟨R.SF_STAT.adr, 1, 1⟩
/-- SF_STAT [0] arch: Architecture in force: 0 dual, 1 single -/
def R.SF_STAT.arch : Fld := ⟨R.SF_STAT.adr, 0, 0⟩
/-- Address of SF_EVT (chapter 13). -/
def R.SF_EVT.adr : Nat := 0x60004
/-- SF_EVT [10] cfg_rej: A write was rejected (R458) -/
def R.SF_EVT.cfg_rej : Fld := ⟨R.SF_EVT.adr, 10, 10⟩
/-- SF_EVT [9] rst_rej: A reset was rejected or a pulse ignored (R452, R453) -/
def R.SF_EVT.rst_rej : Fld := ⟨R.SF_EVT.adr, 9, 9⟩
/-- SF_EVT [8] rst_ok: A reset took effect -/
def R.SF_EVT.rst_ok : Fld := ⟨R.SF_EVT.adr, 8, 8⟩
/-- SF_EVT [7] xcmp: Channel disagreement (R425, R426) -/
def R.SF_EVT.xcmp : Fld := ⟨R.SF_EVT.adr, 7, 7⟩
/-- SF_EVT [6] ss1_sto: A monitoring commanded STO by envelope, age or t_max -/
def R.SF_EVT.ss1_sto : Fld := ⟨R.SF_EVT.adr, 6, 6⟩
/-- SF_EVT [5] rb: Read-back or test-pulse fault -/
def R.SF_EVT.rb : Fld := ⟨R.SF_EVT.adr, 5, 5⟩
/-- SF_EVT [4] disc: Discrepancy of the local pair -/
def R.SF_EVT.disc : Fld := ⟨R.SF_EVT.adr, 4, 4⟩
/-- SF_EVT [3] pdu_bad: An invalid PDU was received -/
def R.SF_EVT.pdu_bad : Fld := ⟨R.SF_EVT.adr, 3, 3⟩
/-- SF_EVT [2] wd: A connection watchdog expired -/
def R.SF_EVT.wd : Fld := ⟨R.SF_EVT.adr, 2, 2⟩
/-- SF_EVT [1] zone_lock: A zone entered LOCKED -/
def R.SF_EVT.zone_lock : Fld := ⟨R.SF_EVT.adr, 1, 1⟩
/-- SF_EVT [0] lockout: Device lock-out entered -/
def R.SF_EVT.lockout : Fld := ⟨R.SF_EVT.adr, 0, 0⟩
/-- Address of SF_ARCH (chapter 13). -/
def R.SF_ARCH.adr : Nat := 0x60008
/-- SF_ARCH [0] arch_sel: 0 dual, 1 single (R423) -/
def R.SF_ARCH.arch_sel : Fld := ⟨R.SF_ARCH.adr, 0, 0⟩
/-- Address of SF_LIFE (chapter 13). -/
def R.SF_LIFE.adr : Nat := 0x6000C
/-- SF_LIFE [15:8] arch_left: Architecture selections left, of 8 -/
def R.SF_LIFE.arch_left : Fld := ⟨R.SF_LIFE.adr, 15, 8⟩
/-- SF_LIFE [7:0] set_left: Parameter set stores left, of 64 -/
def R.SF_LIFE.set_left : Fld := ⟨R.SF_LIFE.adr, 7, 0⟩
/-- Address of SF_PARAM (chapter 13). -/
def R.SF_PARAM.adr : Nat := 0x60010
/-- SF_PARAM [31:0] crc: CRC-32 (R73) of the set in force -/
def R.SF_PARAM.crc : Fld := ⟨R.SF_PARAM.adr, 31, 0⟩
/-- Address of SF_IN_CFG (chapter 13). -/
def R.SF_IN_CFG.adr : Nat := 0x60020
/-- SF_IN_CFG [31] pair: 1: one dual-channel input (R438) -/
def R.SF_IN_CFG.pair : Fld := ⟨R.SF_IN_CFG.adr, 31, 31⟩
/-- SF_IN_CFG [30] anti: 1: antivalent pair -/
def R.SF_IN_CFG.anti : Fld := ⟨R.SF_IN_CFG.adr, 30, 30⟩
/-- SF_IN_CFG [29:20] disc_ms: Discrepancy time, ms, 10–1,000 (100 at reset) -/
def R.SF_IN_CFG.disc_ms : Fld := ⟨R.SF_IN_CFG.adr, 29, 20⟩
/-- SF_IN_CFG [4:0] filt: Filter, units of 0.1 ms, 1–20 (R437) -/
def R.SF_IN_CFG.filt : Fld := ⟨R.SF_IN_CFG.adr, 4, 0⟩
/-- Address of SF_IN_STAT (chapter 13). -/
def R.SF_IN_STAT.adr : Nat := 0x60024
/-- SF_IN_STAT [3] disc: 1: discrepancy fault present -/
def R.SF_IN_STAT.disc : Fld := ⟨R.SF_IN_STAT.adr, 3, 3⟩
/-- SF_IN_STAT [2] pair_st: State of the paired input -/
def R.SF_IN_STAT.pair_st : Fld := ⟨R.SF_IN_STAT.adr, 2, 2⟩
/-- SF_IN_STAT [1] b: Filtered SFI_B -/
def R.SF_IN_STAT.b : Fld := ⟨R.SF_IN_STAT.adr, 1, 1⟩
/-- SF_IN_STAT [0] a: Filtered SFI_A -/
def R.SF_IN_STAT.a : Fld := ⟨R.SF_IN_STAT.adr, 0, 0⟩
/-- Address of SF_OUT_CFG (chapter 13). -/
def R.SF_OUT_CFG.adr : Nat := 0x60028
/-- SF_OUT_CFG [31:16] zmask: Zones whose permission the pair needs (R439) -/
def R.SF_OUT_CFG.zmask : Fld := ⟨R.SF_OUT_CFG.adr, 31, 16⟩
/-- SF_OUT_CFG [15] tp_en: 1: test pulses (R441) -/
def R.SF_OUT_CFG.tp_en : Fld := ⟨R.SF_OUT_CFG.adr, 15, 15⟩
/-- SF_OUT_CFG [14:9] tp_s: Test period, s, 1–60 -/
def R.SF_OUT_CFG.tp_s : Fld := ⟨R.SF_OUT_CFG.adr, 14, 9⟩
/-- SF_OUT_CFG [8:0] tp_us: Pulse width, µs, 50–500 -/
def R.SF_OUT_CFG.tp_us : Fld := ⟨R.SF_OUT_CFG.adr, 8, 0⟩
/-- Address of SF_OUT_RB (chapter 13). -/
def R.SF_OUT_RB.adr : Nat := 0x6002C
/-- SF_OUT_RB [9:0] rb_us: Read-back tolerance, µs, 10–1,000 (R440) -/
def R.SF_OUT_RB.rb_us : Fld := ⟨R.SF_OUT_RB.adr, 9, 0⟩
/-- Address of SF_OUT_STAT (chapter 13). -/
def R.SF_OUT_STAT.adr : Nat := 0x60030
/-- SF_OUT_STAT [31:16] tests: Test pulses passed, saturating -/
def R.SF_OUT_STAT.tests : Fld := ⟨R.SF_OUT_STAT.adr, 31, 16⟩
/-- SF_OUT_STAT [3] sfb_ls: SFB_LS -/
def R.SF_OUT_STAT.sfb_ls : Fld := ⟨R.SF_OUT_STAT.adr, 3, 3⟩
/-- SF_OUT_STAT [2] sfb_hs: SFB_HS -/
def R.SF_OUT_STAT.sfb_hs : Fld := ⟨R.SF_OUT_STAT.adr, 2, 2⟩
/-- SF_OUT_STAT [1] cmd_ls: SFO_LS commanded on -/
def R.SF_OUT_STAT.cmd_ls : Fld := ⟨R.SF_OUT_STAT.adr, 1, 1⟩
/-- SF_OUT_STAT [0] cmd_hs: SFO_HS commanded on -/
def R.SF_OUT_STAT.cmd_hs : Fld := ⟨R.SF_OUT_STAT.adr, 0, 0⟩
/-- Address of SF_RST_CFG (chapter 13). -/
def R.SF_RST_CFG.adr : Nat := 0x60034
/-- SF_RST_CFG [15:14] src: 0 SFI_A, 1 SFI_B (both with pair = 0), 2 connection input -/
def R.SF_RST_CFG.src : Fld := ⟨R.SF_RST_CFG.adr, 15, 14⟩
/-- SF_RST_CFG [13:8] conn: Connection for src = 2 -/
def R.SF_RST_CFG.conn : Fld := ⟨R.SF_RST_CFG.adr, 13, 8⟩
/-- SF_RST_CFG [3:0] bit: Input bit for src = 2 -/
def R.SF_RST_CFG.bit : Fld := ⟨R.SF_RST_CFG.adr, 3, 0⟩
/-- Address of SF_DEM (chapter 13). -/
def R.SF_DEM.adr : Nat := 0x60038
/-- SF_DEM [31:16] sto: Bit z: STO demand on zone z -/
def R.SF_DEM.sto : Fld := ⟨R.SF_DEM.adr, 31, 16⟩
/-- SF_DEM [15:0] ss1: Bit z: SS1 demand on zone z -/
def R.SF_DEM.ss1 : Fld := ⟨R.SF_DEM.adr, 15, 0⟩
/-- Address of SF_CTRL (chapter 13). -/
def R.SF_CTRL.adr : Nat := 0x6003C
/-- SF_CTRL [0] cnt_clr: 1: clear SF_OUT_STAT.tests and every SF_CONN_CNT -/
def R.SF_CTRL.cnt_clr : Fld := ⟨R.SF_CTRL.adr, 0, 0⟩
/-- Address of SF_ZONE_GRP (chapter 13). -/
def R.SF_ZONE_GRP.adr (i : Nat) : Nat := 0x60100 + 0x20 * i
/-- SF_ZONE_GRP [31:0] grp: Bit g: motion group g is covered -/
def R.SF_ZONE_GRP.grp (i : Nat) : Fld := ⟨R.SF_ZONE_GRP.adr i, 31, 0⟩
/-- Address of SF_ZONE_CFG (chapter 13). -/
def R.SF_ZONE_CFG.adr (i : Nat) : Nat := 0x60104 + 0x20 * i
/-- SF_ZONE_CFG [31] en: 1: zone in use -/
def R.SF_ZONE_CFG.en (i : Nat) : Fld := ⟨R.SF_ZONE_CFG.adr i, 31, 31⟩
/-- SF_ZONE_CFG [30] fn: 0 STO, 1 SS1 on an input demand -/
def R.SF_ZONE_CFG.fn (i : Nat) : Fld := ⟨R.SF_ZONE_CFG.adr i, 30, 30⟩
/-- SF_ZONE_CFG [29] man_rst: 1: release from STO needs a reset -/
def R.SF_ZONE_CFG.man_rst (i : Nat) : Fld := ⟨R.SF_ZONE_CFG.adr i, 29, 29⟩
/-- SF_ZONE_CFG [28] dev_stop: 1: a demand requests the operating mode Stop -/
def R.SF_ZONE_CFG.dev_stop (i : Nat) : Fld := ⟨R.SF_ZONE_CFG.adr i, 28, 28⟩
/-- SF_ZONE_CFG [27] loc_b: 1: SFI_B (pair = 0) demands the zone -/
def R.SF_ZONE_CFG.loc_b (i : Nat) : Fld := ⟨R.SF_ZONE_CFG.adr i, 27, 27⟩
/-- SF_ZONE_CFG [26] loc_a: 1: SFI_A, or the pair, demands the zone -/
def R.SF_ZONE_CFG.loc_a (i : Nat) : Fld := ⟨R.SF_ZONE_CFG.adr i, 26, 26⟩
/-- SF_ZONE_CFG [25:24] rst_src: 0 device reset input, 1 connection input (R452) -/
def R.SF_ZONE_CFG.rst_src (i : Nat) : Fld := ⟨R.SF_ZONE_CFG.adr i, 25, 24⟩
/-- SF_ZONE_CFG [21:16] rst_conn: Reset connection -/
def R.SF_ZONE_CFG.rst_conn (i : Nat) : Fld := ⟨R.SF_ZONE_CFG.adr i, 21, 16⟩
/-- SF_ZONE_CFG [11:8] rst_bit: Reset input bit -/
def R.SF_ZONE_CFG.rst_bit (i : Nat) : Fld := ⟨R.SF_ZONE_CFG.adr i, 11, 8⟩
/-- SF_ZONE_CFG [7:0] win: Speed window, ticks, 1–64 (R433) -/
def R.SF_ZONE_CFG.win (i : Nat) : Fld := ⟨R.SF_ZONE_CFG.adr i, 7, 0⟩
/-- Address of SF_ZONE_SS1A (chapter 13). -/
def R.SF_ZONE_SS1A.adr (i : Nat) : Nat := 0x60108 + 0x20 * i
/-- SF_ZONE_SS1A [31:16] a_mon: Monitored deceleration, units of 10 rpm/s -/
def R.SF_ZONE_SS1A.a_mon (i : Nat) : Fld := ⟨R.SF_ZONE_SS1A.adr i, 31, 16⟩
/-- SF_ZONE_SS1A [15:0] tol: Tolerance, rpm -/
def R.SF_ZONE_SS1A.tol (i : Nat) : Fld := ⟨R.SF_ZONE_SS1A.adr i, 15, 0⟩
/-- Address of SF_ZONE_SS1B (chapter 13). -/
def R.SF_ZONE_SS1B.adr (i : Nat) : Nat := 0x6010C + 0x20 * i
/-- SF_ZONE_SS1B [31:24] v_zero: Standstill speed, rpm, 1–255 -/
def R.SF_ZONE_SS1B.v_zero (i : Nat) : Fld := ⟨R.SF_ZONE_SS1B.adr i, 31, 24⟩
/-- SF_ZONE_SS1B [23:12] t_zero: Standstill ticks, 1–4,095 -/
def R.SF_ZONE_SS1B.t_zero (i : Nat) : Fld := ⟨R.SF_ZONE_SS1B.adr i, 23, 12⟩
/-- SF_ZONE_SS1B [11:0] t_max: Time limit, ms, 1–4,095 (1,000 at reset) -/
def R.SF_ZONE_SS1B.t_max (i : Nat) : Fld := ⟨R.SF_ZONE_SS1B.adr i, 11, 0⟩
/-- Address of SF_ZONE_STAT (chapter 13). -/
def R.SF_ZONE_STAT.adr (i : Nat) : Nat := 0x60110 + 0x20 * i
/-- SF_ZONE_STAT [23:16] lock_cause: 0 none; 1 device lock-out; 2 watchdog; 3 station fail; 4
input fault; 5 discrepancy -/
def R.SF_ZONE_STAT.lock_cause (i : Nat) : Fld := ⟨R.SF_ZONE_STAT.adr i, 23, 16⟩
/-- SF_ZONE_STAT [7] perm: 1: permission granted -/
def R.SF_ZONE_STAT.perm (i : Nat) : Fld := ⟨R.SF_ZONE_STAT.adr i, 7, 7⟩
/-- SF_ZONE_STAT [6] dem: 1: a demand is present -/
def R.SF_ZONE_STAT.dem (i : Nat) : Fld := ⟨R.SF_ZONE_STAT.adr i, 6, 6⟩
/-- SF_ZONE_STAT [2:0] zstate: 0 unused, 1 RUN, 2 SS1, 3 STO, 4 LOCKED -/
def R.SF_ZONE_STAT.zstate (i : Nat) : Fld := ⟨R.SF_ZONE_STAT.adr i, 2, 0⟩
/-- Address of SF_ZONE_T (chapter 13). -/
def R.SF_ZONE_T.adr (i : Nat) : Nat := 0x60114 + 0x20 * i
/-- SF_ZONE_T [31:0] t: k − s of the zone's present or last SS1, ticks -/
def R.SF_ZONE_T.t (i : Nat) : Fld := ⟨R.SF_ZONE_T.adr i, 31, 0⟩
/-- Address of SF_CONN_CFG (chapter 13). -/
def R.SF_CONN_CFG.adr (i : Nat) : Nat := 0x60400 + 0x20 * i
/-- SF_CONN_CFG [31] en: 1: connection in use -/
def R.SF_CONN_CFG.en (i : Nat) : Fld := ⟨R.SF_CONN_CFG.adr i, 31, 31⟩
/-- SF_CONN_CFG [30:29] kind: 1 I/O, 2 drive; 0 none, accepted for a connection not in use (R450);
3 reserved, and a write of 3 is rejected (R8) -/
def R.SF_CONN_CFG.kind (i : Nat) : Fld := ⟨R.SF_CONN_CFG.adr i, 30, 29⟩
/-- SF_CONN_CFG [23:16] stn: Station address -/
def R.SF_CONN_CFG.stn (i : Nat) : Fld := ⟨R.SF_CONN_CFG.adr i, 23, 16⟩
/-- SF_CONN_CFG [15:8] wd: W, ticks, 2–255 -/
def R.SF_CONN_CFG.wd (i : Nat) : Fld := ⟨R.SF_CONN_CFG.adr i, 15, 8⟩
/-- SF_CONN_CFG [7:4] zone: Zone of the connection -/
def R.SF_CONN_CFG.zone (i : Nat) : Fld := ⟨R.SF_CONN_CFG.adr i, 7, 4⟩
/-- Address of SF_CONN_ID (chapter 13). -/
def R.SF_CONN_ID.adr (i : Nat) : Nat := 0x60404 + 0x20 * i
/-- SF_CONN_ID [31:8] cid: Connection identity (R442) -/
def R.SF_CONN_ID.cid (i : Nat) : Fld := ⟨R.SF_CONN_ID.adr i, 31, 8⟩
/-- Address of SF_CONN_SEED (chapter 13). -/
def R.SF_CONN_SEED.adr (i : Nat) : Nat := 0x60408 + 0x20 * i
/-- SF_CONN_SEED [31:0] seed: Initial value of R443; non-zero -/
def R.SF_CONN_SEED.seed (i : Nat) : Fld := ⟨R.SF_CONN_SEED.adr i, 31, 0⟩
/-- Address of SF_CONN_MAP (chapter 13). -/
def R.SF_CONN_MAP.adr (i : Nat) : Nat := 0x6040C + 0x20 * i
/-- SF_CONN_MAP [31:16] dem: Input bits whose value 0 demands the zone -/
def R.SF_CONN_MAP.dem (i : Nat) : Fld := ⟨R.SF_CONN_MAP.adr i, 31, 16⟩
/-- SF_CONN_MAP [15:0] out: Output bits driven by permission -/
def R.SF_CONN_MAP.out (i : Nat) : Fld := ⟨R.SF_CONN_MAP.adr i, 15, 0⟩
/-- Address of SF_CONN_OZ (chapter 13). -/
def R.SF_CONN_OZ.adr (i : Nat) : Nat := 0x60410 + 0x20 * i
/-- SF_CONN_OZ [15:0] oz: Bit z: zone z's permission also gates the out bits and sto_rel (R444) -/
def R.SF_CONN_OZ.oz (i : Nat) : Fld := ⟨R.SF_CONN_OZ.adr i, 15, 0⟩
/-- Address of SF_CONN_STAT (chapter 13). -/
def R.SF_CONN_STAT.adr (i : Nat) : Nat := 0x60414 + 0x20 * i
/-- SF_CONN_STAT [31:24] miss: Consecutive ticks without a valid PDU, saturating -/
def R.SF_CONN_STAT.miss (i : Nat) : Fld := ⟨R.SF_CONN_STAT.adr i, 31, 24⟩
/-- SF_CONN_STAT [17] starting: 1: no valid station PDU received since power-up (R449) -/
def R.SF_CONN_STAT.starting (i : Nat) : Fld := ⟨R.SF_CONN_STAT.adr i, 17, 17⟩
/-- SF_CONN_STAT [16] fail_in: fail of the last valid PDU -/
def R.SF_CONN_STAT.fail_in (i : Nat) : Fld := ⟨R.SF_CONN_STAT.adr i, 16, 16⟩
/-- SF_CONN_STAT [15:0] in_st: in_st of the last valid PDU -/
def R.SF_CONN_STAT.in_st (i : Nat) : Fld := ⟨R.SF_CONN_STAT.adr i, 15, 0⟩
/-- Address of SF_CONN_CNT (chapter 13). -/
def R.SF_CONN_CNT.adr (i : Nat) : Nat := 0x60418 + 0x20 * i
/-- SF_CONN_CNT [31:16] bad: Invalid PDUs, saturating -/
def R.SF_CONN_CNT.bad (i : Nat) : Fld := ⟨R.SF_CONN_CNT.adr i, 31, 16⟩
/-- SF_CONN_CNT [15:0] trips: Watchdog expiries, saturating -/
def R.SF_CONN_CNT.trips (i : Nat) : Fld := ⟨R.SF_CONN_CNT.adr i, 15, 0⟩
/-- Address of SF_AX_CFG (chapter 13). -/
def R.SF_AX_CFG.adr (i : Nat) : Nat := 0x61000 + 0x8 * i
/-- SF_AX_CFG [31] mon: 1: axis monitored in SS1 -/
def R.SF_AX_CFG.mon (i : Nat) : Fld := ⟨R.SF_AX_CFG.adr i, 31, 31⟩
/-- SF_AX_CFG [30] src: 0 cell pos, 1 safe position of a drive connection (R433) -/
def R.SF_AX_CFG.src (i : Nat) : Fld := ⟨R.SF_AX_CFG.adr i, 30, 30⟩
/-- SF_AX_CFG [29:24] conn: Drive connection for src = 1 -/
def R.SF_AX_CFG.conn (i : Nat) : Fld := ⟨R.SF_AX_CFG.adr i, 29, 24⟩
/-- Address of SF_AX_CPR (chapter 13). -/
def R.SF_AX_CPR.adr (i : Nat) : Nat := 0x61004 + 0x8 * i
/-- SF_AX_CPR [31:0] cpr: Counts per mechanical revolution, 1–2³¹; 0, the reset value, stands for
an axis that is not monitored, and a monitored axis with 0 is refused in … -/
def R.SF_AX_CPR.cpr (i : Nat) : Fld := ⟨R.SF_AX_CPR.adr i, 31, 0⟩
/-- Address of TW_CFG (chapter 14). -/
def R.TW_CFG.adr : Nat := 0x70000
/-- TW_CFG [23:16] miss_lim: Missed copies within 1,024 ticks at which the standby is unfit, 1–255
(R479) -/
def R.TW_CFG.miss_lim : Fld := ⟨R.TW_CFG.adr, 23, 16⟩
/-- TW_CFG [9] deg_ss1: 1: a degraded takeover requests SS1 of every motion group (R485) -/
def R.TW_CFG.deg_ss1 : Fld := ⟨R.TW_CFG.adr, 9, 9⟩
/-- TW_CFG [8] sw_en: 1: host-requested handover permitted (R491) -/
def R.TW_CFG.sw_en : Fld := ⟨R.TW_CFG.adr, 8, 8⟩
/-- TW_CFG [0] twin: 1: twin installation (R461) -/
def R.TW_CFG.twin : Fld := ⟨R.TW_CFG.adr, 0, 0⟩
/-- Address of TW_PAIR (chapter 14). -/
def R.TW_PAIR.adr : Nat := 0x70004
/-- TW_PAIR [31:0] pair_id: Pairing identity, equal in both units (R471) -/
def R.TW_PAIR.pair_id : Fld := ⟨R.TW_PAIR.adr, 31, 0⟩
/-- Address of TW_STAT (chapter 14). -/
def R.TW_STAT.adr : Nat := 0x70008
/-- TW_STAT [31:24] epoch: This unit's epoch -/
def R.TW_STAT.epoch : Fld := ⟨R.TW_STAT.adr, 31, 24⟩
/-- TW_STAT [23:20] pmode: Partner's operating mode from its heartbeat -/
def R.TW_STAT.pmode : Fld := ⟨R.TW_STAT.adr, 23, 20⟩
/-- TW_STAT [11] leaving: 1: the partner announced withdrawal -/
def R.TW_STAT.leaving : Fld := ⟨R.TW_STAT.adr, 11, 11⟩
/-- TW_STAT [10] p_fit: Partner fitness from its heartbeat -/
def R.TW_STAT.p_fit : Fld := ⟨R.TW_STAT.adr, 10, 10⟩
/-- TW_STAT [9] fit: This unit's fitness (R479) -/
def R.TW_STAT.fit : Fld := ⟨R.TW_STAT.adr, 9, 9⟩
/-- TW_STAT [8] hb: 1: partner heartbeat in the last completed tick -/
def R.TW_STAT.hb : Fld := ⟨R.TW_STAT.adr, 8, 8⟩
/-- TW_STAT [7] link: 1: block lock held (R465) -/
def R.TW_STAT.link : Fld := ⟨R.TW_STAT.adr, 7, 7⟩
/-- TW_STAT [6:4] tstate: 0 DOWN, 1 IDENT, 2 RESYNC, 3 SYNCED, 4 REFUSED, 5 ALONE (R473) -/
def R.TW_STAT.tstate : Fld := ⟨R.TW_STAT.adr, 6, 4⟩
/-- TW_STAT [1] role: 0 standby, 1 active -/
def R.TW_STAT.role : Fld := ⟨R.TW_STAT.adr, 1, 1⟩
/-- TW_STAT [0] unit: Unit ID from ROLE (R460) -/
def R.TW_STAT.unit : Fld := ⟨R.TW_STAT.adr, 0, 0⟩
/-- Address of TW_EVT (chapter 14). -/
def R.TW_EVT.adr : Nat := 0x7000C
/-- TW_EVT [14] cfg_rej: A write was rejected (R498) -/
def R.TW_EVT.cfg_rej : Fld := ⟨R.TW_EVT.adr, 14, 14⟩
/-- TW_EVT [13] health: Partner health missing or failed (R482) -/
def R.TW_EVT.health : Fld := ⟨R.TW_EVT.adr, 13, 13⟩
/-- TW_EVT [12] sw_rej: A handover was refused or rejected (R490, R491) -/
def R.TW_EVT.sw_rej : Fld := ⟨R.TW_EVT.adr, 12, 12⟩
/-- TW_EVT [11] p_leave: The partner announced withdrawal (R493) -/
def R.TW_EVT.p_leave : Fld := ⟨R.TW_EVT.adr, 11, 11⟩
/-- TW_EVT [10] present: This unit's PRESENT_N deasserted (R492) -/
def R.TW_EVT.present : Fld := ⟨R.TW_EVT.adr, 10, 10⟩
/-- TW_EVT [9] resync: A resync started -/
def R.TW_EVT.resync : Fld := ⟨R.TW_EVT.adr, 9, 9⟩
/-- TW_EVT [8] diverge: Divergence counted (R478) -/
def R.TW_EVT.diverge : Fld := ⟨R.TW_EVT.adr, 8, 8⟩
/-- TW_EVT [7] copy_miss: A state copy was discarded (R27) -/
def R.TW_EVT.copy_miss : Fld := ⟨R.TW_EVT.adr, 7, 7⟩
/-- TW_EVT [6] refused: Identity check failed (R471) -/
def R.TW_EVT.refused : Fld := ⟨R.TW_EVT.adr, 6, 6⟩
/-- TW_EVT [5] link_loss: Twin link lost with the partner alive (R486) -/
def R.TW_EVT.link_loss : Fld := ⟨R.TW_EVT.adr, 5, 5⟩
/-- TW_EVT [4] demote: This unit demoted itself (R489) -/
def R.TW_EVT.demote : Fld := ⟨R.TW_EVT.adr, 4, 4⟩
/-- TW_EVT [3] handover: A handover completed (R490) -/
def R.TW_EVT.handover : Fld := ⟨R.TW_EVT.adr, 3, 3⟩
/-- TW_EVT [2] degraded: Degraded takeover (R485) -/
def R.TW_EVT.degraded : Fld := ⟨R.TW_EVT.adr, 2, 2⟩
/-- TW_EVT [1] takeover: This unit took over (R484) -/
def R.TW_EVT.takeover : Fld := ⟨R.TW_EVT.adr, 1, 1⟩
/-- TW_EVT [0] partner_loss: Partner loss detected (R483) -/
def R.TW_EVT.partner_loss : Fld := ⟨R.TW_EVT.adr, 0, 0⟩
/-- Address of TW_CTRL (chapter 14). -/
def R.TW_CTRL.adr : Nat := 0x70010
/-- TW_CTRL [2] cnt_clr: 1: clear TW_CNT_COPY.missed, TW_CNT_SW, TW_CNT_DIV and TW_LINK -/
def R.TW_CTRL.cnt_clr : Fld := ⟨R.TW_CTRL.adr, 2, 2⟩
/-- TW_CTRL [1] resync: 1: repeat the identity check and resync (R471) -/
def R.TW_CTRL.resync : Fld := ⟨R.TW_CTRL.adr, 1, 1⟩
/-- TW_CTRL [0] switch: 1: request a handover (R491) -/
def R.TW_CTRL.switch : Fld := ⟨R.TW_CTRL.adr, 0, 0⟩
/-- Address of TW_COPY (chapter 14). -/
def R.TW_COPY.adr : Nat := 0x70014
/-- TW_COPY [31:16] end_4ns: End of the last copy after T(n), units of 4 ns -/
def R.TW_COPY.end_4ns : Fld := ⟨R.TW_COPY.adr, 31, 16⟩
/-- TW_COPY [15:0] size: Copy size in bytes: at most 20,480 at a tick of 31,250 ns or less, and at
most 61,440 at any tick (R20) -/
def R.TW_COPY.size : Fld := ⟨R.TW_COPY.adr, 15, 0⟩
/-- Address of TW_CNT_COPY (chapter 14). -/
def R.TW_CNT_COPY.adr : Nat := 0x70018
/-- TW_CNT_COPY [31:16] missed: Copies discarded, saturating -/
def R.TW_CNT_COPY.missed : Fld := ⟨R.TW_CNT_COPY.adr, 31, 16⟩
/-- TW_CNT_COPY [10:0] miss_1k: Copies discarded in the last 1,024 ticks -/
def R.TW_CNT_COPY.miss_1k : Fld := ⟨R.TW_CNT_COPY.adr, 10, 0⟩
/-- Address of TW_CNT_SW (chapter 14). -/
def R.TW_CNT_SW.adr : Nat := 0x7001C
/-- TW_CNT_SW [31:24] takeover: Takeovers, saturating at 255 -/
def R.TW_CNT_SW.takeover : Fld := ⟨R.TW_CNT_SW.adr, 31, 24⟩
/-- TW_CNT_SW [23:16] handover: Handovers, saturating at 255 -/
def R.TW_CNT_SW.handover : Fld := ⟨R.TW_CNT_SW.adr, 23, 16⟩
/-- TW_CNT_SW [15:8] demote: Demotions, saturating at 255 -/
def R.TW_CNT_SW.demote : Fld := ⟨R.TW_CNT_SW.adr, 15, 8⟩
/-- TW_CNT_SW [7:0] degraded: Degraded takeovers, saturating at 255 -/
def R.TW_CNT_SW.degraded : Fld := ⟨R.TW_CNT_SW.adr, 7, 0⟩
/-- Address of TW_CNT_DIV (chapter 14). -/
def R.TW_CNT_DIV.adr : Nat := 0x70020
/-- TW_CNT_DIV [31:16] div: Divergences (R478), saturating -/
def R.TW_CNT_DIV.div : Fld := ⟨R.TW_CNT_DIV.adr, 31, 16⟩
/-- TW_CNT_DIV [15:0] diff: Single ticks with a differing segment, saturating -/
def R.TW_CNT_DIV.diff : Fld := ⟨R.TW_CNT_DIV.adr, 15, 0⟩
/-- Address of TW_HEALTH (chapter 14). -/
def R.TW_HEALTH.adr : Nat := 0x70024
/-- TW_HEALTH [31:0] health: HEALTH: this unit's latest health word. PARTNER: the partner's latest
(R481) -/
def R.TW_HEALTH.health : Fld := ⟨R.TW_HEALTH.adr, 31, 0⟩
/-- Address of TW_PARTNER (chapter 14). -/
def R.TW_PARTNER.adr : Nat := 0x70028
/-- TW_PARTNER [31:0] health: HEALTH: this unit's latest health word. PARTNER: the partner's
latest (R481) -/
def R.TW_PARTNER.health : Fld := ⟨R.TW_PARTNER.adr, 31, 0⟩
/-- Address of TW_LINK (chapter 14). -/
def R.TW_LINK.adr : Nat := 0x7002C
/-- TW_LINK [31:16] crc: Frames discarded for CRC or reserved type, saturating -/
def R.TW_LINK.crc : Fld := ⟨R.TW_LINK.adr, 31, 16⟩
/-- TW_LINK [15:0] lock: Losses of block lock, saturating -/
def R.TW_LINK.lock : Fld := ⟨R.TW_LINK.adr, 15, 0⟩
/-- Address of TW_CFG_CRC (chapter 14). -/
def R.TW_CFG_CRC.adr : Nat := 0x70030
/-- TW_CFG_CRC [31:0] cfg_crc: CFG_CRC: this unit's cfg_crc. P_CFG_CRC: the partner's, from IDENT
(R471) -/
def R.TW_CFG_CRC.cfg_crc : Fld := ⟨R.TW_CFG_CRC.adr, 31, 0⟩
/-- Address of TW_P_CFG_CRC (chapter 14). -/
def R.TW_P_CFG_CRC.adr : Nat := 0x70034
/-- TW_P_CFG_CRC [31:0] cfg_crc: CFG_CRC: this unit's cfg_crc. P_CFG_CRC: the partner's, from
IDENT (R471) -/
def R.TW_P_CFG_CRC.cfg_crc : Fld := ⟨R.TW_P_CFG_CRC.adr, 31, 0⟩
/-- Address of TW_RSYNC (chapter 14). -/
def R.TW_RSYNC.adr : Nat := 0x70038
/-- TW_RSYNC [31:28] reason: 0 none, 1 pair_id differs, 2 same unit letter, 3 cfg_crc differs, 4
refused by partner -/
def R.TW_RSYNC.reason : Fld := ⟨R.TW_RSYNC.adr, 31, 28⟩
/-- TW_RSYNC [10:0] pages_left: 4 KiB pages of the slow-state image still to send or receive,
0–1,024 -/
def R.TW_RSYNC.pages_left : Fld := ⟨R.TW_RSYNC.adr, 10, 0⟩
/-- Address of TW_TIME (chapter 14). -/
def R.TW_TIME.adr : Nat := 0x7003C
/-- TW_TIME [31:16] asym_ps: Delay from unit A to unit B minus delay from unit B to unit A, signed
ps (R470) -/
def R.TW_TIME.asym_ps : Fld := ⟨R.TW_TIME.adr, 31, 16⟩
/-- TW_TIME [15:0] dly: Held delay from unit A to unit B, ns, UQ11.5, truncated -/
def R.TW_TIME.dly : Fld := ⟨R.TW_TIME.adr, 15, 0⟩
/-- Address of VN_CFG (chapter 15). -/
def R.VN_CFG.adr : Nat := 0x80000
/-- VN_CFG [31:16] stall_ms: Stall time, ms (1,000 at reset) (R505) -/
def R.VN_CFG.stall_ms : Fld := ⟨R.VN_CFG.adr, 31, 16⟩
/-- VN_CFG [15:8] dgram: Datagram data length, units of 64 bytes, 8–128 (1,344 bytes at reset) -/
def R.VN_CFG.dgram : Fld := ⟨R.VN_CFG.adr, 15, 8⟩
/-- VN_CFG [4:0] size: Buffer size, MiB, 2–16 (R509) -/
def R.VN_CFG.size : Fld := ⟨R.VN_CFG.adr, 4, 0⟩
/-- Address of VN_WM (chapter 15). -/
def R.VN_WM.adr : Nat := 0x80004
/-- VN_WM [31:16] hwm: High-water mark, units of 64 KiB (8 MiB at reset) -/
def R.VN_WM.hwm : Fld := ⟨R.VN_WM.adr, 31, 16⟩
/-- VN_WM [15:0] lwm: Low-water mark, units of 64 KiB (4 MiB at reset) -/
def R.VN_WM.lwm : Fld := ⟨R.VN_WM.adr, 15, 0⟩
/-- Address of VN_DEC (chapter 15). -/
def R.VN_DEC.adr : Nat := 0x80008
/-- VN_DEC [31:16] rtx_us: Resend time, µs (500 at reset) -/
def R.VN_DEC.rtx_us : Fld := ⟨R.VN_DEC.adr, 31, 16⟩
/-- VN_DEC [15:0] step_ticks: Ticks between steps, 1–65,535 (R506) -/
def R.VN_DEC.step_ticks : Fld := ⟨R.VN_DEC.adr, 15, 0⟩
/-- Address of VN_CLS (chapter 15). -/
def R.VN_CLS.adr : Nat := 0x8000C
/-- VN_CLS [17:16] diag: DIAG -/
def R.VN_CLS.diag : Fld := ⟨R.VN_CLS.adr, 17, 16⟩
/-- VN_CLS [15:14] pl_int: PL_INT -/
def R.VN_CLS.pl_int : Fld := ⟨R.VN_CLS.adr, 15, 14⟩
/-- VN_CLS [13:12] pl: PL -/
def R.VN_CLS.pl : Fld := ⟨R.VN_CLS.adr, 13, 12⟩
/-- VN_CLS [11:10] pt_out: PT_OUT -/
def R.VN_CLS.pt_out : Fld := ⟨R.VN_CLS.adr, 11, 10⟩
/-- VN_CLS [9:8] pt_in: PT_IN -/
def R.VN_CLS.pt_in : Fld := ⟨R.VN_CLS.adr, 9, 8⟩
/-- VN_CLS [5:4] ax_int: AX_INT -/
def R.VN_CLS.ax_int : Fld := ⟨R.VN_CLS.adr, 5, 4⟩
/-- VN_CLS [3:2] ax_cmd: AX_CMD -/
def R.VN_CLS.ax_cmd : Fld := ⟨R.VN_CLS.adr, 3, 2⟩
/-- VN_CLS [1:0] ax_fb: AX_FB -/
def R.VN_CLS.ax_fb : Fld := ⟨R.VN_CLS.adr, 1, 0⟩
/-- Address of VN_STAT (chapter 15). -/
def R.VN_STAT.adr : Nat := 0x80010
/-- VN_STAT [13] stall: 1: sending stopped (R505) -/
def R.VN_STAT.stall : Fld := ⟨R.VN_STAT.adr, 13, 13⟩
/-- VN_STAT [12] gap: 1: a gap is open (R508) -/
def R.VN_STAT.gap : Fld := ⟨R.VN_STAT.adr, 12, 12⟩
/-- VN_STAT [11:8] f1: Class-1 code (R506) -/
def R.VN_STAT.f1 : Fld := ⟨R.VN_STAT.adr, 11, 8⟩
/-- VN_STAT [7:4] f2: Class-2 code -/
def R.VN_STAT.f2 : Fld := ⟨R.VN_STAT.adr, 7, 4⟩
/-- VN_STAT [3:0] f3: Class-3 code -/
def R.VN_STAT.f3 : Fld := ⟨R.VN_STAT.adr, 3, 0⟩
/-- Address of VN_FILL (chapter 15). -/
def R.VN_FILL.adr : Nat := 0x80014
/-- VN_FILL [31:16] fill_max: Largest fill since the last cnt_clr, KiB -/
def R.VN_FILL.fill_max : Fld := ⟨R.VN_FILL.adr, 31, 16⟩
/-- VN_FILL [15:0] fill: F, KiB -/
def R.VN_FILL.fill : Fld := ⟨R.VN_FILL.adr, 15, 0⟩
/-- Address of VN_OFS_LO (chapter 15). -/
def R.VN_OFS_LO.adr : Nat := 0x80018
/-- VN_OFS_LO [31:0] ofs: LO: bits [31:0], latches [63:32]; HI: latched bits [63:32] -/
def R.VN_OFS_LO.ofs : Fld := ⟨R.VN_OFS_LO.adr, 31, 0⟩
/-- Address of VN_OFS_HI (chapter 15). -/
def R.VN_OFS_HI.adr : Nat := 0x8001C
/-- VN_OFS_HI [31:0] ofs: LO: bits [31:0], latches [63:32]; HI: latched bits [63:32] -/
def R.VN_OFS_HI.ofs : Fld := ⟨R.VN_OFS_HI.adr, 31, 0⟩
/-- Address of VN_ACK_LO (chapter 15). -/
def R.VN_ACK_LO.adr : Nat := 0x80020
/-- VN_ACK_LO [31:0] ofs: LO: bits [31:0], latches [63:32]; HI: latched bits [63:32] -/
def R.VN_ACK_LO.ofs : Fld := ⟨R.VN_ACK_LO.adr, 31, 0⟩
/-- Address of VN_ACK_HI (chapter 15). -/
def R.VN_ACK_HI.adr : Nat := 0x80024
/-- VN_ACK_HI [31:0] ofs: LO: bits [31:0], latches [63:32]; HI: latched bits [63:32] -/
def R.VN_ACK_HI.ofs : Fld := ⟨R.VN_ACK_HI.adr, 31, 0⟩
/-- Address of VN_WIN (chapter 15). -/
def R.VN_WIN.adr : Nat := 0x80028
/-- VN_WIN [31:0] win: win of the latest accepted STREAM_ACK, bytes -/
def R.VN_WIN.win : Fld := ⟨R.VN_WIN.adr, 31, 0⟩
/-- Address of VN_EVT (chapter 15). -/
def R.VN_EVT.adr : Nat := 0x8002C
/-- VN_EVT [6] cfg_rej: A write was rejected (R509) -/
def R.VN_EVT.cfg_rej : Fld := ⟨R.VN_EVT.adr, 6, 6⟩
/-- VN_EVT [5] stall: Sending stopped -/
def R.VN_EVT.stall : Fld := ⟨R.VN_EVT.adr, 5, 5⟩
/-- VN_EVT [4] ack_bad: An ack beyond the bytes sent -/
def R.VN_EVT.ack_bad : Fld := ⟨R.VN_EVT.adr, 4, 4⟩
/-- VN_EVT [3] drop: A group was dropped (R507) -/
def R.VN_EVT.drop : Fld := ⟨R.VN_EVT.adr, 3, 3⟩
/-- VN_EVT [2] gap: A gap opened (R508) -/
def R.VN_EVT.gap : Fld := ⟨R.VN_EVT.adr, 2, 2⟩
/-- VN_EVT [1] dec_dn: A step down -/
def R.VN_EVT.dec_dn : Fld := ⟨R.VN_EVT.adr, 1, 1⟩
/-- VN_EVT [0] dec_up: A step up -/
def R.VN_EVT.dec_up : Fld := ⟨R.VN_EVT.adr, 0, 0⟩
/-- Address of VN_CNT_DROP (chapter 15). -/
def R.VN_CNT_DROP.adr : Nat := 0x80030
/-- VN_CNT_DROP [31:16] lost0: Class-0 records lost, saturating -/
def R.VN_CNT_DROP.lost0 : Fld := ⟨R.VN_CNT_DROP.adr, 31, 16⟩
/-- VN_CNT_DROP [15:0] groups: Class 1–3 groups dropped, saturating -/
def R.VN_CNT_DROP.groups : Fld := ⟨R.VN_CNT_DROP.adr, 15, 0⟩
/-- Address of VN_CNT_RTX (chapter 15). -/
def R.VN_CNT_RTX.adr : Nat := 0x80034
/-- VN_CNT_RTX [31:0] rtx: Resends from ack, saturating -/
def R.VN_CNT_RTX.rtx : Fld := ⟨R.VN_CNT_RTX.adr, 31, 0⟩
/-- Address of VN_TICK_BYTES (chapter 15). -/
def R.VN_TICK_BYTES.adr : Nat := 0x80038
/-- VN_TICK_BYTES [31:0] bytes: Bytes appended for the last completed tick -/
def R.VN_TICK_BYTES.bytes : Fld := ⟨R.VN_TICK_BYTES.adr, 31, 0⟩
/-- Address of VN_CTRL (chapter 15). -/
def R.VN_CTRL.adr : Nat := 0x8003C
/-- VN_CTRL [0] cnt_clr: 1: clear VN_CNT_DROP, VN_CNT_RTX and fill_max -/
def R.VN_CTRL.cnt_clr : Fld := ⟨R.VN_CTRL.adr, 0, 0⟩
/-- Address of SK_CFG (chapter 15). -/
def R.SK_CFG.adr (i : Nat) : Nat := 0x81000 + 0x40 * i
/-- SK_CFG [31:16] div_m1: Ticks between rows minus 1 (R512) -/
def R.SK_CFG.div_m1 (i : Nat) : Fld := ⟨R.SK_CFG.adr i, 31, 16⟩
/-- SK_CFG [3:0] nch_m1: Channels minus 1 -/
def R.SK_CFG.nch_m1 (i : Nat) : Fld := ⟨R.SK_CFG.adr i, 3, 0⟩
/-- Address of SK_BASE (chapter 15). -/
def R.SK_BASE.adr (i : Nat) : Nat := 0x81004 + 0x40 * i
/-- SK_BASE [18:0] base: First sample, 0–524,287 -/
def R.SK_BASE.base (i : Nat) : Fld := ⟨R.SK_BASE.adr i, 18, 0⟩
/-- Address of SK_LEN (chapter 15). -/
def R.SK_LEN.adr (i : Nat) : Nat := 0x81008 + 0x40 * i
/-- SK_LEN [31:16] pre: Rows before the trigger row -/
def R.SK_LEN.pre (i : Nat) : Fld := ⟨R.SK_LEN.adr i, 31, 16⟩
/-- SK_LEN [15:0] rows_m1: Rows minus 1 (R510) -/
def R.SK_LEN.rows_m1 (i : Nat) : Fld := ⟨R.SK_LEN.adr i, 15, 0⟩
/-- Address of SK_TRIG (chapter 15). -/
def R.SK_TRIG.adr (i : Nat) : Nat := 0x8100C + 0x40 * i
/-- SK_TRIG [31:28] src: Source (R514) -/
def R.SK_TRIG.src (i : Nat) : Fld := ⟨R.SK_TRIG.adr i, 31, 28⟩
/-- SK_TRIG [27:24] ch: Channel, or unit for src 4 -/
def R.SK_TRIG.ch (i : Nat) : Fld := ⟨R.SK_TRIG.adr i, 27, 24⟩
/-- SK_TRIG [23] pol: 0 above or rising; 1 below or falling -/
def R.SK_TRIG.pol (i : Nat) : Fld := ⟨R.SK_TRIG.adr i, 23, 23⟩
/-- Address of SK_THR (chapter 15). -/
def R.SK_THR.adr (i : Nat) : Nat := 0x81010 + 0x40 * i
/-- SK_THR [31:0] thr: Threshold in the node's format; for src 3, [24:20] bit and [19:0] reg -/
def R.SK_THR.thr (i : Nat) : Fld := ⟨R.SK_THR.adr i, 31, 0⟩
/-- Address of SK_CTRL (chapter 15). -/
def R.SK_CTRL.adr (i : Nat) : Nat := 0x81014 + 0x40 * i
/-- SK_CTRL [2] force: 1: trigger at the next row -/
def R.SK_CTRL.force (i : Nat) : Fld := ⟨R.SK_CTRL.adr i, 2, 2⟩
/-- SK_CTRL [1] disarm: 1: to IDLE (R513) -/
def R.SK_CTRL.disarm (i : Nat) : Fld := ⟨R.SK_CTRL.adr i, 1, 1⟩
/-- SK_CTRL [0] arm: 1: arm (R516) -/
def R.SK_CTRL.arm (i : Nat) : Fld := ⟨R.SK_CTRL.adr i, 0, 0⟩
/-- Address of SK_STAT (chapter 15). -/
def R.SK_STAT.adr (i : Nat) : Nat := 0x81018 + 0x40 * i
/-- SK_STAT [31:15] rows: Rows written since arm, 0–65,536, saturating at rows -/
def R.SK_STAT.rows (i : Nat) : Fld := ⟨R.SK_STAT.adr i, 31, 15⟩
/-- SK_STAT [4] c_force: Trigger caused by force -/
def R.SK_STAT.c_force (i : Nat) : Fld := ⟨R.SK_STAT.adr i, 4, 4⟩
/-- SK_STAT [3] c_cond: Trigger caused by src -/
def R.SK_STAT.c_cond (i : Nat) : Fld := ⟨R.SK_STAT.adr i, 3, 3⟩
/-- SK_STAT [2:0] state: 0 IDLE, 1 ARMED, 2 READY, 3 POST, 4 DONE -/
def R.SK_STAT.state (i : Nat) : Fld := ⟨R.SK_STAT.adr i, 2, 0⟩
/-- Address of SK_EVT (chapter 15). -/
def R.SK_EVT.adr (i : Nat) : Nat := 0x8101C + 0x40 * i
/-- SK_EVT [2] rej: An arm was rejected (R516) -/
def R.SK_EVT.rej (i : Nat) : Fld := ⟨R.SK_EVT.adr i, 2, 2⟩
/-- SK_EVT [1] done: Entered DONE -/
def R.SK_EVT.done (i : Nat) : Fld := ⟨R.SK_EVT.adr i, 1, 1⟩
/-- SK_EVT [0] trig: Entered POST -/
def R.SK_EVT.trig (i : Nat) : Fld := ⟨R.SK_EVT.adr i, 0, 0⟩
/-- Address of SK_TTICK (chapter 15). -/
def R.SK_TTICK.adr (i : Nat) : Nat := 0x81020 + 0x40 * i
/-- SK_TTICK [31:0] tick: Low 32 bits of the tick of the trigger row -/
def R.SK_TTICK.tick (i : Nat) : Fld := ⟨R.SK_TTICK.adr i, 31, 0⟩
/-- Address of SK_POS (chapter 15). -/
def R.SK_POS.adr (i : Nat) : Nat := 0x81024 + 0x40 * i
/-- SK_POS [31:16] oldest: Row index in the region of the oldest row -/
def R.SK_POS.oldest (i : Nat) : Fld := ⟨R.SK_POS.adr i, 31, 16⟩
/-- SK_POS [15:0] trow: Row index in the region of the trigger row -/
def R.SK_POS.trow (i : Nat) : Fld := ⟨R.SK_POS.adr i, 15, 0⟩
/-- Address of SK_CH (chapter 15). -/
def R.SK_CH.adr (i : Nat) (j : Nat) : Nat := 0x81400 + 0x40 * i + 0x4 * j
/-- SK_CH [31:30] kind: 0 off, 1 axis, 2 loop, 3 group (R511) -/
def R.SK_CH.kind (i : Nat) (j : Nat) : Fld := ⟨R.SK_CH.adr i j, 31, 30⟩
/-- SK_CH [24:16] idx: Axis, loop or group -/
def R.SK_CH.idx (i : Nat) (j : Nat) : Fld := ⟨R.SK_CH.adr i j, 24, 16⟩
/-- SK_CH [7:0] node: Node code -/
def R.SK_CH.node (i : Nat) (j : Nat) : Fld := ⟨R.SK_CH.adr i j, 7, 0⟩
/-- Address of SK_RD_ADDR (chapter 15). -/
def R.SK_RD_ADDR.adr : Nat := 0x81800
/-- SK_RD_ADDR [18:0] val: sample index -/
def R.SK_RD_ADDR.val : Fld := ⟨R.SK_RD_ADDR.adr, 18, 0⟩
/-- Address of SK_RD_DATA (chapter 15). -/
def R.SK_RD_DATA.adr : Nat := 0x81804
/-- SK_RD_DATA [31:0] val: ADDR: sample index [18:0], incremented modulo 524,288 after each DATA
read; DATA: the sample -/
def R.SK_RD_DATA.val : Fld := ⟨R.SK_RD_DATA.adr, 31, 0⟩
/-- Address of ECC_CFG (chapter 16). -/
def R.ECC_CFG.adr : Nat := 0x90000
/-- ECC_CFG [7:0] hot_lim: Corrections per page and pass that mark a candidate; 0: never (R522) -/
def R.ECC_CFG.hot_lim : Fld := ⟨R.ECC_CFG.adr, 7, 0⟩
/-- Address of ECC_STAT (chapter 16). -/
def R.ECC_STAT.adr : Nat := 0x90004
/-- ECC_STAT [31] st_fail: 1: a checker case failed in Self-test (R528) -/
def R.ECC_STAT.st_fail : Fld := ⟨R.ECC_STAT.adr, 31, 31⟩
/-- ECC_STAT [7:0] retired: Pages mapped to spares (R532) -/
def R.ECC_STAT.retired : Fld := ⟨R.ECC_STAT.adr, 7, 0⟩
/-- Address of ECC_EVT (chapter 16). -/
def R.ECC_EVT.adr : Nat := 0x90008
/-- ECC_EVT [4] cfg_rej: A write was rejected (R531, R533) -/
def R.ECC_EVT.cfg_rej : Fld := ⟨R.ECC_EVT.adr, 4, 4⟩
/-- ECC_EVT [3] hot: A retirement candidate was found -/
def R.ECC_EVT.hot : Fld := ⟨R.ECC_EVT.adr, 3, 3⟩
/-- ECC_EVT [2] scrub_unc: Scrub found an uncorrectable byte -/
def R.ECC_EVT.scrub_unc : Fld := ⟨R.ECC_EVT.adr, 2, 2⟩
/-- ECC_EVT [1] unc: A read met an uncorrectable byte -/
def R.ECC_EVT.unc : Fld := ⟨R.ECC_EVT.adr, 1, 1⟩
/-- ECC_EVT [0] cor: A byte was corrected -/
def R.ECC_EVT.cor : Fld := ⟨R.ECC_EVT.adr, 0, 0⟩
/-- Address of ECC_CNT (chapter 16). -/
def R.ECC_CNT.adr : Nat := 0x9000C
/-- ECC_CNT [31:16] cor: Corrected bytes, saturating -/
def R.ECC_CNT.cor : Fld := ⟨R.ECC_CNT.adr, 31, 16⟩
/-- ECC_CNT [15:8] unc: Uncorrectable reads, saturating -/
def R.ECC_CNT.unc : Fld := ⟨R.ECC_CNT.adr, 15, 8⟩
/-- ECC_CNT [7:0] scrub_unc: Uncorrectable bytes found by scrub, saturating -/
def R.ECC_CNT.scrub_unc : Fld := ⟨R.ECC_CNT.adr, 7, 0⟩
/-- Address of ECC_LAST_ADDR (chapter 16). -/
def R.ECC_LAST_ADDR.adr : Nat := 0x90010
/-- ECC_LAST_ADDR [31:0] addr: Memory code of the last corrected or uncorrectable byte (R529) -/
def R.ECC_LAST_ADDR.addr : Fld := ⟨R.ECC_LAST_ADDR.adr, 31, 0⟩
/-- Address of ECC_SCRUB (chapter 16). -/
def R.ECC_SCRUB.adr : Nat := 0x90014
/-- ECC_SCRUB [31:16] passes: Completed passes, modulo 65,536 -/
def R.ECC_SCRUB.passes : Fld := ⟨R.ECC_SCRUB.adr, 31, 16⟩
/-- ECC_SCRUB [15:0] last_ms: Duration of the last pass, ms, at most 1,000 (R525) -/
def R.ECC_SCRUB.last_ms : Fld := ⟨R.ECC_SCRUB.adr, 15, 0⟩
/-- Address of ECC_INJ_ADDR (chapter 16). -/
def R.ECC_INJ_ADDR.adr : Nat := 0x90018
/-- ECC_INJ_ADDR [31:0] addr: Memory code of the byte (R529); memory 15 is rejected -/
def R.ECC_INJ_ADDR.addr : Fld := ⟨R.ECC_INJ_ADDR.adr, 31, 0⟩
/-- Address of ECC_INJ_CTRL (chapter 16). -/
def R.ECC_INJ_CTRL.adr : Nat := 0x9001C
/-- ECC_INJ_CTRL [31] arm: 1: flip at the next write of the byte; clears after it -/
def R.ECC_INJ_CTRL.arm : Fld := ⟨R.ECC_INJ_CTRL.adr, 31, 31⟩
/-- ECC_INJ_CTRL [12:0] flip: Stored bits to invert: [12:5] d7–d0, [4:0] c4–c0 -/
def R.ECC_INJ_CTRL.flip : Fld := ⟨R.ECC_INJ_CTRL.adr, 12, 0⟩
/-- Address of ECC_LOG_STAT (chapter 16). -/
def R.ECC_LOG_STAT.adr : Nat := 0x90020
/-- ECC_LOG_STAT [31:16] lost: Entries lost to a full queue, saturating -/
def R.ECC_LOG_STAT.lost : Fld := ⟨R.ECC_LOG_STAT.adr, 31, 16⟩
/-- ECC_LOG_STAT [9:0] next: Index of the entry to be written next -/
def R.ECC_LOG_STAT.next : Fld := ⟨R.ECC_LOG_STAT.adr, 9, 0⟩
/-- Address of ECC_CTRL (chapter 16). -/
def R.ECC_CTRL.adr : Nat := 0x90024
/-- ECC_CTRL [0] cnt_clr: 1: clear ECC_CNT and ECC_LOG_STAT.lost -/
def R.ECC_CTRL.cnt_clr : Fld := ⟨R.ECC_CTRL.adr, 0, 0⟩
/-- Address of ECC_RET (chapter 16). -/
def R.ECC_RET.adr (i : Nat) : Nat := 0x90100 + 0x4 * i
/-- ECC_RET [31] valid: 1: entry in use (R531) -/
def R.ECC_RET.valid (i : Nat) : Fld := ⟨R.ECC_RET.adr i, 31, 31⟩
/-- ECC_RET [19:16] mem: Memory, 0–14 -/
def R.ECC_RET.mem (i : Nat) : Fld := ⟨R.ECC_RET.adr i, 19, 16⟩
/-- ECC_RET [15:0] page: Page number within the memory -/
def R.ECC_RET.page (i : Nat) : Fld := ⟨R.ECC_RET.adr i, 15, 0⟩
/-- Address of ECC_LOG (chapter 16). -/
def R.ECC_LOG.adr (i : Nat) (j : Nat) : Nat := 0x98000 + 0x20 * i + 0x4 * j
/-- ECC_LOG [31:0] word: Word w of entry i (R530), as held in MRAM -/
def R.ECC_LOG.word (i : Nat) (j : Nat) : Fld := ⟨R.ECC_LOG.adr i j, 31, 0⟩
/-- Address of HP_CFG (chapter 17). -/
def R.HP_CFG.adr : Nat := 0xA0000
/-- HP_CFG [31:16] idle_s: Session idle timeout, s, 1–3,600 (R543) -/
def R.HP_CFG.idle_s : Fld := ⟨R.HP_CFG.adr, 31, 16⟩
/-- HP_CFG [8] jumbo: 1: frames up to 9,000 bytes (R535, R537) -/
def R.HP_CFG.jumbo : Fld := ⟨R.HP_CFG.adr, 8, 8⟩
/-- HP_CFG [0] en: 1: host port enabled -/
def R.HP_CFG.en : Fld := ⟨R.HP_CFG.adr, 0, 0⟩
/-- Address of HP_ADDR (chapter 17). -/
def R.HP_ADDR.adr : Nat := 0xA0004
/-- HP_ADDR [31:0] addr: IPv4 address, first octet in bits [31:24] (192.168.0.10 at reset) -/
def R.HP_ADDR.addr : Fld := ⟨R.HP_ADDR.adr, 31, 0⟩
/-- Address of HP_MAC_LO (chapter 17). -/
def R.HP_MAC_LO.adr : Nat := 0xA0008
/-- HP_MAC_LO [31:0] mac: LO: octets 2–5; HI: [15:0] octets 0–1, [31:16] reserved. All zero: the
address assigned in one-time-programmable memory -/
def R.HP_MAC_LO.mac : Fld := ⟨R.HP_MAC_LO.adr, 31, 0⟩
/-- Address of HP_MAC_HI (chapter 17). -/
def R.HP_MAC_HI.adr : Nat := 0xA000C
/-- HP_MAC_HI [15:0] mac: octets 0-1 -/
def R.HP_MAC_HI.mac : Fld := ⟨R.HP_MAC_HI.adr, 15, 0⟩
/-- Address of HP_PORT (chapter 17). -/
def R.HP_PORT.adr : Nat := 0xA0010
/-- HP_PORT [31:16] stm: Stream port (47,111 at reset) -/
def R.HP_PORT.stm : Fld := ⟨R.HP_PORT.adr, 31, 16⟩
/-- HP_PORT [15:0] cmd: Command and management port (47,110 at reset) -/
def R.HP_PORT.cmd : Fld := ⟨R.HP_PORT.adr, 15, 0⟩
/-- Address of HP_PEER (chapter 17). -/
def R.HP_PEER.adr : Nat := 0xA0014
/-- HP_PEER [31:0] addr: Only source address accepted; 0: any (R536) -/
def R.HP_PEER.addr : Fld := ⟨R.HP_PEER.adr, 31, 0⟩
/-- Address of HP_STAT (chapter 17). -/
def R.HP_STAT.adr : Nat := 0xA0018
/-- HP_STAT [7:5] stm_sess: Session index of the stream session -/
def R.HP_STAT.stm_sess : Fld := ⟨R.HP_STAT.adr, 7, 5⟩
/-- HP_STAT [4] stm: 1: a stream session is open -/
def R.HP_STAT.stm : Fld := ⟨R.HP_STAT.adr, 4, 4⟩
/-- HP_STAT [3:1] sessions: Open sessions, 0–4 -/
def R.HP_STAT.sessions : Fld := ⟨R.HP_STAT.adr, 3, 1⟩
/-- HP_STAT [0] link: 1: PCS block lock -/
def R.HP_STAT.link : Fld := ⟨R.HP_STAT.adr, 0, 0⟩
/-- Address of HP_EVT (chapter 17). -/
def R.HP_EVT.adr : Nat := 0xA001C
/-- HP_EVT [3] cfg_rej: A write was rejected -/
def R.HP_EVT.cfg_rej : Fld := ⟨R.HP_EVT.adr, 3, 3⟩
/-- HP_EVT [2] auth_fail: An authentication failure (R567) -/
def R.HP_EVT.auth_fail : Fld := ⟨R.HP_EVT.adr, 2, 2⟩
/-- HP_EVT [1] close: A session closed by timeout -/
def R.HP_EVT.close : Fld := ⟨R.HP_EVT.adr, 1, 1⟩
/-- HP_EVT [0] link_loss: Block lock lost -/
def R.HP_EVT.link_loss : Fld := ⟨R.HP_EVT.adr, 0, 0⟩
/-- Address of HP_CNT (chapter 17). -/
def R.HP_CNT.adr : Nat := 0xA0020
/-- HP_CNT [31:16] frame: Frames and datagrams discarded by R535 and R536, saturating -/
def R.HP_CNT.frame : Fld := ⟨R.HP_CNT.adr, 31, 16⟩
/-- HP_CNT [15:0] tag: Messages discarded by R540 and R546, saturating -/
def R.HP_CNT.tag : Fld := ⟨R.HP_CNT.adr, 15, 0⟩
/-- Address of HP_SESS (chapter 17). -/
def R.HP_SESS.adr (i : Nat) : Nat := 0xA0040 + 0x4 * i
/-- HP_SESS [31:16] idle: Seconds since the last valid message -/
def R.HP_SESS.idle (i : Nat) : Fld := ⟨R.HP_SESS.adr i, 31, 16⟩
/-- HP_SESS [9:8] priv: Privilege (R545) -/
def R.HP_SESS.priv (i : Nat) : Fld := ⟨R.HP_SESS.adr i, 9, 8⟩
/-- HP_SESS [7:6] kind: Session kind -/
def R.HP_SESS.kind (i : Nat) : Fld := ⟨R.HP_SESS.adr i, 7, 6⟩
/-- HP_SESS [5:3] slot: Key slot -/
def R.HP_SESS.slot (i : Nat) : Fld := ⟨R.HP_SESS.adr i, 5, 3⟩
/-- HP_SESS [0] open: 1: open -/
def R.HP_SESS.open_ (i : Nat) : Fld := ⟨R.HP_SESS.adr i, 0, 0⟩
/-- Address of SEC_STAT (chapter 17). -/
def R.SEC_STAT.adr : Nat := 0xA1000
/-- SEC_STAT [7] boot: 1: bootstrap state (R565) -/
def R.SEC_STAT.boot : Fld := ⟨R.SEC_STAT.adr, 7, 7⟩
/-- SEC_STAT [6] erased: 1: keys erased -/
def R.SEC_STAT.erased : Fld := ⟨R.SEC_STAT.adr, 6, 6⟩
/-- SEC_STAT [5] tamp: State of the VBAT-domain tamper latch (R566, R615): as read on leaving
Reset, and 1 from any later trip until SEC_CTRL.tamp_clr clears the latch. … -/
def R.SEC_STAT.tamp : Fld := ⟨R.SEC_STAT.adr, 5, 5⟩
/-- SEC_STAT [4:0] tripped: Bit c: class c tripped since Reset -/
def R.SEC_STAT.tripped : Fld := ⟨R.SEC_STAT.adr, 4, 0⟩
/-- Address of SEC_EVT (chapter 17). -/
def R.SEC_EVT.adr : Nat := 0xA1004
/-- SEC_EVT [6] cfg_rej: A write was rejected -/
def R.SEC_EVT.cfg_rej : Fld := ⟨R.SEC_EVT.adr, 6, 6⟩
/-- SEC_EVT [5] erase: Key erasure completed -/
def R.SEC_EVT.erase : Fld := ⟨R.SEC_EVT.adr, 5, 5⟩
/-- SEC_EVT [4:0] trip: Bit c: class c tripped -/
def R.SEC_EVT.trip : Fld := ⟨R.SEC_EVT.adr, 4, 0⟩
/-- Address of SEC_ACT (chapter 17). -/
def R.SEC_ACT.adr : Nat := 0xA1008
/-- SEC_ACT [9:0] act: Two bits per class, class 0 in [1:0]: 0 log, 1 Alarm, 2 Alarm with erasure,
3 reserved (R564). At reset, every class is 1 -/
def R.SEC_ACT.act : Fld := ⟨R.SEC_ACT.adr, 9, 0⟩
/-- Address of SEC_AUTH (chapter 17). -/
def R.SEC_AUTH.adr : Nat := 0xA100C
/-- SEC_AUTH [31:16] win_s: Window, s (60 at reset) -/
def R.SEC_AUTH.win_s : Fld := ⟨R.SEC_AUTH.adr, 31, 16⟩
/-- SEC_AUTH [7:0] lim: Failures that trip class 4, 1–255 -/
def R.SEC_AUTH.lim : Fld := ⟨R.SEC_AUTH.adr, 7, 0⟩
/-- Address of SEC_CTRL (chapter 17). -/
def R.SEC_CTRL.adr : Nat := 0xA1010
/-- SEC_CTRL [1] erase: 1: erase the keys now (R565) -/
def R.SEC_CTRL.erase : Fld := ⟨R.SEC_CTRL.adr, 1, 1⟩
/-- SEC_CTRL [0] tamp_clr: 1: clear the TAMPER_N latch (R566) -/
def R.SEC_CTRL.tamp_clr : Fld := ⟨R.SEC_CTRL.adr, 0, 0⟩
/-- Address of SEC_KEY (chapter 17). -/
def R.SEC_KEY.adr (i : Nat) : Nat := 0xA1040 + 0x4 * i
/-- SEC_KEY [31:16] kcv: First 2 bytes of HMAC-SHA-256(key, ASCII "KCV") -/
def R.SEC_KEY.kcv (i : Nat) : Fld := ⟨R.SEC_KEY.adr i, 31, 16⟩
/-- SEC_KEY [15:8] left: Provisions left, of 16 -/
def R.SEC_KEY.left (i : Nat) : Fld := ⟨R.SEC_KEY.adr i, 15, 8⟩
/-- SEC_KEY [2:1] priv: Privilege; 0 for slot 0 -/
def R.SEC_KEY.priv (i : Nat) : Fld := ⟨R.SEC_KEY.adr i, 2, 1⟩
/-- SEC_KEY [0] prov: 1: provisioned -/
def R.SEC_KEY.prov (i : Nat) : Fld := ⟨R.SEC_KEY.adr i, 0, 0⟩
/-- Address of NV_STAT (chapter 17). -/
def R.NV_STAT.adr : Nat := 0xA2000
/-- NV_STAT [31:16] seq: Low 16 bits of the seq of the settings bank in force -/
def R.NV_STAT.seq : Fld := ⟨R.NV_STAT.adr, 31, 16⟩
/-- NV_STAT [5] lc_stage: 1: limited-change values are staged -/
def R.NV_STAT.lc_stage : Fld := ⟨R.NV_STAT.adr, 5, 5⟩
/-- NV_STAT [4] storing: 1: a STORE or commit is running -/
def R.NV_STAT.storing : Fld := ⟨R.NV_STAT.adr, 4, 4⟩
/-- NV_STAT [3] img_chg: 1: stored image digest differs (R557) -/
def R.NV_STAT.img_chg : Fld := ⟨R.NV_STAT.adr, 3, 3⟩
/-- NV_STAT [2] none: 1: no valid settings bank -/
def R.NV_STAT.none : Fld := ⟨R.NV_STAT.adr, 2, 2⟩
/-- NV_STAT [1] lc_bank: Limited-change bank in force -/
def R.NV_STAT.lc_bank : Fld := ⟨R.NV_STAT.adr, 1, 1⟩
/-- NV_STAT [0] bank: Settings bank in force -/
def R.NV_STAT.bank : Fld := ⟨R.NV_STAT.adr, 0, 0⟩
/-- Address of NV_EVT (chapter 17). -/
def R.NV_EVT.adr : Nat := 0xA2004
/-- NV_EVT [3] void: An interrupted commit was voided (R560) -/
def R.NV_EVT.void_ : Fld := ⟨R.NV_EVT.adr, 3, 3⟩
/-- NV_EVT [2] commit: A COMMIT_LC completed -/
def R.NV_EVT.commit : Fld := ⟨R.NV_EVT.adr, 2, 2⟩
/-- NV_EVT [1] store_err: A STORE failed (R556) -/
def R.NV_EVT.store_err : Fld := ⟨R.NV_EVT.adr, 1, 1⟩
/-- NV_EVT [0] store: A STORE completed -/
def R.NV_EVT.store : Fld := ⟨R.NV_EVT.adr, 0, 0⟩
/-- Address of NV_LIFE (chapter 17). -/
def R.NV_LIFE.adr : Nat := 0xA2008
/-- NV_LIFE [31:16] clog_next: Index of the next change-log entry, 0–1,024 -/
def R.NV_LIFE.clog_next : Fld := ⟨R.NV_LIFE.adr, 31, 16⟩
/-- NV_LIFE [7:0] pair_left: Pairing identity changes left, of 8 -/
def R.NV_LIFE.pair_left : Fld := ⟨R.NV_LIFE.adr, 7, 0⟩
/-- Address of NV_CLOG (chapter 17). -/
def R.NV_CLOG.adr (i : Nat) (j : Nat) : Nat := 0xAA000 + 0x20 * i + 0x4 * j
/-- NV_CLOG [31:0] word: Word w of entry i (R561), as held in MRAM -/
def R.NV_CLOG.word (i : Nat) (j : Nat) : Fld := ⟨R.NV_CLOG.adr i j, 31, 0⟩
/-- Address of DEV_ID (chapter 18). -/
def R.DEV_ID.adr : Nat := 0x0
/-- DEV_ID [31:16] part: Part number -/
def R.DEV_ID.part : Fld := ⟨R.DEV_ID.adr, 31, 16⟩
/-- DEV_ID [15:8] rev: Silicon revision -/
def R.DEV_ID.rev : Fld := ⟨R.DEV_ID.adr, 15, 8⟩
/-- Address of DEV_SERIAL (chapter 18). -/
def R.DEV_SERIAL.adr : Nat := 0x4
/-- DEV_SERIAL [31:0] serial: Serial number from one-time-programmable memory -/
def R.DEV_SERIAL.serial : Fld := ⟨R.DEV_SERIAL.adr, 31, 0⟩
/-- Address of DEV_MODE (chapter 18). -/
def R.DEV_MODE.adr : Nat := 0x8
/-- DEV_MODE [31:28] carried: Carried mode in Shadow (R592); equal to mode otherwise -/
def R.DEV_MODE.carried : Fld := ⟨R.DEV_MODE.adr, 31, 28⟩
/-- DEV_MODE [27:24] prev: Mode before the last transition -/
def R.DEV_MODE.prev : Fld := ⟨R.DEV_MODE.adr, 27, 24⟩
/-- DEV_MODE [19:16] reason: Reason of the last transition: 0 start-up, 1 host command, 2 zone
demand, 3 device fault, 4 security trip, 5 takeover or handover, 6 demotion, 7 … -/
def R.DEV_MODE.reason : Fld := ⟨R.DEV_MODE.adr, 19, 16⟩
/-- DEV_MODE [3:0] mode: Present mode (R568) -/
def R.DEV_MODE.mode : Fld := ⟨R.DEV_MODE.adr, 3, 0⟩
/-- Address of DEV_STAT (chapter 18). -/
def R.DEV_STAT.adr : Nat := 0xC
/-- DEV_STAT [31] halt: 1: halted in Self-test or Load (R572, R576, R577) -/
def R.DEV_STAT.halt : Fld := ⟨R.DEV_STAT.adr, 31, 31⟩
/-- DEV_STAT [30] alarm_pend: 1: a security trip awaits ALARM_EXIT (R591) -/
def R.DEV_STAT.alarm_pend : Fld := ⟨R.DEV_STAT.adr, 30, 30⟩
/-- DEV_STAT [29] rst_pend: 1: a Service write awaits RESTART (R587) -/
def R.DEV_STAT.rst_pend : Fld := ⟨R.DEV_STAT.adr, 29, 29⟩
/-- DEV_STAT [28] ovl_rej: 1: the settings overlay was dropped (R576) -/
def R.DEV_STAT.ovl_rej : Fld := ⟨R.DEV_STAT.adr, 28, 28⟩
/-- DEV_STAT [27] slow: 1: image read in 1-1-1 mode (R573) -/
def R.DEV_STAT.slow : Fld := ⟨R.DEV_STAT.adr, 27, 27⟩
/-- DEV_STAT [26] alarm_n: Level driven on ALARM_N (R594) -/
def R.DEV_STAT.alarm_n : Fld := ⟨R.DEV_STAT.adr, 26, 26⟩
/-- DEV_STAT [3:0] halt_cause: 0 none; 1 checker or memory; 2 safety channel; 3 cryptographic
unit; 4 flash interface; 5 image header; 6 public key differs from slot 0; 7 … -/
def R.DEV_STAT.halt_cause : Fld := ⟨R.DEV_STAT.adr, 3, 0⟩
/-- Address of DEV_EVT (chapter 18). -/
def R.DEV_EVT.adr : Nat := 0x10
/-- DEV_EVT [3] ovl_rej: The overlay was dropped -/
def R.DEV_EVT.ovl_rej : Fld := ⟨R.DEV_EVT.adr, 3, 3⟩
/-- DEV_EVT [2] chk: A check failed at SVC_EXIT or RESTART, or a write was rejected by R21 -/
def R.DEV_EVT.chk : Fld := ⟨R.DEV_EVT.adr, 2, 2⟩
/-- DEV_EVT [1] cmd_rej: A mode command was answered MODE, REJECTED or NOT_ACTIVE -/
def R.DEV_EVT.cmd_rej : Fld := ⟨R.DEV_EVT.adr, 1, 1⟩
/-- DEV_EVT [0] mode: The mode changed -/
def R.DEV_EVT.mode : Fld := ⟨R.DEV_EVT.adr, 0, 0⟩
/-- Address of DEV_CHK (chapter 18). -/
def R.DEV_CHK.adr : Nat := 0x14
/-- DEV_CHK [31:24] code: Check code (R576); 0 for none -/
def R.DEV_CHK.code : Fld := ⟨R.DEV_CHK.adr, 31, 24⟩
/-- DEV_CHK [23] src: 1: the failure arose from the settings overlay -/
def R.DEV_CHK.src : Fld := ⟨R.DEV_CHK.adr, 23, 23⟩
/-- DEV_CHK [15:0] index: Index concerned, as the table of R576 gives it -/
def R.DEV_CHK.index : Fld := ⟨R.DEV_CHK.adr, 15, 0⟩
/-- Address of DEV_START (chapter 18). -/
def R.DEV_START.adr : Nat := 0x18
/-- DEV_START [31:24] selftest_ms: Duration of Self-test, ms -/
def R.DEV_START.selftest_ms : Fld := ⟨R.DEV_START.adr, 31, 24⟩
/-- DEV_START [23:12] load_ms: Duration of Load, ms, saturating at 4,095 -/
def R.DEV_START.load_ms : Fld := ⟨R.DEV_START.adr, 23, 12⟩
/-- DEV_START [11:0] listen_ms: Duration of Listen, ms, saturating at 4,095 -/
def R.DEV_START.listen_ms : Fld := ⟨R.DEV_START.adr, 11, 0⟩
/-- Address of DEV_IMG_LEN (chapter 18). -/
def R.DEV_IMG_LEN.adr : Nat := 0x1C
/-- DEV_IMG_LEN [31:0] val: LEN: L in bytes; BUILD: build number (R552); HASH: first 4 bytes of
the image's SHA-256 -/
def R.DEV_IMG_LEN.val : Fld := ⟨R.DEV_IMG_LEN.adr, 31, 0⟩
/-- Address of DEV_IMG_BUILD (chapter 18). -/
def R.DEV_IMG_BUILD.adr : Nat := 0x20
/-- DEV_IMG_BUILD [31:0] val: LEN: L in bytes; BUILD: build number (R552); HASH: first 4 bytes of
the image's SHA-256 -/
def R.DEV_IMG_BUILD.val : Fld := ⟨R.DEV_IMG_BUILD.adr, 31, 0⟩
/-- Address of DEV_IMG_HASH (chapter 18). -/
def R.DEV_IMG_HASH.adr : Nat := 0x24
/-- DEV_IMG_HASH [31:0] val: LEN: L in bytes; BUILD: build number (R552); HASH: first 4 bytes of
the image's SHA-256 -/
def R.DEV_IMG_HASH.val : Fld := ⟨R.DEV_IMG_HASH.adr, 31, 0⟩
/-- Address of DEV_CNT (chapter 18). -/
def R.DEV_CNT.adr : Nat := 0x28
/-- DEV_CNT [31:24] lockout: Entries into Lock-out, saturating -/
def R.DEV_CNT.lockout : Fld := ⟨R.DEV_CNT.adr, 31, 24⟩
/-- DEV_CNT [23:16] alarm: Entries into Alarm, saturating -/
def R.DEV_CNT.alarm : Fld := ⟨R.DEV_CNT.adr, 23, 16⟩
/-- DEV_CNT [15:0] trans: Transitions since leaving Reset, saturating -/
def R.DEV_CNT.trans : Fld := ⟨R.DEV_CNT.adr, 15, 0⟩
/-- Address of DEV_CTRL (chapter 18). -/
def R.DEV_CTRL.adr : Nat := 0x2C
/-- DEV_CTRL [0] cnt_clr: 1: clear DEV_CNT -/
def R.DEV_CTRL.cnt_clr : Fld := ⟨R.DEV_CTRL.adr, 0, 0⟩

end Sys2Proof.Machine
end

