-- ==== Sys2Proof/Machine/RegTable.lean ====
section
/-! DEFINITION. The register index: every register of the address map (chapter 20, register
index), with its fields, their access codes (R5) and their Reset values (R12), as the tables of
the chapters give them. -/

namespace Sys2Proof.Machine

/-- The access code of a field (R5); a reserved field is `RO` (R6). -/
inductive Acc
  | RO | RW | RWS | RWL | W1C | WO
  deriving DecidableEq, Repr

/-- One field of a register table: its bits, its access code and its Reset value. -/
structure FldSpec where
  /-- Highest bit. -/
  hi : Nat
  /-- Lowest bit. -/
  lo : Nat
  /-- Access code (R5). -/
  acc : Acc
  /-- Reset value (R12). -/
  rst : Nat
  deriving DecidableEq, Repr

/-- The registers by name (chapter 20, register index). -/
inductive RegName
  | TIM_CFG | TIM_TICK | TIM_TX_OFS | TIM_STAT | TIM_NOW_LO | TIM_NOW_HI | TIM_EPOCH_LO 
  | TIM_EPOCH_HI | TIM_TICK_CNT | TIM_TICK_OUT | TIM_EXT | TIM_DOM | TIM_SLEW | TIM_EVT_LAST 
  | TIM_PORT | TIM_LINK | ML_CFG | ML_CTRL | ML_STAT | ML_EVT | ML_APPLY_OFS | ML_GUARD 
  | ML_BAB_CFG | ML_BCN | ML_ALM_OFS | ML_ALM_PITCH | ML_MBX_REQ | ML_MBX_RSP | ML_FRAME | ML_ARR 
  | ML_CNT | ML_NET_CFG | ML_NET_STAT | ML_SCHED_CTRL | ML_SCHED_STAT | ML_SCHED_TICK | ST_CFG 
  | ST_STATE | ST_EVT | ST_SYNC | ST_SYNC_CFG | ST_IDENT | ST_MODES | ST_RES | ST_CNT_SEG 
  | ST_CNT_BAB | ST_CNT_EDGE | ST_CNT_DLY | ST_CNT_SYNC | ST_CNT_CMD | ST_CNT_AGE | ST_CTRL 
  | EZ_CFG | EZ_DEADLINE | EZ_RELEASE | EZ_STAT | EZ_SPILL | EZ_EVT | EZ_TICK_JOBS | EZ_TICK_REL 
  | EZ_CTRL | EZ_SIG | EZ_ENG_CFG | EZ_ENG_DEPTH | EZ_ENG_LOAD | EZ_ENG_LOAD1K | EZ_ENG_FIN 
  | EZ_HIST | EZ_K_CMD | EZ_K_RES | EZ_TMR_OFS | EZ_TMR_PER | EZ_THR | EZ_CNT | BR_E_STAT 
  | BR_E_FLT | BR_E_CYC | BR_E_JOBS | BR_E_INV | BR_E_OVR | BR_CFG | BR_CTRL | BR_EVT 
  | BR_PM_ADDR | BR_PM_DATA | BR_JSTAT | AX_CFG | AX_CTRL | AX_STATE | AX_EVT | AX_MOT_R 
  | AX_MOT_L | AX_BASE | AX_LIM | AX_PWM | AX_CUR_KP | AX_CUR_KI | AX_SPD_PI | AX_LOOP 
  | AX_POS_KP | AX_RAMP | AX_REF | AX_SPD_CMD | AX_EXT | AX_ENC_CPR | AX_ENC_OFS | AX_SL | AX_HFI 
  | AX_OBS | AX_PLAUS | AX_CATCH | AX_BRAKE | AX_ZERO | AX_AGE_LIM | AX_REACT | AX_I_FB 
  | AX_V_OUT | AX_I_REF | AX_ANGLE | AX_CNT | AX_PRF_CMD | AX_PRF_TGT | AX_PRF_VMAX | AX_PRF_ACC 
  | AX_PRF_LIM | AX_PRF_CFG | AX_PRF_STAT | AX_PRF_EVT | AX_PRF_POS | AX_PRF_VEL | AX_STP_CFG 
  | AX_STP_I | AX_STP_LA | AX_STP_CHOP | AX_STP_STALL | AX_STP_STAT | AX_STP_DEV | AX_STP_EVT 
  | AX_FB_CFG | AX_FB_POFS | AX_FB_POS | AX_FB_SPD | AX_FB_STAT | AX_FB_EVT | AX_EMU_CFG 
  | AX_EMU_RES | AX_CMP_POOL | AX_CMP_CFG | AX_CMP_SPAN | AX_CMP_STAT | AX_CMP_EVT | AX_CMP_CNT 
  | AX_CMP_CTRL | AX_CMP_LAST | AX_CMP_CFG2 | PL_CFG | PL_CTRL | PL_STATE | PL_EVT | PL_IO 
  | PL_SP | PL_MAN | PL_LIM | PL_KP | PL_KI | PL_KD | PL_AGE_LIM | PL_MDL | PL_MDL2 | PL_OUT 
  | PL_POL | PL_GRP_STAT | PL_GRP_CNT | PL_GRP_MAN | PL_GRP_CTRL | AT_CFG | AT_EVT | AT_POOL 
  | AT_JNL_STAT | AT_JNL_SEQ | AT_RCP_CFG | AT_RCP_CTRL | AT_RCP_STAT | AT_RCP_EVT | AT_RCP_ELAP 
  | AT_RCP_LAYER | AT_TASK_CFG | AT_TASK_STAT | AT_EDGE_CFG | AT_EDGE_CNT | AT_EDGE_T | SF_STAT 
  | SF_EVT | SF_ARCH | SF_LIFE | SF_PARAM | SF_IN_CFG | SF_IN_STAT | SF_OUT_CFG | SF_OUT_RB 
  | SF_OUT_STAT | SF_RST_CFG | SF_DEM | SF_CTRL | SF_ZONE_GRP | SF_ZONE_CFG | SF_ZONE_SS1A 
  | SF_ZONE_SS1B | SF_ZONE_STAT | SF_ZONE_T | SF_CONN_CFG | SF_CONN_ID | SF_CONN_SEED 
  | SF_CONN_MAP | SF_CONN_OZ | SF_CONN_STAT | SF_CONN_CNT | SF_AX_CFG | SF_AX_CPR | TW_CFG 
  | TW_PAIR | TW_STAT | TW_EVT | TW_CTRL | TW_COPY | TW_CNT_COPY | TW_CNT_SW | TW_CNT_DIV 
  | TW_HEALTH | TW_PARTNER | TW_LINK | TW_CFG_CRC | TW_P_CFG_CRC | TW_RSYNC | TW_TIME | VN_CFG 
  | VN_WM | VN_DEC | VN_CLS | VN_STAT | VN_FILL | VN_OFS_LO | VN_OFS_HI | VN_ACK_LO | VN_ACK_HI 
  | VN_WIN | VN_EVT | VN_CNT_DROP | VN_CNT_RTX | VN_TICK_BYTES | VN_CTRL | SK_CFG | SK_BASE 
  | SK_LEN | SK_TRIG | SK_THR | SK_CTRL | SK_STAT | SK_EVT | SK_TTICK | SK_POS | SK_CH 
  | SK_RD_ADDR | SK_RD_DATA | ECC_CFG | ECC_STAT | ECC_EVT | ECC_CNT | ECC_LAST_ADDR | ECC_SCRUB 
  | ECC_INJ_ADDR | ECC_INJ_CTRL | ECC_LOG_STAT | ECC_CTRL | ECC_RET | ECC_LOG | HP_CFG | HP_ADDR 
  | HP_MAC_LO | HP_MAC_HI | HP_PORT | HP_PEER | HP_STAT | HP_EVT | HP_CNT | HP_SESS | SEC_STAT 
  | SEC_EVT | SEC_ACT | SEC_AUTH | SEC_CTRL | SEC_KEY | NV_STAT | NV_EVT | NV_LIFE | NV_CLOG 
  | DEV_ID | DEV_SERIAL | DEV_MODE | DEV_STAT | DEV_EVT | DEV_CHK | DEV_START | DEV_IMG_LEN 
  | DEV_IMG_BUILD | DEV_IMG_HASH | DEV_CNT | DEV_CTRL 
  deriving DecidableEq, Repr

/-- One row of the register index: elements `i < n1` at stride `s1`, each with parts `j < n2` at
stride `s2`, the first existing element being `first`. -/
structure RegRow where
  /-- The register. -/
  name : RegName
  /-- Address of element 0. -/
  base : Nat
  /-- Number of elements. -/
  n1 : Nat
  /-- Stride of the elements. -/
  s1 : Nat
  /-- Number of parts of an element. -/
  n2 : Nat
  /-- Stride of the parts. -/
  s2 : Nat
  /-- First element that exists (ST_ has no element 0, R624). -/
  first : Nat
  /-- The fields, from the highest bits down; bits outside them are reserved. -/
  fields : List FldSpec
  deriving DecidableEq, Repr

/-- Register index, region DEV, part 0. -/
def rows_dev0 : List RegRow :=
  [
  ⟨.DEV_ID, 0x0, 1, 0x100000, 1, 0x4, 0,
   [⟨31, 16, .RO, 0x7128⟩, ⟨15, 8, .RO, 0x1⟩]⟩,
  ⟨.DEV_SERIAL, 0x4, 1, 0x100000, 1, 0x4, 0,
   [⟨31, 0, .RO, 0x0⟩]⟩,
  ⟨.DEV_MODE, 0x8, 1, 0x100000, 1, 0x4, 0,
   [⟨31, 28, .RO, 0x5⟩, ⟨27, 24, .RO, 0x0⟩, ⟨19, 16, .RO, 0x0⟩, ⟨3, 0, .RO, 0x0⟩]⟩,
  ⟨.DEV_STAT, 0xC, 1, 0x100000, 1, 0x4, 0,
   [⟨31, 31, .RO, 0x0⟩, ⟨30, 30, .RO, 0x0⟩, ⟨29, 29, .RO, 0x0⟩, ⟨28, 28, .RO, 0x0⟩,
    ⟨27, 27, .RO, 0x0⟩, ⟨26, 26, .RO, 0x0⟩, ⟨3, 0, .RO, 0x0⟩]⟩,
  ⟨.DEV_EVT, 0x10, 1, 0x100000, 1, 0x4, 0,
   [⟨3, 3, .W1C, 0x0⟩, ⟨2, 2, .W1C, 0x0⟩, ⟨1, 1, .W1C, 0x0⟩, ⟨0, 0, .W1C, 0x0⟩]⟩,
  ⟨.DEV_CHK, 0x14, 1, 0x100000, 1, 0x4, 0,
   [⟨31, 24, .RO, 0x0⟩, ⟨23, 23, .RO, 0x0⟩, ⟨15, 0, .RO, 0x0⟩]⟩,
  ⟨.DEV_START, 0x18, 1, 0x100000, 1, 0x4, 0,
   [⟨31, 24, .RO, 0x0⟩, ⟨23, 12, .RO, 0x0⟩, ⟨11, 0, .RO, 0x0⟩]⟩,
  ⟨.DEV_IMG_LEN, 0x1C, 1, 0x100000, 1, 0x4, 0,
   [⟨31, 0, .RO, 0x0⟩]⟩,
  ⟨.DEV_IMG_BUILD, 0x20, 1, 0x100000, 1, 0x4, 0,
   [⟨31, 0, .RO, 0x0⟩]⟩,
  ⟨.DEV_IMG_HASH, 0x24, 1, 0x100000, 1, 0x4, 0,
   [⟨31, 0, .RO, 0x0⟩]⟩,
  ⟨.DEV_CNT, 0x28, 1, 0x100000, 1, 0x4, 0,
   [⟨31, 24, .RO, 0x0⟩, ⟨23, 16, .RO, 0x0⟩, ⟨15, 0, .RO, 0x0⟩]⟩,
  ⟨.DEV_CTRL, 0x2C, 1, 0x100000, 1, 0x4, 0,
   [⟨0, 0, .WO, 0x0⟩]⟩
  ]

/-- Register index, region DEV. -/
def rows_dev : List RegRow :=
  rows_dev0

/-- Register index, region TIM, part 0. -/
def rows_tim0 : List RegRow :=
  [
  ⟨.TIM_CFG, 0x1000, 1, 0x100000, 1, 0x4, 0,
   [⟨2, 2, .RW, 0x0⟩, ⟨1, 1, .RW, 0x0⟩, ⟨0, 0, .RW, 0x0⟩]⟩,
  ⟨.TIM_TICK, 0x1004, 1, 0x100000, 1, 0x4, 0,
   [⟨17, 0, .RW, 0x7A12⟩]⟩,
  ⟨.TIM_TX_OFS, 0x1008, 1, 0x100000, 1, 0x4, 0,
   [⟨15, 0, .RW, 0x7D0⟩]⟩,
  ⟨.TIM_STAT, 0x100C, 1, 0x100000, 1, 0x4, 0,
   [⟨8, 8, .RO, 0x0⟩, ⟨7, 7, .RO, 0x0⟩, ⟨6, 6, .RO, 0x0⟩, ⟨5, 5, .W1C, 0x0⟩, ⟨4, 4, .W1C, 0x0⟩,
    ⟨3, 3, .W1C, 0x0⟩, ⟨2, 2, .RO, 0x0⟩, ⟨1, 1, .RO, 0x0⟩, ⟨0, 0, .RO, 0x0⟩]⟩,
  ⟨.TIM_NOW_LO, 0x1010, 1, 0x100000, 1, 0x4, 0,
   [⟨31, 0, .RO, 0x0⟩]⟩,
  ⟨.TIM_NOW_HI, 0x1014, 1, 0x100000, 1, 0x4, 0,
   [⟨31, 0, .RO, 0x0⟩]⟩,
  ⟨.TIM_EPOCH_LO, 0x1018, 1, 0x100000, 1, 0x4, 0,
   [⟨31, 0, .RW, 0x0⟩]⟩,
  ⟨.TIM_EPOCH_HI, 0x101C, 1, 0x100000, 1, 0x4, 0,
   [⟨31, 0, .RW, 0x0⟩]⟩,
  ⟨.TIM_TICK_CNT, 0x1020, 1, 0x100000, 1, 0x4, 0,
   [⟨31, 0, .RO, 0x0⟩]⟩,
  ⟨.TIM_TICK_OUT, 0x1024, 1, 0x100000, 1, 0x4, 0,
   [⟨31, 16, .RW, 0x0⟩, ⟨15, 0, .RW, 0x3E8⟩]⟩,
  ⟨.TIM_EXT, 0x1028, 1, 0x100000, 1, 0x4, 0,
   [⟨23, 16, .RO, 0x0⟩, ⟨15, 0, .RW, 0x1F4⟩]⟩,
  ⟨.TIM_DOM, 0x102C, 1, 0x100000, 1, 0x4, 0,
   [⟨31, 16, .RW, 0x32⟩, ⟨15, 0, .RO, 0x0⟩]⟩
  ]

/-- Register index, region TIM, part 1. -/
def rows_tim1 : List RegRow :=
  [
  ⟨.TIM_SLEW, 0x1030, 1, 0x100000, 1, 0x4, 0,
   [⟨31, 16, .RW, 0x3E8⟩, ⟨6, 0, .RW, 0x32⟩]⟩,
  ⟨.TIM_EVT_LAST, 0x1034, 1, 0x100000, 1, 0x4, 0,
   [⟨31, 16, .RO, 0x0⟩, ⟨5, 0, .RO, 0x0⟩]⟩,
  ⟨.TIM_PORT, 0x1040, 9, 0x4, 1, 0x4, 0,
   [⟨31, 16, .RWS, 0xC80⟩, ⟨15, 0, .RWS, 0x12C0⟩]⟩,
  ⟨.TIM_LINK, 0x1400, 8, 0x100, 33, 0x4, 0,
   [⟨31, 16, .RWS, 0x0⟩, ⟨15, 0, .RO, 0x0⟩]⟩
  ]

/-- Register index, region TIM. -/
def rows_tim : List RegRow :=
  rows_tim0 ++ rows_tim1

/-- Register index, region ML, part 0. -/
def rows_ml0 : List RegRow :=
  [
  ⟨.ML_CFG, 0x2000, 8, 0x100, 1, 0x4, 0,
   [⟨8, 8, .RW, 0x0⟩, ⟨2, 2, .RW, 0x1⟩, ⟨1, 1, .RW, 0x0⟩, ⟨0, 0, .RW, 0x0⟩]⟩,
  ⟨.ML_CTRL, 0x2004, 8, 0x100, 1, 0x4, 0,
   [⟨1, 1, .WO, 0x0⟩, ⟨0, 0, .WO, 0x0⟩]⟩,
  ⟨.ML_STAT, 0x2008, 8, 0x100, 1, 0x4, 0,
   [⟨23, 16, .RO, 0x0⟩, ⟨13, 8, .RO, 0x0⟩, ⟨5, 5, .RO, 0x0⟩, ⟨4, 4, .RO, 0x0⟩, ⟨3, 3, .RO, 0x0⟩,
    ⟨2, 2, .RO, 0x0⟩, ⟨1, 1, .RO, 0x0⟩, ⟨0, 0, .RO, 0x0⟩]⟩,
  ⟨.ML_EVT, 0x200C, 8, 0x100, 1, 0x4, 0,
   [⟨8, 8, .W1C, 0x0⟩, ⟨7, 7, .W1C, 0x0⟩, ⟨6, 6, .W1C, 0x0⟩, ⟨5, 5, .W1C, 0x0⟩,
    ⟨4, 4, .W1C, 0x0⟩, ⟨3, 3, .W1C, 0x0⟩, ⟨2, 2, .W1C, 0x0⟩, ⟨1, 1, .W1C, 0x0⟩,
    ⟨0, 0, .W1C, 0x0⟩]⟩,
  ⟨.ML_APPLY_OFS, 0x2010, 8, 0x100, 1, 0x4, 0,
   [⟨17, 0, .RW, 0x36B0⟩]⟩,
  ⟨.ML_GUARD, 0x2014, 8, 0x100, 1, 0x4, 0,
   [⟨10, 0, .RW, 0xC8⟩]⟩,
  ⟨.ML_BAB_CFG, 0x2018, 8, 0x100, 1, 0x4, 0,
   [⟨15, 8, .RW, 0x8⟩, ⟨7, 0, .RW, 0x20⟩]⟩,
  ⟨.ML_BCN, 0x201C, 8, 0x100, 1, 0x4, 0,
   [⟨17, 0, .RO, 0x0⟩]⟩,
  ⟨.ML_ALM_OFS, 0x2020, 8, 0x100, 1, 0x4, 0,
   [⟨17, 0, .RO, 0x0⟩]⟩,
  ⟨.ML_ALM_PITCH, 0x2024, 8, 0x100, 1, 0x4, 0,
   [⟨23, 16, .RO, 0x0⟩, ⟨15, 0, .RO, 0x0⟩]⟩,
  ⟨.ML_MBX_REQ, 0x2028, 8, 0x100, 1, 0x4, 0,
   [⟨17, 0, .RO, 0x0⟩]⟩,
  ⟨.ML_MBX_RSP, 0x202C, 8, 0x100, 1, 0x4, 0,
   [⟨17, 0, .RO, 0x0⟩]⟩
  ]

/-- Register index, region ML, part 1. -/
def rows_ml1 : List RegRow :=
  [
  ⟨.ML_FRAME, 0x2030, 8, 0x100, 1, 0x4, 0,
   [⟨31, 16, .RO, 0x0⟩, ⟨15, 8, .RO, 0x0⟩, ⟨3, 0, .RO, 0x0⟩]⟩,
  ⟨.ML_ARR, 0x2034, 8, 0x100, 1, 0x4, 0,
   [⟨31, 16, .RO, 0x0⟩, ⟨15, 0, .RO, 0x0⟩]⟩,
  ⟨.ML_CNT, 0x2040, 8, 0x100, 16, 0x4, 0,
   [⟨31, 0, .RO, 0x0⟩]⟩,
  ⟨.ML_NET_CFG, 0x2800, 1, 0x100000, 1, 0x4, 0,
   [⟨3, 0, .RW, 0x0⟩]⟩,
  ⟨.ML_NET_STAT, 0x2804, 1, 0x100000, 1, 0x4, 0,
   [⟨23, 16, .RO, 0x0⟩, ⟨11, 11, .W1C, 0x0⟩, ⟨10, 10, .W1C, 0x0⟩, ⟨9, 9, .W1C, 0x0⟩,
    ⟨8, 8, .W1C, 0x0⟩, ⟨2, 0, .RO, 0x0⟩]⟩,
  ⟨.ML_SCHED_CTRL, 0x2808, 1, 0x100000, 1, 0x4, 0,
   [⟨31, 31, .WO, 0x0⟩, ⟨30, 30, .WO, 0x0⟩, ⟨15, 8, .RW, 0x10⟩, ⟨3, 0, .RW, 0x0⟩]⟩,
  ⟨.ML_SCHED_STAT, 0x280C, 1, 0x100000, 1, 0x4, 0,
   [⟨31, 24, .RO, 0x0⟩, ⟨23, 16, .RO, 0x0⟩, ⟨11, 8, .RO, 0x0⟩, ⟨7, 6, .RO, 0x0⟩,
    ⟨5, 5, .RO, 0x0⟩, ⟨4, 4, .W1C, 0x0⟩, ⟨3, 0, .RO, 0x0⟩]⟩,
  ⟨.ML_SCHED_TICK, 0x2810, 1, 0x100000, 1, 0x4, 0,
   [⟨31, 0, .RO, 0x0⟩]⟩
  ]

/-- Register index, region ML. -/
def rows_ml : List RegRow :=
  rows_ml0 ++ rows_ml1

/-- Register index, region ST, part 0. -/
def rows_st0 : List RegRow :=
  [
  ⟨.ST_CFG, 0x10000, 256, 0x40, 1, 0x4, 1,
   [⟨31, 24, .RW, 0x2⟩, ⟨21, 16, .RW, 0x0⟩, ⟨10, 8, .RW, 0x0⟩, ⟨2, 0, .RW, 0x0⟩]⟩,
  ⟨.ST_STATE, 0x10004, 256, 0x40, 1, 0x4, 1,
   [⟨31, 24, .RO, 0xFF⟩, ⟨19, 16, .RO, 0x0⟩, ⟨15, 15, .RO, 0x0⟩, ⟨11, 11, .RO, 0x0⟩,
    ⟨10, 10, .RO, 0x0⟩, ⟨9, 9, .RO, 0x0⟩, ⟨2, 0, .RO, 0x0⟩]⟩,
  ⟨.ST_EVT, 0x10008, 256, 0x40, 1, 0x4, 1,
   [⟨9, 9, .W1C, 0x0⟩, ⟨8, 8, .W1C, 0x0⟩, ⟨7, 7, .W1C, 0x0⟩, ⟨6, 6, .W1C, 0x0⟩,
    ⟨5, 5, .W1C, 0x0⟩, ⟨4, 4, .W1C, 0x0⟩, ⟨3, 3, .W1C, 0x0⟩, ⟨2, 2, .W1C, 0x0⟩,
    ⟨1, 1, .W1C, 0x0⟩, ⟨0, 0, .W1C, 0x0⟩]⟩,
  ⟨.ST_SYNC, 0x1000C, 256, 0x40, 1, 0x4, 1,
   [⟨31, 16, .RO, 0x0⟩, ⟨15, 0, .RO, 0x0⟩]⟩,
  ⟨.ST_SYNC_CFG, 0x10010, 256, 0x40, 1, 0x4, 1,
   [⟨31, 24, .RW, 0x4⟩, ⟨11, 0, .RW, 0x28⟩]⟩,
  ⟨.ST_IDENT, 0x10014, 256, 0x40, 1, 0x4, 1,
   [⟨27, 16, .RO, 0x0⟩, ⟨15, 8, .RO, 0x0⟩, ⟨7, 4, .RO, 0x0⟩, ⟨3, 0, .RO, 0x0⟩]⟩,
  ⟨.ST_MODES, 0x10018, 256, 0x40, 1, 0x4, 1,
   [⟨15, 0, .RO, 0x0⟩]⟩,
  ⟨.ST_RES, 0x1001C, 256, 0x40, 1, 0x4, 1,
   [⟨31, 16, .RO, 0x0⟩, ⟨15, 0, .RO, 0x0⟩]⟩,
  ⟨.ST_CNT_SEG, 0x10020, 256, 0x40, 1, 0x4, 1,
   [⟨31, 16, .RO, 0x0⟩, ⟨15, 0, .RO, 0x0⟩]⟩,
  ⟨.ST_CNT_BAB, 0x10024, 256, 0x40, 1, 0x4, 1,
   [⟨31, 16, .RO, 0x0⟩, ⟨1, 0, .RO, 0x0⟩]⟩,
  ⟨.ST_CNT_EDGE, 0x10028, 256, 0x40, 1, 0x4, 1,
   [⟨31, 0, .RO, 0x0⟩]⟩,
  ⟨.ST_CNT_DLY, 0x1002C, 256, 0x40, 1, 0x4, 1,
   [⟨31, 16, .RO, 0x0⟩, ⟨15, 0, .RO, 0x0⟩]⟩
  ]

/-- Register index, region ST, part 1. -/
def rows_st1 : List RegRow :=
  [
  ⟨.ST_CNT_SYNC, 0x10030, 256, 0x40, 1, 0x4, 1,
   [⟨31, 16, .RO, 0x0⟩, ⟨15, 0, .RO, 0x0⟩]⟩,
  ⟨.ST_CNT_CMD, 0x10034, 256, 0x40, 1, 0x4, 1,
   [⟨31, 16, .RO, 0x0⟩, ⟨15, 0, .RO, 0x0⟩]⟩,
  ⟨.ST_CNT_AGE, 0x10038, 256, 0x40, 1, 0x4, 1,
   [⟨31, 16, .RO, 0x0⟩, ⟨15, 0, .RO, 0x0⟩]⟩,
  ⟨.ST_CTRL, 0x1003C, 256, 0x40, 1, 0x4, 1,
   [⟨2, 2, .WO, 0x0⟩, ⟨1, 1, .WO, 0x0⟩, ⟨0, 0, .WO, 0x0⟩]⟩
  ]

/-- Register index, region ST. -/
def rows_st : List RegRow :=
  rows_st0 ++ rows_st1

/-- Register index, region AX, part 0. -/
def rows_ax0 : List RegRow :=
  [
  ⟨.AX_CFG, 0x20000, 128, 0x100, 1, 0x4, 0,
   [⟨31, 27, .RW, 0x0⟩, ⟨23, 16, .RW, 0x0⟩, ⟨15, 14, .RW, 0x0⟩, ⟨11, 8, .RW, 0x0⟩,
    ⟨7, 6, .RW, 0x0⟩, ⟨5, 4, .RW, 0x0⟩, ⟨1, 0, .RW, 0x0⟩]⟩,
  ⟨.AX_CTRL, 0x20004, 128, 0x100, 1, 0x4, 0,
   [⟨3, 3, .WO, 0x0⟩, ⟨2, 2, .WO, 0x0⟩, ⟨1, 1, .WO, 0x0⟩, ⟨0, 0, .WO, 0x0⟩]⟩,
  ⟨.AX_STATE, 0x20008, 128, 0x100, 1, 0x4, 0,
   [⟨31, 24, .RO, 0xFF⟩, ⟨19, 16, .RO, 0x0⟩, ⟨15, 14, .RO, 0x0⟩, ⟨13, 13, .RO, 0x0⟩,
    ⟨12, 12, .RO, 0x0⟩, ⟨11, 11, .RO, 0x0⟩, ⟨3, 0, .RO, 0x0⟩]⟩,
  ⟨.AX_EVT, 0x2000C, 128, 0x100, 1, 0x4, 0,
   [⟨11, 11, .W1C, 0x0⟩, ⟨10, 10, .W1C, 0x0⟩, ⟨9, 9, .W1C, 0x0⟩, ⟨8, 8, .W1C, 0x0⟩,
    ⟨7, 7, .W1C, 0x0⟩, ⟨6, 6, .W1C, 0x0⟩, ⟨5, 5, .W1C, 0x0⟩, ⟨4, 4, .W1C, 0x0⟩,
    ⟨3, 3, .W1C, 0x0⟩, ⟨2, 2, .W1C, 0x0⟩, ⟨1, 1, .W1C, 0x0⟩, ⟨0, 0, .W1C, 0x0⟩]⟩,
  ⟨.AX_MOT_R, 0x20010, 128, 0x100, 1, 0x4, 0,
   [⟨31, 16, .RW, 0x0⟩, ⟨15, 0, .RW, 0x0⟩]⟩,
  ⟨.AX_MOT_L, 0x20014, 128, 0x100, 1, 0x4, 0,
   [⟨31, 16, .RW, 0x0⟩, ⟨15, 0, .RW, 0x0⟩]⟩,
  ⟨.AX_BASE, 0x20018, 128, 0x100, 1, 0x4, 0,
   [⟨31, 16, .RW, 0x0⟩, ⟨15, 0, .RW, 0x0⟩]⟩,
  ⟨.AX_LIM, 0x2001C, 128, 0x100, 1, 0x4, 0,
   [⟨31, 16, .RW, 0x0⟩, ⟨15, 0, .RW, 0x0⟩]⟩,
  ⟨.AX_PWM, 0x20020, 128, 0x100, 1, 0x4, 0,
   [⟨31, 16, .RW, 0xF333⟩, ⟨15, 15, .RW, 0x1⟩, ⟨14, 0, .RW, 0x199⟩]⟩,
  ⟨.AX_CUR_KP, 0x20024, 128, 0x100, 1, 0x4, 0,
   [⟨31, 16, .RW, 0x0⟩, ⟨15, 0, .RW, 0x0⟩]⟩,
  ⟨.AX_CUR_KI, 0x20028, 128, 0x100, 1, 0x4, 0,
   [⟨31, 16, .RW, 0x0⟩, ⟨15, 0, .RW, 0x0⟩]⟩,
  ⟨.AX_SPD_PI, 0x2002C, 128, 0x100, 1, 0x4, 0,
   [⟨31, 16, .RW, 0x0⟩, ⟨15, 0, .RW, 0x0⟩]⟩
  ]

/-- Register index, region AX, part 1. -/
def rows_ax1 : List RegRow :=
  [
  ⟨.AX_LOOP, 0x20030, 128, 0x100, 1, 0x4, 0,
   [⟨31, 16, .RW, 0x8000⟩, ⟨2, 0, .RW, 0x0⟩]⟩,
  ⟨.AX_POS_KP, 0x20034, 128, 0x100, 1, 0x4, 0,
   [⟨15, 0, .RW, 0x0⟩]⟩,
  ⟨.AX_RAMP, 0x20038, 128, 0x100, 1, 0x4, 0,
   [⟨31, 16, .RW, 0x1⟩, ⟨15, 0, .RW, 0x1⟩]⟩,
  ⟨.AX_REF, 0x2003C, 128, 0x100, 1, 0x4, 0,
   [⟨1, 0, .RW, 0x0⟩]⟩,
  ⟨.AX_SPD_CMD, 0x20040, 128, 0x100, 1, 0x4, 0,
   [⟨31, 0, .RW, 0x0⟩]⟩,
  ⟨.AX_EXT, 0x20044, 128, 0x100, 1, 0x4, 0,
   [⟨31, 16, .RW, 0x0⟩, ⟨14, 0, .RW, 0x0⟩]⟩,
  ⟨.AX_ENC_CPR, 0x20048, 128, 0x100, 1, 0x4, 0,
   [⟨31, 0, .RW, 0x0⟩]⟩,
  ⟨.AX_ENC_OFS, 0x2004C, 128, 0x100, 1, 0x4, 0,
   [⟨15, 0, .RW, 0x0⟩]⟩,
  ⟨.AX_SL, 0x20050, 128, 0x100, 1, 0x4, 0,
   [⟨31, 16, .RW, 0x0⟩, ⟨15, 0, .RW, 0x0⟩]⟩,
  ⟨.AX_HFI, 0x20054, 128, 0x100, 1, 0x4, 0,
   [⟨31, 16, .RW, 0x0⟩, ⟨15, 0, .RW, 0x0⟩]⟩,
  ⟨.AX_OBS, 0x20058, 128, 0x100, 1, 0x4, 0,
   [⟨31, 16, .RW, 0x0⟩, ⟨15, 0, .RW, 0x0⟩]⟩,
  ⟨.AX_PLAUS, 0x2005C, 128, 0x100, 1, 0x4, 0,
   [⟨31, 24, .RW, 0x8⟩, ⟨15, 0, .RW, 0x1000⟩]⟩
  ]

/-- Register index, region AX, part 2. -/
def rows_ax2 : List RegRow :=
  [
  ⟨.AX_CATCH, 0x20060, 128, 0x100, 1, 0x4, 0,
   [⟨31, 28, .RW, 0x3⟩, ⟨27, 16, .RW, 0x32⟩, ⟨15, 0, .RW, 0xC8⟩]⟩,
  ⟨.AX_BRAKE, 0x20064, 128, 0x100, 1, 0x4, 0,
   [⟨31, 31, .RW, 0x1⟩, ⟨23, 12, .RW, 0x64⟩, ⟨11, 0, .RW, 0x64⟩]⟩,
  ⟨.AX_ZERO, 0x20068, 128, 0x100, 1, 0x4, 0,
   [⟨31, 16, .RW, 0x20⟩, ⟨15, 0, .RW, 0x32⟩]⟩,
  ⟨.AX_AGE_LIM, 0x2006C, 128, 0x100, 1, 0x4, 0,
   [⟨7, 0, .RW, 0x2⟩]⟩,
  ⟨.AX_REACT, 0x20070, 128, 0x100, 1, 0x4, 0,
   [⟨8, 8, .RW, 0x0⟩, ⟨7, 4, .RW, 0x2⟩, ⟨3, 0, .RW, 0x2⟩]⟩,
  ⟨.AX_I_FB, 0x20074, 128, 0x100, 1, 0x4, 0,
   [⟨31, 16, .RO, 0x0⟩, ⟨15, 0, .RO, 0x0⟩]⟩,
  ⟨.AX_V_OUT, 0x20078, 128, 0x100, 1, 0x4, 0,
   [⟨31, 16, .RO, 0x0⟩, ⟨15, 0, .RO, 0x0⟩]⟩,
  ⟨.AX_I_REF, 0x2007C, 128, 0x100, 1, 0x4, 0,
   [⟨31, 16, .RO, 0x0⟩, ⟨15, 0, .RO, 0x0⟩]⟩,
  ⟨.AX_ANGLE, 0x20080, 128, 0x100, 1, 0x4, 0,
   [⟨31, 16, .RO, 0x0⟩, ⟨15, 0, .RO, 0x0⟩]⟩,
  ⟨.AX_CNT, 0x20084, 128, 0x100, 1, 0x4, 0,
   [⟨31, 16, .RO, 0x0⟩, ⟨15, 0, .RO, 0x0⟩]⟩,
  ⟨.AX_PRF_CMD, 0x20090, 128, 0x100, 1, 0x4, 0,
   [⟨3, 0, .WO, 0x0⟩]⟩,
  ⟨.AX_PRF_TGT, 0x20094, 128, 0x100, 1, 0x4, 0,
   [⟨31, 0, .RW, 0x0⟩]⟩
  ]

/-- Register index, region AX, part 3. -/
def rows_ax3 : List RegRow :=
  [
  ⟨.AX_PRF_VMAX, 0x20098, 128, 0x100, 1, 0x4, 0,
   [⟨31, 0, .RW, 0x0⟩]⟩,
  ⟨.AX_PRF_ACC, 0x2009C, 128, 0x100, 1, 0x4, 0,
   [⟨31, 16, .RW, 0x0⟩, ⟨15, 0, .RW, 0x0⟩]⟩,
  ⟨.AX_PRF_LIM, 0x200A0, 128, 0x100, 1, 0x4, 0,
   [⟨31, 16, .RW, 0xFFFF⟩, ⟨15, 0, .RW, 0xFFFF⟩]⟩,
  ⟨.AX_PRF_CFG, 0x200A4, 128, 0x100, 1, 0x4, 0,
   [⟨11, 8, .RW, 0x2⟩, ⟨0, 0, .RW, 0x0⟩]⟩,
  ⟨.AX_PRF_STAT, 0x200A8, 128, 0x100, 1, 0x4, 0,
   [⟨19, 16, .RO, 0x0⟩, ⟨11, 8, .RO, 0x0⟩, ⟨2, 0, .RO, 0x0⟩]⟩,
  ⟨.AX_PRF_EVT, 0x200AC, 128, 0x100, 1, 0x4, 0,
   [⟨6, 6, .W1C, 0x0⟩, ⟨5, 5, .W1C, 0x0⟩, ⟨4, 4, .W1C, 0x0⟩, ⟨3, 3, .W1C, 0x0⟩,
    ⟨2, 2, .W1C, 0x0⟩, ⟨1, 1, .W1C, 0x0⟩, ⟨0, 0, .W1C, 0x0⟩]⟩,
  ⟨.AX_PRF_POS, 0x200B0, 128, 0x100, 1, 0x4, 0,
   [⟨31, 0, .RO, 0x0⟩]⟩,
  ⟨.AX_PRF_VEL, 0x200B4, 128, 0x100, 1, 0x4, 0,
   [⟨31, 0, .RO, 0x0⟩]⟩,
  ⟨.AX_STP_CFG, 0x200B8, 128, 0x100, 1, 0x4, 0,
   [⟨31, 24, .RW, 0x32⟩, ⟨23, 16, .RW, 0x32⟩, ⟨15, 12, .RW, 0x0⟩, ⟨11, 8, .RW, 0x8⟩,
    ⟨7, 6, .RW, 0x0⟩, ⟨5, 5, .RW, 0x0⟩, ⟨4, 4, .RW, 0x0⟩]⟩,
  ⟨.AX_STP_I, 0x200BC, 128, 0x100, 1, 0x4, 0,
   [⟨31, 16, .RW, 0x0⟩, ⟨15, 0, .RW, 0x0⟩]⟩,
  ⟨.AX_STP_LA, 0x200C0, 128, 0x100, 1, 0x4, 0,
   [⟨31, 16, .RW, 0x0⟩, ⟨15, 8, .RW, 0x40⟩, ⟨7, 0, .RW, 0x8⟩]⟩,
  ⟨.AX_STP_CHOP, 0x200C4, 128, 0x100, 1, 0x4, 0,
   [⟨31, 24, .RW, 0x32⟩, ⟨23, 16, .RW, 0x40⟩, ⟨15, 8, .RW, 0x14⟩]⟩
  ]

/-- Register index, region AX, part 4. -/
def rows_ax4 : List RegRow :=
  [
  ⟨.AX_STP_STALL, 0x200C8, 128, 0x100, 1, 0x4, 0,
   [⟨31, 24, .RW, 0x4⟩, ⟨15, 0, .RW, 0x180⟩]⟩,
  ⟨.AX_STP_STAT, 0x200CC, 128, 0x100, 1, 0x4, 0,
   [⟨31, 16, .RO, 0x0⟩, ⟨15, 0, .RO, 0x0⟩]⟩,
  ⟨.AX_STP_DEV, 0x200D0, 128, 0x100, 1, 0x4, 0,
   [⟨31, 0, .RO, 0x0⟩]⟩,
  ⟨.AX_STP_EVT, 0x200D4, 128, 0x100, 1, 0x4, 0,
   [⟨4, 4, .W1C, 0x0⟩, ⟨3, 3, .W1C, 0x0⟩, ⟨2, 2, .W1C, 0x0⟩, ⟨1, 1, .W1C, 0x0⟩,
    ⟨0, 0, .W1C, 0x0⟩]⟩,
  ⟨.AX_FB_CFG, 0x200E0, 128, 0x100, 1, 0x4, 0,
   [⟨31, 16, .RW, 0x0⟩, ⟨15, 8, .RW, 0x4⟩, ⟨2, 0, .RW, 0x0⟩]⟩,
  ⟨.AX_FB_POFS, 0x200E4, 128, 0x100, 1, 0x4, 0,
   [⟨31, 0, .RW, 0x0⟩]⟩,
  ⟨.AX_FB_POS, 0x200E8, 128, 0x100, 1, 0x4, 0,
   [⟨31, 0, .RO, 0x0⟩]⟩,
  ⟨.AX_FB_SPD, 0x200EC, 128, 0x100, 1, 0x4, 0,
   [⟨31, 0, .RO, 0x0⟩]⟩,
  ⟨.AX_FB_STAT, 0x200F0, 128, 0x100, 1, 0x4, 0,
   [⟨31, 16, .RO, 0x0⟩, ⟨15, 8, .RO, 0xFF⟩, ⟨7, 7, .RO, 0x0⟩, ⟨6, 4, .RO, 0x0⟩, ⟨2, 0, .RO, 0x0⟩]⟩,
  ⟨.AX_FB_EVT, 0x200F4, 128, 0x100, 1, 0x4, 0,
   [⟨5, 5, .W1C, 0x0⟩, ⟨4, 4, .W1C, 0x0⟩, ⟨3, 3, .W1C, 0x0⟩, ⟨2, 2, .W1C, 0x0⟩,
    ⟨1, 1, .W1C, 0x0⟩, ⟨0, 0, .W1C, 0x0⟩]⟩,
  ⟨.AX_EMU_CFG, 0x200F8, 128, 0x100, 1, 0x4, 0,
   [⟨31, 31, .RW, 0x0⟩, ⟨30, 30, .RW, 0x0⟩, ⟨23, 16, .RW, 0x0⟩, ⟨2, 0, .RW, 0x0⟩]⟩,
  ⟨.AX_EMU_RES, 0x200FC, 128, 0x100, 1, 0x4, 0,
   [⟨31, 0, .RW, 0x0⟩]⟩
  ]

/-- Register index, region AX, part 5. -/
def rows_ax5 : List RegRow :=
  [
  ⟨.AX_CMP_POOL, 0x28000, 1, 0x100000, 1, 0x4, 0,
   [⟨31, 0, .RO, 0x0⟩]⟩,
  ⟨.AX_CMP_CFG, 0x28100, 16, 0x20, 1, 0x4, 0,
   [⟨31, 31, .RW, 0x0⟩, ⟨30, 30, .RW, 0x0⟩, ⟨29, 29, .RW, 0x0⟩, ⟨22, 16, .RW, 0x0⟩,
    ⟨15, 8, .RW, 0x0⟩, ⟨7, 0, .RW, 0x0⟩]⟩,
  ⟨.AX_CMP_SPAN, 0x28104, 16, 0x20, 1, 0x4, 0,
   [⟨31, 16, .RW, 0x0⟩, ⟨15, 0, .RW, 0x0⟩]⟩,
  ⟨.AX_CMP_STAT, 0x28108, 16, 0x20, 1, 0x4, 0,
   [⟨31, 16, .RO, 0x0⟩, ⟨15, 8, .RO, 0x0⟩, ⟨1, 0, .RO, 0x0⟩]⟩,
  ⟨.AX_CMP_EVT, 0x2810C, 16, 0x20, 1, 0x4, 0,
   [⟨4, 4, .W1C, 0x0⟩, ⟨3, 3, .W1C, 0x0⟩, ⟨2, 2, .W1C, 0x0⟩, ⟨1, 1, .W1C, 0x0⟩,
    ⟨0, 0, .W1C, 0x0⟩]⟩,
  ⟨.AX_CMP_CNT, 0x28110, 16, 0x20, 1, 0x4, 0,
   [⟨31, 16, .RO, 0x0⟩, ⟨15, 0, .RO, 0x0⟩]⟩,
  ⟨.AX_CMP_CTRL, 0x28114, 16, 0x20, 1, 0x4, 0,
   [⟨1, 1, .WO, 0x0⟩, ⟨0, 0, .WO, 0x0⟩]⟩,
  ⟨.AX_CMP_LAST, 0x28118, 16, 0x20, 1, 0x4, 0,
   [⟨31, 0, .RO, 0x0⟩]⟩,
  ⟨.AX_CMP_CFG2, 0x2811C, 16, 0x20, 1, 0x4, 0,
   [⟨31, 16, .RW, 0x64⟩, ⟨15, 8, .RW, 0x0⟩, ⟨2, 0, .RW, 0x1⟩]⟩
  ]

/-- Register index, region AX. -/
def rows_ax : List RegRow :=
  rows_ax0 ++ rows_ax1 ++ rows_ax2 ++ rows_ax3 ++ rows_ax4 ++ rows_ax5

/-- Register index, region PL, part 0. -/
def rows_pl0 : List RegRow :=
  [
  ⟨.PL_CFG, 0x30000, 384, 0x40, 1, 0x4, 0,
   [⟨31, 31, .RW, 0x0⟩, ⟨30, 30, .RW, 0x0⟩, ⟨29, 23, .RW, 0x0⟩, ⟨22, 22, .RW, 0x0⟩,
    ⟨21, 12, .RW, 0x0⟩, ⟨9, 0, .RW, 0x0⟩]⟩,
  ⟨.PL_CTRL, 0x30004, 384, 0x40, 1, 0x4, 0,
   [⟨3, 3, .WO, 0x0⟩, ⟨2, 2, .WO, 0x0⟩, ⟨1, 1, .WO, 0x0⟩, ⟨0, 0, .WO, 0x0⟩]⟩,
  ⟨.PL_STATE, 0x30008, 384, 0x40, 1, 0x4, 0,
   [⟨31, 24, .RO, 0xFF⟩, ⟨23, 8, .RO, 0x0⟩, ⟨7, 7, .RO, 0x0⟩, ⟨6, 6, .RO, 0x0⟩,
    ⟨5, 5, .RO, 0x0⟩, ⟨4, 4, .RO, 0x0⟩, ⟨2, 0, .RO, 0x0⟩]⟩,
  ⟨.PL_EVT, 0x3000C, 384, 0x40, 1, 0x4, 0,
   [⟨7, 7, .W1C, 0x0⟩, ⟨6, 6, .W1C, 0x0⟩, ⟨5, 5, .W1C, 0x0⟩, ⟨4, 4, .W1C, 0x0⟩,
    ⟨3, 3, .W1C, 0x0⟩, ⟨2, 2, .W1C, 0x0⟩, ⟨1, 1, .W1C, 0x0⟩, ⟨0, 0, .W1C, 0x0⟩]⟩,
  ⟨.PL_IO, 0x30010, 384, 0x40, 1, 0x4, 0,
   [⟨31, 24, .RW, 0x0⟩, ⟨23, 18, .RW, 0x0⟩, ⟨16, 16, .RW, 0x0⟩, ⟨15, 8, .RW, 0x0⟩,
    ⟨7, 2, .RW, 0x0⟩]⟩,
  ⟨.PL_SP, 0x30014, 384, 0x40, 1, 0x4, 0,
   [⟨15, 0, .RW, 0x0⟩]⟩,
  ⟨.PL_MAN, 0x30018, 384, 0x40, 1, 0x4, 0,
   [⟨31, 16, .RW, 0x0⟩, ⟨15, 0, .RW, 0x0⟩]⟩,
  ⟨.PL_LIM, 0x3001C, 384, 0x40, 1, 0x4, 0,
   [⟨31, 16, .RW, 0x7FFF⟩, ⟨15, 0, .RW, 0x0⟩]⟩,
  ⟨.PL_KP, 0x30020, 384, 0x40, 1, 0x4, 0,
   [⟨18, 16, .RW, 0x0⟩, ⟨15, 0, .RW, 0x0⟩]⟩,
  ⟨.PL_KI, 0x30024, 384, 0x40, 1, 0x4, 0,
   [⟨30, 16, .RW, 0x4000⟩, ⟨15, 0, .RW, 0x0⟩]⟩,
  ⟨.PL_KD, 0x30028, 384, 0x40, 1, 0x4, 0,
   [⟨30, 16, .RW, 0x0⟩, ⟨15, 0, .RW, 0x0⟩]⟩,
  ⟨.PL_AGE_LIM, 0x3002C, 384, 0x40, 1, 0x4, 0,
   [⟨31, 16, .RW, 0x0⟩, ⟨7, 0, .RW, 0x2⟩]⟩
  ]

/-- Register index, region PL, part 1. -/
def rows_pl1 : List RegRow :=
  [
  ⟨.PL_MDL, 0x30030, 384, 0x40, 1, 0x4, 0,
   [⟨31, 16, .RW, 0x0⟩, ⟨15, 0, .RW, 0x0⟩]⟩,
  ⟨.PL_MDL2, 0x30034, 384, 0x40, 1, 0x4, 0,
   [⟨31, 24, .RW, 0x0⟩, ⟨23, 16, .RW, 0x8⟩, ⟨14, 0, .RW, 0x666⟩]⟩,
  ⟨.PL_OUT, 0x30038, 384, 0x40, 1, 0x4, 0,
   [⟨31, 16, .RO, 0x0⟩, ⟨15, 0, .RO, 0x0⟩]⟩,
  ⟨.PL_POL, 0x3003C, 384, 0x40, 1, 0x4, 0,
   [⟨5, 5, .RW, 0x0⟩, ⟨4, 3, .RW, 0x0⟩, ⟨2, 2, .RW, 0x0⟩, ⟨1, 1, .RW, 0x0⟩]⟩,
  ⟨.PL_GRP_STAT, 0x38000, 96, 0x10, 1, 0x4, 0,
   [⟨31, 16, .RO, 0x0⟩, ⟨15, 12, .RO, 0x0⟩, ⟨11, 9, .RO, 0x0⟩, ⟨8, 0, .RO, 0x0⟩]⟩,
  ⟨.PL_GRP_CNT, 0x38004, 96, 0x10, 1, 0x4, 0,
   [⟨31, 0, .RO, 0x0⟩]⟩,
  ⟨.PL_GRP_MAN, 0x38008, 96, 0x10, 1, 0x4, 0,
   [⟨15, 0, .RW, 0x0⟩]⟩,
  ⟨.PL_GRP_CTRL, 0x3800C, 96, 0x10, 1, 0x4, 0,
   [⟨0, 0, .WO, 0x0⟩]⟩
  ]

/-- Register index, region PL. -/
def rows_pl : List RegRow :=
  rows_pl0 ++ rows_pl1

/-- Register index, region EZ, part 0. -/
def rows_ez0 : List RegRow :=
  [
  ⟨.EZ_CFG, 0x40000, 1, 0x100000, 1, 0x4, 0,
   [⟨1, 1, .RW, 0x1⟩, ⟨0, 0, .RW, 0x1⟩]⟩,
  ⟨.EZ_DEADLINE, 0x40004, 1, 0x100000, 1, 0x4, 0,
   [⟨17, 0, .RW, 0x55F0⟩]⟩,
  ⟨.EZ_RELEASE, 0x40008, 1, 0x100000, 1, 0x4, 0,
   [⟨17, 0, .RW, 0x2EE0⟩]⟩,
  ⟨.EZ_STAT, 0x4000C, 1, 0x100000, 1, 0x4, 0,
   [⟨31, 24, .RO, 0x0⟩, ⟨23, 16, .RO, 0x0⟩, ⟨0, 0, .RO, 0x0⟩]⟩,
  ⟨.EZ_SPILL, 0x40010, 1, 0x100000, 1, 0x4, 0,
   [⟨31, 16, .RO, 0x0⟩, ⟨15, 0, .RO, 0x0⟩]⟩,
  ⟨.EZ_EVT, 0x40014, 1, 0x100000, 1, 0x4, 0,
   [⟨5, 5, .W1C, 0x0⟩, ⟨4, 4, .W1C, 0x0⟩, ⟨3, 3, .W1C, 0x0⟩, ⟨2, 2, .W1C, 0x0⟩,
    ⟨1, 1, .W1C, 0x0⟩, ⟨0, 0, .W1C, 0x0⟩]⟩,
  ⟨.EZ_TICK_JOBS, 0x40018, 1, 0x100000, 1, 0x4, 0,
   [⟨31, 24, .RO, 0x0⟩, ⟨23, 16, .RO, 0x0⟩, ⟨15, 0, .RO, 0x0⟩]⟩,
  ⟨.EZ_TICK_REL, 0x4001C, 1, 0x100000, 1, 0x4, 0,
   [⟨31, 16, .RO, 0x0⟩, ⟨15, 0, .RO, 0x0⟩]⟩,
  ⟨.EZ_CTRL, 0x40020, 1, 0x100000, 1, 0x4, 0,
   [⟨1, 1, .WO, 0x0⟩, ⟨0, 0, .WO, 0x0⟩]⟩,
  ⟨.EZ_SIG, 0x40024, 1, 0x100000, 1, 0x4, 0,
   [⟨11, 0, .WO, 0x0⟩]⟩,
  ⟨.EZ_ENG_CFG, 0x40100, 7, 0x20, 1, 0x4, 0,
   [⟨5, 0, .RW, 0x8⟩]⟩,
  ⟨.EZ_ENG_DEPTH, 0x40104, 7, 0x20, 1, 0x4, 0,
   [⟨31, 16, .RO, 0x0⟩, ⟨15, 0, .RO, 0x0⟩]⟩
  ]

/-- Register index, region EZ, part 1. -/
def rows_ez1 : List RegRow :=
  [
  ⟨.EZ_ENG_LOAD, 0x40108, 7, 0x20, 1, 0x4, 0,
   [⟨31, 16, .RO, 0x0⟩, ⟨15, 0, .RO, 0x0⟩]⟩,
  ⟨.EZ_ENG_LOAD1K, 0x4010C, 7, 0x20, 1, 0x4, 0,
   [⟨15, 0, .RO, 0x0⟩]⟩,
  ⟨.EZ_ENG_FIN, 0x40110, 7, 0x20, 1, 0x4, 0,
   [⟨31, 16, .RO, 0x0⟩, ⟨15, 0, .RO, 0x0⟩]⟩,
  ⟨.EZ_HIST, 0x40400, 7, 0x40, 16, 0x4, 0,
   [⟨31, 0, .RO, 0x0⟩]⟩,
  ⟨.EZ_K_CMD, 0x40800, 3, 0x10, 1, 0x4, 0,
   [⟨31, 28, .WO, 0x0⟩, ⟨11, 0, .WO, 0x0⟩]⟩,
  ⟨.EZ_K_RES, 0x40804, 3, 0x10, 1, 0x4, 0,
   [⟨31, 31, .RO, 0x1⟩, ⟨30, 30, .RO, 0x0⟩, ⟨14, 10, .RO, 0x0⟩, ⟨9, 0, .RO, 0x0⟩]⟩,
  ⟨.EZ_TMR_OFS, 0x41000, 64, 0x8, 1, 0x4, 0,
   [⟨31, 31, .RW, 0x0⟩, ⟨17, 0, .RW, 0x0⟩]⟩,
  ⟨.EZ_TMR_PER, 0x41004, 64, 0x8, 1, 0x4, 0,
   [⟨31, 16, .RW, 0x0⟩, ⟨15, 0, .RW, 0x1⟩]⟩,
  ⟨.EZ_THR, 0x42000, 1024, 0x4, 1, 0x4, 0,
   [⟨31, 29, .RO, 0x0⟩, ⟨28, 27, .RW, 0x3⟩, ⟨26, 22, .RW, 0x0⟩, ⟨11, 0, .RW, 0x0⟩]⟩,
  ⟨.EZ_CNT, 0x44000, 4096, 0x4, 1, 0x4, 0,
   [⟨31, 24, .RW, 0x0⟩, ⟨23, 16, .RO, 0x0⟩, ⟨13, 12, .RW, 0x0⟩, ⟨10, 10, .RO, 0x0⟩,
    ⟨9, 0, .RW, 0x0⟩]⟩
  ]

/-- Register index, region EZ. -/
def rows_ez : List RegRow :=
  rows_ez0 ++ rows_ez1

/-- Register index, region BR, part 0. -/
def rows_br0 : List RegRow :=
  [
  ⟨.BR_E_STAT, 0x48000, 4, 0x40, 1, 0x4, 0,
   [⟨31, 31, .RO, 0x0⟩, ⟨27, 26, .RO, 0x0⟩, ⟨25, 16, .RO, 0x0⟩, ⟨15, 0, .RO, 0x0⟩]⟩,
  ⟨.BR_E_FLT, 0x48004, 4, 0x40, 1, 0x4, 0,
   [⟨31, 28, .RO, 0x0⟩, ⟨25, 16, .RO, 0x0⟩, ⟨15, 0, .RO, 0x0⟩]⟩,
  ⟨.BR_E_CYC, 0x48008, 4, 0x40, 1, 0x4, 0,
   [⟨31, 16, .RO, 0x0⟩, ⟨15, 0, .RO, 0x0⟩]⟩,
  ⟨.BR_E_JOBS, 0x4800C, 4, 0x40, 1, 0x4, 0,
   [⟨31, 0, .RO, 0x0⟩]⟩,
  ⟨.BR_E_INV, 0x48010, 4, 0x40, 1, 0x4, 0,
   [⟨31, 16, .RO, 0x0⟩, ⟨15, 0, .RO, 0x0⟩]⟩,
  ⟨.BR_E_OVR, 0x48014, 4, 0x40, 1, 0x4, 0,
   [⟨15, 0, .RO, 0x0⟩]⟩,
  ⟨.BR_CFG, 0x48200, 1, 0x100000, 1, 0x4, 0,
   [⟨0, 0, .RW, 0x1⟩]⟩,
  ⟨.BR_CTRL, 0x48204, 1, 0x100000, 1, 0x4, 0,
   [⟨0, 0, .WO, 0x0⟩]⟩,
  ⟨.BR_EVT, 0x48208, 1, 0x100000, 1, 0x4, 0,
   [⟨6, 6, .W1C, 0x0⟩, ⟨5, 5, .W1C, 0x0⟩, ⟨4, 4, .W1C, 0x0⟩, ⟨3, 3, .W1C, 0x0⟩,
    ⟨2, 2, .W1C, 0x0⟩, ⟨1, 1, .W1C, 0x0⟩, ⟨0, 0, .W1C, 0x0⟩]⟩,
  ⟨.BR_PM_ADDR, 0x48210, 1, 0x100000, 1, 0x4, 0,
   [⟨31, 28, .RW, 0x0⟩, ⟨15, 0, .RW, 0x0⟩]⟩,
  ⟨.BR_PM_DATA, 0x48214, 1, 0x100000, 1, 0x4, 0,
   [⟨31, 0, .RW, 0x0⟩]⟩,
  ⟨.BR_JSTAT, 0x49000, 1024, 0x4, 1, 0x4, 0,
   [⟨31, 24, .RO, 0x0⟩, ⟨23, 16, .RO, 0x0⟩, ⟨11, 8, .RO, 0x0⟩, ⟨7, 7, .RO, 0x0⟩,
    ⟨6, 6, .RO, 0x0⟩, ⟨5, 5, .RO, 0x0⟩, ⟨4, 4, .RO, 0x0⟩, ⟨1, 0, .RO, 0x0⟩]⟩
  ]

/-- Register index, region BR. -/
def rows_br : List RegRow :=
  rows_br0

/-- Register index, region AT, part 0. -/
def rows_at0 : List RegRow :=
  [
  ⟨.AT_CFG, 0x50000, 1, 0x100000, 1, 0x4, 0,
   [⟨5, 0, .RW, 0x20⟩]⟩,
  ⟨.AT_EVT, 0x50004, 1, 0x100000, 1, 0x4, 0,
   [⟨5, 5, .W1C, 0x0⟩, ⟨4, 4, .W1C, 0x0⟩, ⟨3, 3, .W1C, 0x0⟩, ⟨2, 2, .W1C, 0x0⟩,
    ⟨1, 1, .W1C, 0x0⟩, ⟨0, 0, .W1C, 0x0⟩]⟩,
  ⟨.AT_POOL, 0x50008, 1, 0x100000, 1, 0x4, 0,
   [⟨31, 0, .RO, 0x0⟩]⟩,
  ⟨.AT_JNL_STAT, 0x5000C, 1, 0x100000, 1, 0x4, 0,
   [⟨31, 16, .RO, 0x0⟩, ⟨15, 0, .RO, 0x0⟩]⟩,
  ⟨.AT_JNL_SEQ, 0x50010, 1, 0x100000, 1, 0x4, 0,
   [⟨31, 0, .RO, 0x0⟩]⟩,
  ⟨.AT_RCP_CFG, 0x50400, 64, 0x20, 1, 0x4, 0,
   [⟨31, 15, .RW, 0x0⟩, ⟨11, 0, .RW, 0x0⟩]⟩,
  ⟨.AT_RCP_CTRL, 0x50404, 64, 0x20, 1, 0x4, 0,
   [⟨27, 16, .WO, 0x0⟩, ⟨5, 5, .WO, 0x0⟩, ⟨4, 4, .WO, 0x0⟩, ⟨3, 3, .WO, 0x0⟩, ⟨2, 2, .WO, 0x0⟩,
    ⟨1, 1, .WO, 0x0⟩, ⟨0, 0, .WO, 0x0⟩]⟩,
  ⟨.AT_RCP_STAT, 0x50408, 64, 0x20, 1, 0x4, 0,
   [⟨31, 28, .RO, 0x0⟩, ⟨27, 16, .RO, 0x0⟩, ⟨15, 8, .RO, 0x0⟩, ⟨7, 7, .RO, 0x0⟩,
    ⟨6, 6, .RO, 0x0⟩, ⟨2, 0, .RO, 0x0⟩]⟩,
  ⟨.AT_RCP_EVT, 0x5040C, 64, 0x20, 1, 0x4, 0,
   [⟨10, 10, .W1C, 0x0⟩, ⟨9, 9, .W1C, 0x0⟩, ⟨8, 8, .W1C, 0x0⟩, ⟨7, 7, .W1C, 0x0⟩,
    ⟨6, 6, .W1C, 0x0⟩, ⟨5, 5, .W1C, 0x0⟩, ⟨4, 4, .W1C, 0x0⟩, ⟨3, 3, .W1C, 0x0⟩,
    ⟨2, 2, .W1C, 0x0⟩, ⟨1, 1, .W1C, 0x0⟩, ⟨0, 0, .W1C, 0x0⟩]⟩,
  ⟨.AT_RCP_ELAP, 0x50410, 64, 0x20, 1, 0x4, 0,
   [⟨31, 0, .RO, 0x0⟩]⟩,
  ⟨.AT_RCP_LAYER, 0x50414, 64, 0x20, 1, 0x4, 0,
   [⟨31, 0, .RO, 0x0⟩]⟩,
  ⟨.AT_TASK_CFG, 0x51000, 2, 0x200, 64, 0x8, 0,
   [⟨31, 31, .RW, 0x0⟩, ⟨30, 30, .RW, 0x0⟩, ⟨29, 26, .RW, 0x0⟩, ⟨25, 16, .RW, 0x0⟩,
    ⟨11, 0, .RW, 0x0⟩]⟩
  ]

/-- Register index, region AT, part 1. -/
def rows_at1 : List RegRow :=
  [
  ⟨.AT_TASK_STAT, 0x51004, 2, 0x200, 64, 0x8, 0,
   [⟨31, 16, .RO, 0x0⟩, ⟨15, 0, .RO, 0x0⟩]⟩,
  ⟨.AT_EDGE_CFG, 0x52000, 256, 0x10, 1, 0x4, 0,
   [⟨31, 31, .RW, 0x0⟩, ⟨30, 29, .RW, 0x0⟩, ⟨23, 16, .RW, 0x0⟩, ⟨15, 0, .RW, 0x0⟩]⟩,
  ⟨.AT_EDGE_CNT, 0x52004, 256, 0x10, 1, 0x4, 0,
   [⟨31, 16, .RO, 0x0⟩, ⟨15, 0, .RO, 0x0⟩]⟩,
  ⟨.AT_EDGE_T, 0x52008, 256, 0x10, 1, 0x4, 0,
   [⟨31, 0, .RO, 0x0⟩]⟩
  ]

/-- Register index, region AT. -/
def rows_at : List RegRow :=
  rows_at0 ++ rows_at1

/-- Register index, region SF, part 0. -/
def rows_sf0 : List RegRow :=
  [
  ⟨.SF_STAT, 0x60000, 1, 0x100000, 1, 0x4, 0,
   [⟨23, 16, .RO, 0x0⟩, ⟨3, 3, .RO, 0x0⟩, ⟨2, 2, .RO, 0x0⟩, ⟨1, 1, .RO, 0x0⟩, ⟨0, 0, .RO, 0x0⟩]⟩,
  ⟨.SF_EVT, 0x60004, 1, 0x100000, 1, 0x4, 0,
   [⟨10, 10, .W1C, 0x0⟩, ⟨9, 9, .W1C, 0x0⟩, ⟨8, 8, .W1C, 0x0⟩, ⟨7, 7, .W1C, 0x0⟩,
    ⟨6, 6, .W1C, 0x0⟩, ⟨5, 5, .W1C, 0x0⟩, ⟨4, 4, .W1C, 0x0⟩, ⟨3, 3, .W1C, 0x0⟩,
    ⟨2, 2, .W1C, 0x0⟩, ⟨1, 1, .W1C, 0x0⟩, ⟨0, 0, .W1C, 0x0⟩]⟩,
  ⟨.SF_ARCH, 0x60008, 1, 0x100000, 1, 0x4, 0,
   [⟨0, 0, .RWL, 0x0⟩]⟩,
  ⟨.SF_LIFE, 0x6000C, 1, 0x100000, 1, 0x4, 0,
   [⟨15, 8, .RO, 0x0⟩, ⟨7, 0, .RO, 0x0⟩]⟩,
  ⟨.SF_PARAM, 0x60010, 1, 0x100000, 1, 0x4, 0,
   [⟨31, 0, .RO, 0x0⟩]⟩,
  ⟨.SF_IN_CFG, 0x60020, 1, 0x100000, 1, 0x4, 0,
   [⟨31, 31, .RWL, 0x1⟩, ⟨30, 30, .RWL, 0x0⟩, ⟨29, 20, .RWL, 0x64⟩, ⟨4, 0, .RWL, 0x5⟩]⟩,
  ⟨.SF_IN_STAT, 0x60024, 1, 0x100000, 1, 0x4, 0,
   [⟨3, 3, .RO, 0x0⟩, ⟨2, 2, .RO, 0x0⟩, ⟨1, 1, .RO, 0x0⟩, ⟨0, 0, .RO, 0x0⟩]⟩,
  ⟨.SF_OUT_CFG, 0x60028, 1, 0x100000, 1, 0x4, 0,
   [⟨31, 16, .RWL, 0x0⟩, ⟨15, 15, .RWL, 0x1⟩, ⟨14, 9, .RWL, 0xA⟩, ⟨8, 0, .RWL, 0x64⟩]⟩,
  ⟨.SF_OUT_RB, 0x6002C, 1, 0x100000, 1, 0x4, 0,
   [⟨9, 0, .RWL, 0x32⟩]⟩,
  ⟨.SF_OUT_STAT, 0x60030, 1, 0x100000, 1, 0x4, 0,
   [⟨31, 16, .RO, 0x0⟩, ⟨3, 3, .RO, 0x0⟩, ⟨2, 2, .RO, 0x0⟩, ⟨1, 1, .RO, 0x0⟩, ⟨0, 0, .RO, 0x0⟩]⟩,
  ⟨.SF_RST_CFG, 0x60034, 1, 0x100000, 1, 0x4, 0,
   [⟨15, 14, .RWL, 0x0⟩, ⟨13, 8, .RWL, 0x0⟩, ⟨3, 0, .RWL, 0x0⟩]⟩,
  ⟨.SF_DEM, 0x60038, 1, 0x100000, 1, 0x4, 0,
   [⟨31, 16, .WO, 0x0⟩, ⟨15, 0, .WO, 0x0⟩]⟩
  ]

/-- Register index, region SF, part 1. -/
def rows_sf1 : List RegRow :=
  [
  ⟨.SF_CTRL, 0x6003C, 1, 0x100000, 1, 0x4, 0,
   [⟨0, 0, .WO, 0x0⟩]⟩,
  ⟨.SF_ZONE_GRP, 0x60100, 16, 0x20, 1, 0x4, 0,
   [⟨31, 0, .RWL, 0x0⟩]⟩,
  ⟨.SF_ZONE_CFG, 0x60104, 16, 0x20, 1, 0x4, 0,
   [⟨31, 31, .RWL, 0x0⟩, ⟨30, 30, .RWL, 0x1⟩, ⟨29, 29, .RWL, 0x1⟩, ⟨28, 28, .RWL, 0x0⟩,
    ⟨27, 27, .RWL, 0x0⟩, ⟨26, 26, .RWL, 0x0⟩, ⟨25, 24, .RWL, 0x0⟩, ⟨21, 16, .RWL, 0x0⟩,
    ⟨11, 8, .RWL, 0x0⟩, ⟨7, 0, .RWL, 0x8⟩]⟩,
  ⟨.SF_ZONE_SS1A, 0x60108, 16, 0x20, 1, 0x4, 0,
   [⟨31, 16, .RWL, 0x0⟩, ⟨15, 0, .RWL, 0x0⟩]⟩,
  ⟨.SF_ZONE_SS1B, 0x6010C, 16, 0x20, 1, 0x4, 0,
   [⟨31, 24, .RWL, 0xA⟩, ⟨23, 12, .RWL, 0x20⟩, ⟨11, 0, .RWL, 0x3E8⟩]⟩,
  ⟨.SF_ZONE_STAT, 0x60110, 16, 0x20, 1, 0x4, 0,
   [⟨23, 16, .RO, 0x0⟩, ⟨7, 7, .RO, 0x0⟩, ⟨6, 6, .RO, 0x0⟩, ⟨2, 0, .RO, 0x0⟩]⟩,
  ⟨.SF_ZONE_T, 0x60114, 16, 0x20, 1, 0x4, 0,
   [⟨31, 0, .RO, 0x0⟩]⟩,
  ⟨.SF_CONN_CFG, 0x60400, 64, 0x20, 1, 0x4, 0,
   [⟨31, 31, .RWL, 0x0⟩, ⟨30, 29, .RWL, 0x0⟩, ⟨23, 16, .RWL, 0x0⟩, ⟨15, 8, .RWL, 0x4⟩,
    ⟨7, 4, .RWL, 0x0⟩]⟩,
  ⟨.SF_CONN_ID, 0x60404, 64, 0x20, 1, 0x4, 0,
   [⟨31, 8, .RWL, 0x0⟩]⟩,
  ⟨.SF_CONN_SEED, 0x60408, 64, 0x20, 1, 0x4, 0,
   [⟨31, 0, .RWL, 0x0⟩]⟩,
  ⟨.SF_CONN_MAP, 0x6040C, 64, 0x20, 1, 0x4, 0,
   [⟨31, 16, .RWL, 0x0⟩, ⟨15, 0, .RWL, 0x0⟩]⟩,
  ⟨.SF_CONN_OZ, 0x60410, 64, 0x20, 1, 0x4, 0,
   [⟨15, 0, .RWL, 0x0⟩]⟩
  ]

/-- Register index, region SF, part 2. -/
def rows_sf2 : List RegRow :=
  [
  ⟨.SF_CONN_STAT, 0x60414, 64, 0x20, 1, 0x4, 0,
   [⟨31, 24, .RO, 0x0⟩, ⟨17, 17, .RO, 0x1⟩, ⟨16, 16, .RO, 0x0⟩, ⟨15, 0, .RO, 0x0⟩]⟩,
  ⟨.SF_CONN_CNT, 0x60418, 64, 0x20, 1, 0x4, 0,
   [⟨31, 16, .RO, 0x0⟩, ⟨15, 0, .RO, 0x0⟩]⟩,
  ⟨.SF_AX_CFG, 0x61000, 128, 0x8, 1, 0x4, 0,
   [⟨31, 31, .RWL, 0x0⟩, ⟨30, 30, .RWL, 0x0⟩, ⟨29, 24, .RWL, 0x0⟩]⟩,
  ⟨.SF_AX_CPR, 0x61004, 128, 0x8, 1, 0x4, 0,
   [⟨31, 0, .RWL, 0x0⟩]⟩
  ]

/-- Register index, region SF. -/
def rows_sf : List RegRow :=
  rows_sf0 ++ rows_sf1 ++ rows_sf2

/-- Register index, region TW, part 0. -/
def rows_tw0 : List RegRow :=
  [
  ⟨.TW_CFG, 0x70000, 1, 0x100000, 1, 0x4, 0,
   [⟨23, 16, .RW, 0x2⟩, ⟨9, 9, .RW, 0x1⟩, ⟨8, 8, .RW, 0x1⟩, ⟨0, 0, .RW, 0x0⟩]⟩,
  ⟨.TW_PAIR, 0x70004, 1, 0x100000, 1, 0x4, 0,
   [⟨31, 0, .RWL, 0x0⟩]⟩,
  ⟨.TW_STAT, 0x70008, 1, 0x100000, 1, 0x4, 0,
   [⟨31, 24, .RO, 0x0⟩, ⟨23, 20, .RO, 0x0⟩, ⟨11, 11, .RO, 0x0⟩, ⟨10, 10, .RO, 0x0⟩,
    ⟨9, 9, .RO, 0x0⟩, ⟨8, 8, .RO, 0x0⟩, ⟨7, 7, .RO, 0x0⟩, ⟨6, 4, .RO, 0x0⟩, ⟨1, 1, .RO, 0x0⟩,
    ⟨0, 0, .RO, 0x0⟩]⟩,
  ⟨.TW_EVT, 0x7000C, 1, 0x100000, 1, 0x4, 0,
   [⟨14, 14, .W1C, 0x0⟩, ⟨13, 13, .W1C, 0x0⟩, ⟨12, 12, .W1C, 0x0⟩, ⟨11, 11, .W1C, 0x0⟩,
    ⟨10, 10, .W1C, 0x0⟩, ⟨9, 9, .W1C, 0x0⟩, ⟨8, 8, .W1C, 0x0⟩, ⟨7, 7, .W1C, 0x0⟩,
    ⟨6, 6, .W1C, 0x0⟩, ⟨5, 5, .W1C, 0x0⟩, ⟨4, 4, .W1C, 0x0⟩, ⟨3, 3, .W1C, 0x0⟩,
    ⟨2, 2, .W1C, 0x0⟩, ⟨1, 1, .W1C, 0x0⟩, ⟨0, 0, .W1C, 0x0⟩]⟩,
  ⟨.TW_CTRL, 0x70010, 1, 0x100000, 1, 0x4, 0,
   [⟨2, 2, .WO, 0x0⟩, ⟨1, 1, .WO, 0x0⟩, ⟨0, 0, .WO, 0x0⟩]⟩,
  ⟨.TW_COPY, 0x70014, 1, 0x100000, 1, 0x4, 0,
   [⟨31, 16, .RO, 0x0⟩, ⟨15, 0, .RO, 0x0⟩]⟩,
  ⟨.TW_CNT_COPY, 0x70018, 1, 0x100000, 1, 0x4, 0,
   [⟨31, 16, .RO, 0x0⟩, ⟨10, 0, .RO, 0x0⟩]⟩,
  ⟨.TW_CNT_SW, 0x7001C, 1, 0x100000, 1, 0x4, 0,
   [⟨31, 24, .RO, 0x0⟩, ⟨23, 16, .RO, 0x0⟩, ⟨15, 8, .RO, 0x0⟩, ⟨7, 0, .RO, 0x0⟩]⟩,
  ⟨.TW_CNT_DIV, 0x70020, 1, 0x100000, 1, 0x4, 0,
   [⟨31, 16, .RO, 0x0⟩, ⟨15, 0, .RO, 0x0⟩]⟩,
  ⟨.TW_HEALTH, 0x70024, 1, 0x100000, 1, 0x4, 0,
   [⟨31, 0, .RO, 0x0⟩]⟩,
  ⟨.TW_PARTNER, 0x70028, 1, 0x100000, 1, 0x4, 0,
   [⟨31, 0, .RO, 0x0⟩]⟩,
  ⟨.TW_LINK, 0x7002C, 1, 0x100000, 1, 0x4, 0,
   [⟨31, 16, .RO, 0x0⟩, ⟨15, 0, .RO, 0x0⟩]⟩
  ]

/-- Register index, region TW, part 1. -/
def rows_tw1 : List RegRow :=
  [
  ⟨.TW_CFG_CRC, 0x70030, 1, 0x100000, 1, 0x4, 0,
   [⟨31, 0, .RO, 0x0⟩]⟩,
  ⟨.TW_P_CFG_CRC, 0x70034, 1, 0x100000, 1, 0x4, 0,
   [⟨31, 0, .RO, 0x0⟩]⟩,
  ⟨.TW_RSYNC, 0x70038, 1, 0x100000, 1, 0x4, 0,
   [⟨31, 28, .RO, 0x0⟩, ⟨10, 0, .RO, 0x0⟩]⟩,
  ⟨.TW_TIME, 0x7003C, 1, 0x100000, 1, 0x4, 0,
   [⟨31, 16, .RWS, 0x0⟩, ⟨15, 0, .RO, 0x0⟩]⟩
  ]

/-- Register index, region TW. -/
def rows_tw : List RegRow :=
  rows_tw0 ++ rows_tw1

/-- Register index, region VN, part 0. -/
def rows_vn0 : List RegRow :=
  [
  ⟨.VN_CFG, 0x80000, 1, 0x100000, 1, 0x4, 0,
   [⟨31, 16, .RW, 0x3E8⟩, ⟨15, 8, .RW, 0x15⟩, ⟨4, 0, .RW, 0x10⟩]⟩,
  ⟨.VN_WM, 0x80004, 1, 0x100000, 1, 0x4, 0,
   [⟨31, 16, .RW, 0x80⟩, ⟨15, 0, .RW, 0x40⟩]⟩,
  ⟨.VN_DEC, 0x80008, 1, 0x100000, 1, 0x4, 0,
   [⟨31, 16, .RW, 0x1F4⟩, ⟨15, 0, .RW, 0x20⟩]⟩,
  ⟨.VN_CLS, 0x8000C, 1, 0x100000, 1, 0x4, 0,
   [⟨17, 16, .RW, 0x3⟩, ⟨15, 14, .RW, 0x3⟩, ⟨13, 12, .RW, 0x2⟩, ⟨11, 10, .RW, 0x2⟩,
    ⟨9, 8, .RW, 0x2⟩, ⟨5, 4, .RW, 0x3⟩, ⟨3, 2, .RW, 0x1⟩, ⟨1, 0, .RW, 0x1⟩]⟩,
  ⟨.VN_STAT, 0x80010, 1, 0x100000, 1, 0x4, 0,
   [⟨13, 13, .RO, 0x0⟩, ⟨12, 12, .RO, 0x0⟩, ⟨11, 8, .RO, 0x0⟩, ⟨7, 4, .RO, 0x0⟩,
    ⟨3, 0, .RO, 0x0⟩]⟩,
  ⟨.VN_FILL, 0x80014, 1, 0x100000, 1, 0x4, 0,
   [⟨31, 16, .RO, 0x0⟩, ⟨15, 0, .RO, 0x0⟩]⟩,
  ⟨.VN_OFS_LO, 0x80018, 1, 0x100000, 1, 0x4, 0,
   [⟨31, 0, .RO, 0x0⟩]⟩,
  ⟨.VN_OFS_HI, 0x8001C, 1, 0x100000, 1, 0x4, 0,
   [⟨31, 0, .RO, 0x0⟩]⟩,
  ⟨.VN_ACK_LO, 0x80020, 1, 0x100000, 1, 0x4, 0,
   [⟨31, 0, .RO, 0x0⟩]⟩,
  ⟨.VN_ACK_HI, 0x80024, 1, 0x100000, 1, 0x4, 0,
   [⟨31, 0, .RO, 0x0⟩]⟩,
  ⟨.VN_WIN, 0x80028, 1, 0x100000, 1, 0x4, 0,
   [⟨31, 0, .RO, 0x0⟩]⟩,
  ⟨.VN_EVT, 0x8002C, 1, 0x100000, 1, 0x4, 0,
   [⟨6, 6, .W1C, 0x0⟩, ⟨5, 5, .W1C, 0x0⟩, ⟨4, 4, .W1C, 0x0⟩, ⟨3, 3, .W1C, 0x0⟩,
    ⟨2, 2, .W1C, 0x0⟩, ⟨1, 1, .W1C, 0x0⟩, ⟨0, 0, .W1C, 0x0⟩]⟩
  ]

/-- Register index, region VN, part 1. -/
def rows_vn1 : List RegRow :=
  [
  ⟨.VN_CNT_DROP, 0x80030, 1, 0x100000, 1, 0x4, 0,
   [⟨31, 16, .RO, 0x0⟩, ⟨15, 0, .RO, 0x0⟩]⟩,
  ⟨.VN_CNT_RTX, 0x80034, 1, 0x100000, 1, 0x4, 0,
   [⟨31, 0, .RO, 0x0⟩]⟩,
  ⟨.VN_TICK_BYTES, 0x80038, 1, 0x100000, 1, 0x4, 0,
   [⟨31, 0, .RO, 0x0⟩]⟩,
  ⟨.VN_CTRL, 0x8003C, 1, 0x100000, 1, 0x4, 0,
   [⟨0, 0, .WO, 0x0⟩]⟩,
  ⟨.SK_CFG, 0x81000, 8, 0x40, 1, 0x4, 0,
   [⟨31, 16, .RW, 0x0⟩, ⟨3, 0, .RW, 0x0⟩]⟩,
  ⟨.SK_BASE, 0x81004, 8, 0x40, 1, 0x4, 0,
   [⟨18, 0, .RW, 0x0⟩]⟩,
  ⟨.SK_LEN, 0x81008, 8, 0x40, 1, 0x4, 0,
   [⟨31, 16, .RW, 0x0⟩, ⟨15, 0, .RW, 0x0⟩]⟩,
  ⟨.SK_TRIG, 0x8100C, 8, 0x40, 1, 0x4, 0,
   [⟨31, 28, .RW, 0x0⟩, ⟨27, 24, .RW, 0x0⟩, ⟨23, 23, .RW, 0x0⟩]⟩,
  ⟨.SK_THR, 0x81010, 8, 0x40, 1, 0x4, 0,
   [⟨31, 0, .RW, 0x0⟩]⟩,
  ⟨.SK_CTRL, 0x81014, 8, 0x40, 1, 0x4, 0,
   [⟨2, 2, .WO, 0x0⟩, ⟨1, 1, .WO, 0x0⟩, ⟨0, 0, .WO, 0x0⟩]⟩,
  ⟨.SK_STAT, 0x81018, 8, 0x40, 1, 0x4, 0,
   [⟨31, 15, .RO, 0x0⟩, ⟨4, 4, .RO, 0x0⟩, ⟨3, 3, .RO, 0x0⟩, ⟨2, 0, .RO, 0x0⟩]⟩,
  ⟨.SK_EVT, 0x8101C, 8, 0x40, 1, 0x4, 0,
   [⟨2, 2, .W1C, 0x0⟩, ⟨1, 1, .W1C, 0x0⟩, ⟨0, 0, .W1C, 0x0⟩]⟩
  ]

/-- Register index, region VN, part 2. -/
def rows_vn2 : List RegRow :=
  [
  ⟨.SK_TTICK, 0x81020, 8, 0x40, 1, 0x4, 0,
   [⟨31, 0, .RO, 0x0⟩]⟩,
  ⟨.SK_POS, 0x81024, 8, 0x40, 1, 0x4, 0,
   [⟨31, 16, .RO, 0x0⟩, ⟨15, 0, .RO, 0x0⟩]⟩,
  ⟨.SK_CH, 0x81400, 8, 0x40, 16, 0x4, 0,
   [⟨31, 30, .RW, 0x0⟩, ⟨24, 16, .RW, 0x0⟩, ⟨7, 0, .RW, 0x0⟩]⟩,
  ⟨.SK_RD_ADDR, 0x81800, 1, 0x100000, 1, 0x4, 0,
   [⟨18, 0, .RW, 0x0⟩]⟩,
  ⟨.SK_RD_DATA, 0x81804, 1, 0x100000, 1, 0x4, 0,
   [⟨31, 0, .RO, 0x0⟩]⟩
  ]

/-- Register index, region VN. -/
def rows_vn : List RegRow :=
  rows_vn0 ++ rows_vn1 ++ rows_vn2

/-- Register index, region ECC, part 0. -/
def rows_ecc0 : List RegRow :=
  [
  ⟨.ECC_CFG, 0x90000, 1, 0x100000, 1, 0x4, 0,
   [⟨7, 0, .RWS, 0x8⟩]⟩,
  ⟨.ECC_STAT, 0x90004, 1, 0x100000, 1, 0x4, 0,
   [⟨31, 31, .RO, 0x0⟩, ⟨7, 0, .RO, 0x0⟩]⟩,
  ⟨.ECC_EVT, 0x90008, 1, 0x100000, 1, 0x4, 0,
   [⟨4, 4, .W1C, 0x0⟩, ⟨3, 3, .W1C, 0x0⟩, ⟨2, 2, .W1C, 0x0⟩, ⟨1, 1, .W1C, 0x0⟩,
    ⟨0, 0, .W1C, 0x0⟩]⟩,
  ⟨.ECC_CNT, 0x9000C, 1, 0x100000, 1, 0x4, 0,
   [⟨31, 16, .RO, 0x0⟩, ⟨15, 8, .RO, 0x0⟩, ⟨7, 0, .RO, 0x0⟩]⟩,
  ⟨.ECC_LAST_ADDR, 0x90010, 1, 0x100000, 1, 0x4, 0,
   [⟨31, 0, .RO, 0x0⟩]⟩,
  ⟨.ECC_SCRUB, 0x90014, 1, 0x100000, 1, 0x4, 0,
   [⟨31, 16, .RO, 0x0⟩, ⟨15, 0, .RO, 0x0⟩]⟩,
  ⟨.ECC_INJ_ADDR, 0x90018, 1, 0x100000, 1, 0x4, 0,
   [⟨31, 0, .RW, 0x0⟩]⟩,
  ⟨.ECC_INJ_CTRL, 0x9001C, 1, 0x100000, 1, 0x4, 0,
   [⟨31, 31, .RW, 0x0⟩, ⟨12, 0, .RW, 0x0⟩]⟩,
  ⟨.ECC_LOG_STAT, 0x90020, 1, 0x100000, 1, 0x4, 0,
   [⟨31, 16, .RO, 0x0⟩, ⟨9, 0, .RO, 0x0⟩]⟩,
  ⟨.ECC_CTRL, 0x90024, 1, 0x100000, 1, 0x4, 0,
   [⟨0, 0, .WO, 0x0⟩]⟩,
  ⟨.ECC_RET, 0x90100, 64, 0x4, 1, 0x4, 0,
   [⟨31, 31, .RWS, 0x0⟩, ⟨19, 16, .RWS, 0x0⟩, ⟨15, 0, .RWS, 0x0⟩]⟩,
  ⟨.ECC_LOG, 0x98000, 1024, 0x20, 8, 0x4, 0,
   [⟨31, 0, .RO, 0x0⟩]⟩
  ]

/-- Register index, region ECC. -/
def rows_ecc : List RegRow :=
  rows_ecc0

/-- Register index, region HP, part 0. -/
def rows_hp0 : List RegRow :=
  [
  ⟨.HP_CFG, 0xA0000, 1, 0x100000, 1, 0x4, 0,
   [⟨31, 16, .RWS, 0xA⟩, ⟨8, 8, .RWS, 0x0⟩, ⟨0, 0, .RWS, 0x1⟩]⟩,
  ⟨.HP_ADDR, 0xA0004, 1, 0x100000, 1, 0x4, 0,
   [⟨31, 0, .RWS, 0xC0A8000A⟩]⟩,
  ⟨.HP_MAC_LO, 0xA0008, 1, 0x100000, 1, 0x4, 0,
   [⟨31, 0, .RWS, 0x0⟩]⟩,
  ⟨.HP_MAC_HI, 0xA000C, 1, 0x100000, 1, 0x4, 0,
   [⟨15, 0, .RWS, 0x0⟩]⟩,
  ⟨.HP_PORT, 0xA0010, 1, 0x100000, 1, 0x4, 0,
   [⟨31, 16, .RWS, 0xB807⟩, ⟨15, 0, .RWS, 0xB806⟩]⟩,
  ⟨.HP_PEER, 0xA0014, 1, 0x100000, 1, 0x4, 0,
   [⟨31, 0, .RWS, 0x0⟩]⟩,
  ⟨.HP_STAT, 0xA0018, 1, 0x100000, 1, 0x4, 0,
   [⟨7, 5, .RO, 0x0⟩, ⟨4, 4, .RO, 0x0⟩, ⟨3, 1, .RO, 0x0⟩, ⟨0, 0, .RO, 0x0⟩]⟩,
  ⟨.HP_EVT, 0xA001C, 1, 0x100000, 1, 0x4, 0,
   [⟨3, 3, .W1C, 0x0⟩, ⟨2, 2, .W1C, 0x0⟩, ⟨1, 1, .W1C, 0x0⟩, ⟨0, 0, .W1C, 0x0⟩]⟩,
  ⟨.HP_CNT, 0xA0020, 1, 0x100000, 1, 0x4, 0,
   [⟨31, 16, .RO, 0x0⟩, ⟨15, 0, .RO, 0x0⟩]⟩,
  ⟨.HP_SESS, 0xA0040, 4, 0x4, 1, 0x4, 0,
   [⟨31, 16, .RO, 0x0⟩, ⟨9, 8, .RO, 0x0⟩, ⟨7, 6, .RO, 0x0⟩, ⟨5, 3, .RO, 0x0⟩, ⟨0, 0, .RO, 0x0⟩]⟩,
  ⟨.SEC_STAT, 0xA1000, 1, 0x100000, 1, 0x4, 0,
   [⟨7, 7, .RO, 0x0⟩, ⟨6, 6, .RO, 0x0⟩, ⟨5, 5, .RO, 0x0⟩, ⟨4, 0, .RO, 0x0⟩]⟩,
  ⟨.SEC_EVT, 0xA1004, 1, 0x100000, 1, 0x4, 0,
   [⟨6, 6, .W1C, 0x0⟩, ⟨5, 5, .W1C, 0x0⟩, ⟨4, 0, .W1C, 0x0⟩]⟩
  ]

/-- Register index, region HP, part 1. -/
def rows_hp1 : List RegRow :=
  [
  ⟨.SEC_ACT, 0xA1008, 1, 0x100000, 1, 0x4, 0,
   [⟨9, 0, .RWS, 0x155⟩]⟩,
  ⟨.SEC_AUTH, 0xA100C, 1, 0x100000, 1, 0x4, 0,
   [⟨31, 16, .RWS, 0x3C⟩, ⟨7, 0, .RWS, 0x8⟩]⟩,
  ⟨.SEC_CTRL, 0xA1010, 1, 0x100000, 1, 0x4, 0,
   [⟨1, 1, .WO, 0x0⟩, ⟨0, 0, .WO, 0x0⟩]⟩,
  ⟨.SEC_KEY, 0xA1040, 8, 0x4, 1, 0x4, 0,
   [⟨31, 16, .RO, 0x0⟩, ⟨15, 8, .RO, 0x0⟩, ⟨2, 1, .RO, 0x0⟩, ⟨0, 0, .RO, 0x0⟩]⟩,
  ⟨.NV_STAT, 0xA2000, 1, 0x100000, 1, 0x4, 0,
   [⟨31, 16, .RO, 0x0⟩, ⟨5, 5, .RO, 0x0⟩, ⟨4, 4, .RO, 0x0⟩, ⟨3, 3, .RO, 0x0⟩, ⟨2, 2, .RO, 0x0⟩,
    ⟨1, 1, .RO, 0x0⟩, ⟨0, 0, .RO, 0x0⟩]⟩,
  ⟨.NV_EVT, 0xA2004, 1, 0x100000, 1, 0x4, 0,
   [⟨3, 3, .W1C, 0x0⟩, ⟨2, 2, .W1C, 0x0⟩, ⟨1, 1, .W1C, 0x0⟩, ⟨0, 0, .W1C, 0x0⟩]⟩,
  ⟨.NV_LIFE, 0xA2008, 1, 0x100000, 1, 0x4, 0,
   [⟨31, 16, .RO, 0x0⟩, ⟨7, 0, .RO, 0x0⟩]⟩,
  ⟨.NV_CLOG, 0xAA000, 1024, 0x20, 8, 0x4, 0,
   [⟨31, 0, .RO, 0x0⟩]⟩
  ]

/-- Register index, region HP. -/
def rows_hp : List RegRow :=
  rows_hp0 ++ rows_hp1

/-- The rows of the region that holds an address (R622). -/
def rowsAt (a : Nat) : List RegRow :=
  let p := a / 0x1000
  if p = 0 then rows_dev
  else if p = 1 then rows_tim
  else if p = 2 then rows_ml
  else if p < 0x10 then []
  else if p < 0x14 then rows_st
  else if p < 0x20 then []
  else if p < 0x30 then rows_ax
  else if p < 0x40 then rows_pl
  else if p < 0x48 then rows_ez
  else if p < 0x50 then rows_br
  else if p < 0x60 then rows_at
  else if p < 0x70 then rows_sf
  else if p < 0x80 then rows_tw
  else if p < 0x90 then rows_vn
  else if p < 0xA0 then rows_ecc
  else if p < 0xC0 then rows_hp
  else []

/-- A register found in the index: its row and the element and part it is. -/
structure RegAt where
  /-- The row. -/
  row : RegRow
  /-- Element. -/
  i : Nat
  /-- Part. -/
  j : Nat
  deriving DecidableEq, Repr

/-- The element of a row that stands at an address. -/
def RegRow.at? (r : RegRow) (a : Nat) : Option RegAt :=
  if a < r.base then none
  else
    let d := a - r.base
    let i := d / r.s1
    let m := d % r.s1
    let j := m / r.s2
    if m % r.s2 = 0 ∧ i < r.n1 ∧ j < r.n2 ∧ r.first ≤ i then some ⟨r, i, j⟩ else none

/-- The register at an address, where the register index lists one (R624). -/
def locate (a : Nat) : Option RegAt := (rowsAt a).findSome? (fun r => r.at? a)

/-- A register's word when every field holds its Reset value (R12). -/
def resetOf (fs : List FldSpec) : Nat := fs.foldl (fun n f => n + f.rst * 2 ^ f.lo) 0

/-- The Reset word of the register at an address, 0 where the index lists none. `EZ_ENG_CFG` of
engines 4 to 6 is reserved and reads 0 (chapter 6, EZ_ENG_CFG). DESIGN CHOICE, log entry 9. -/
def resetWord (a : Nat) : Word :=
  match locate a with
  | some r => if r.row.name = .EZ_ENG_CFG ∧ 4 ≤ r.i then 0 else BitVec.ofNat 32 (resetOf r.row.fields)
  | none => 0

end Sys2Proof.Machine
end

