-- ==== Sys2Proof/Machine/Bits.lean ====
section
/-! DEFINITION. Bits and numbers: fields of words, sign extension, byte order (R2), saturation, and
the two checksums whose polynomials the spec gives (R73, R443). -/

namespace Sys2Proof.Machine

/-- The value of a field of a word. -/
def Fld.get (f : Fld) (w : Word) : Nat := w.toNat / 2 ^ f.lo % 2 ^ f.width

/-- The bits of a field as a mask. -/
def Fld.mask (f : Fld) : Word := BitVec.ofNat 32 ((2 ^ f.width - 1) * 2 ^ f.lo)

/-- The word with a field replaced, the value taken modulo the field's size. -/
def Fld.put (f : Fld) (w : Word) (v : Nat) : Word :=
  (w &&& ~~~ f.mask) ||| (BitVec.ofNat 32 (v * 2 ^ f.lo) &&& f.mask)

/-- A number of n bits read as two's complement. -/
def signed (n v : Nat) : Int := if v % 2 ^ n < 2 ^ (n - 1) then (v % 2 ^ n : Nat) else (v % 2 ^ n : Nat) - (2 ^ n : Nat)

/-- The low n bits of an integer. -/
def unsigned (n : Nat) (x : Int) : Nat := (x % (2 ^ n : Nat)).toNat

/-- An integer confined to a range. -/
def clampI (lo hi x : Int) : Int := if x < lo then lo else if hi < x then hi else x

/-- Saturation to a signed number of n bits. DEDUCED, log entry 7. -/
def satI (n : Nat) (x : Int) : Int := clampI (-(2 ^ (n - 1) : Nat)) ((2 ^ (n - 1) : Nat) - 1) x

/-- A count that stops at the largest value of n bits. -/
def satN (n v : Nat) : Nat := min v (2 ^ n - 1)

/-- Bits hi down to lo of a word. -/
def bits (w : Word) (hi lo : Nat) : Nat := w.toNat / 2 ^ lo % 2 ^ (hi + 1 - lo)

/-- One bit of a word. -/
def bit (w : Word) (i : Nat) : Bool := w.toNat / 2 ^ i % 2 = 1

/-- A Bool as a bit. -/
def b2n (b : Bool) : Nat := if b then 1 else 0

/-- A word from a number. -/
def word (n : Nat) : Word := BitVec.ofNat 32 n

/-- A word from an integer, modulo 2^32. -/
def wordI (x : Int) : Word := BitVec.ofInt 32 x

/-- Two 16-bit halves. -/
def halves (hi lo : Int) : Word := word (unsigned 16 hi * 65536 + unsigned 16 lo)

/-- The signed value of a word. -/
def sword (w : Word) : Int := w.toInt

/-- The bytes of a word, least significant first (R2). -/
def wordBytes (w : Word) : List Byte :=
  [w.extractLsb' 0 8, w.extractLsb' 8 8, w.extractLsb' 16 8, w.extractLsb' 24 8]

/-- The bytes of words in order. -/
def wordsBytes (ws : List Word) : List Byte := ws.flatMap wordBytes

/-- The number that bytes spell, least significant first (R2). -/
def bytesNat : List Byte → Nat
  | [] => 0
  | b :: t => b.toNat + 256 * bytesNat t

/-- n bytes of a number, least significant first. -/
def natBytes : Nat → Nat → List Byte
  | 0, _ => []
  | n + 1, v => BitVec.ofNat 8 v :: natBytes n (v / 256)

/-- The words that bytes spell, four to a word. -/
def bytesWords : List Byte → List Word
  | a :: b :: c :: e :: t => word (bytesNat [a, b, c, e]) :: bytesWords t
  | [] => []
  | l => [word (bytesNat l)]

/-- One bit of a reflected CRC with a given reversed polynomial. -/
def crcBit (poly : Word) (c : Word) : Word := if c.getLsbD 0 then (c >>> 1) ^^^ poly else c >>> 1

/-- One byte of a reflected CRC. -/
def crcByte (poly : Word) (c : Word) (b : Byte) : Word :=
  let x := c ^^^ b.setWidth 32
  crcBit poly (crcBit poly (crcBit poly (crcBit poly
    (crcBit poly (crcBit poly (crcBit poly (crcBit poly x)))))))

/-- The IEEE 802.3 check sequence: polynomial 0x04C1_1DB7 reflected, initial value all ones, final
complement (R73). -/
def crc32 (bs : List Byte) : Word := ~~~ (bs.foldl (crcByte 0xEDB88320#32) 0xFFFFFFFF#32)

/-- CRC-32C over bytes from a given initial value: polynomial 0x1EDC_6F41 reflected, final
complement. -/
def crc32c (init : Word) (bs : List Byte) : Word := ~~~ (bs.foldl (crcByte 0x82F63B78#32) init)

/-- Epoch e1 is higher than epoch e2 (R88). -/
def epochHigher (e1 e2 : Nat) : Bool :=
  let df := (e1 + 256 - e2 % 256) % 256
  1 ≤ df && df ≤ 127

/-- A 32-bit number comes after another by less than half the range (R44). -/
def laterWord (a b : Word) : Bool := 0 < (a - b).toInt

/-- The frame time extended to network time: the time nearest to a known one whose low 32 bits are
the frame time (R45). -/
def extendTime (near : Nat) (w : Word) : Nat :=
  (Int.ofNat near + (w - BitVec.ofNat 32 near).toInt).toNat

/-- The n-th element of a list of numbers, 0 beyond its end. -/
def nth (l : List Nat) (i : Nat) : Nat := l.getD i 0

/-- The n-th word of a list, 0 beyond its end. -/
def nthW (l : List Word) (i : Nat) : Word := l.getD i 0

/-- The n-th element of a list set, the list unchanged beyond its end. -/
def setNth {α : Type} (l : List α) (i : Nat) (v : α) : List α := l.set i v

/-- A list without repeats in ascending order. -/
def sortNat (l : List Nat) : List Nat :=
  l.foldl (fun acc x =>
    if acc.contains x then acc else acc.takeWhile (· < x) ++ x :: acc.dropWhile (· < x)) []

/-- A number inserted in ascending order, repeats kept. -/
def insNat (x : Nat) (l : List Nat) : List Nat := l.takeWhile (· ≤ x) ++ x :: l.dropWhile (· ≤ x)

/-- A value lies between two others. -/
def within (lo hi x : Nat) : Bool := decide (lo ≤ x) && decide (x ≤ hi)

end Sys2Proof.Machine
end

