-- ==== Sys2Proof/Machine/Sparse.lean ====
section
/-! DEFINITION. Sparse stores: a list of keys and values in one canonical form, the keys strictly
rising and no entry equal to what an unlisted key reads as. Registers, memory and the numbered
units of the device are held so. -/

namespace Sys2Proof.Machine

variable {α : Type}

/-- The value at a key; an unlisted key reads as `f` gives. -/
def Sparse.get (f : Nat → α) : List (Nat × α) → Nat → α
  | [], k => f k
  | (k', v) :: t, k => if k = k' then v else Sparse.get f t k

/-- Set the entry of a key, in rising order of keys. -/
def Sparse.insert : List (Nat × α) → Nat → α → List (Nat × α)
  | [], k, v => [(k, v)]
  | (k', v') :: t, k, v =>
    if k = k' then (k, v) :: t
    else if k < k' then (k, v) :: (k', v') :: t
    else (k', v') :: Sparse.insert t k v

/-- The store with a value put at a key: the entry that the key had goes, and a new one stands in
rising order of keys unless the key reads so unlisted. -/
def Sparse.put [DecidableEq α] (f : Nat → α) (l : List (Nat × α)) (k : Nat) (v : α) : List (Nat × α) :=
  let rest := l.filter (fun p => p.1 ≠ k)
  if v = f k then rest else Sparse.insert rest k v

/-- The canonical form, above a lower bound of the keys. -/
def Sparse.wfFrom [DecidableEq α] (f : Nat → α) : Nat → List (Nat × α) → Bool
  | _, [] => true
  | n, (k, v) :: t => decide (n ≤ k) && decide (v ≠ f k) && Sparse.wfFrom f (k + 1) t

/-- The canonical form: keys strictly rising, no entry equal to what the key reads unlisted. -/
def Sparse.wf [DecidableEq α] (f : Nat → α) (l : List (Nat × α)) : Bool := Sparse.wfFrom f 0 l

/-- The entry of a key in a store whose unlisted keys do not exist. -/
def Sparse.find? : List (Nat × α) → Nat → Option α
  | [], _ => none
  | (k', v) :: t, k => if k = k' then some v else Sparse.find? t k

/-- Replace the entry of a key that exists; add nothing. -/
def Sparse.modify (l : List (Nat × α)) (k : Nat) (g : α → α) : List (Nat × α) :=
  l.map (fun p => if p.1 = k then (p.1, g p.2) else p)

end Sys2Proof.Machine
end

