-- ==== Sys2Proof/Machine/State.lean ====
section
/-! DEFINITION. The state of the block, what stops it, and the state right after reset. -/

namespace Sys2Proof.Machine

/-- What leaves the device: frames on the lines and on the twin link, host-port traffic, and levels
on output balls. DEDUCED, log entry 13. -/
inductive Out
  | cyc (line : Nat) (f : CycFrame)
  | cst (line : Nat) (f : CstFrame)
  | bcn (line : Nat) (f : BcnFrame)
  | mbx (line : Nat) (addr service index count : Nat) (words : List Word)
  | dreq (line : Nat)
  | drsp (line : Nat) (turnaroundPs : Nat)
  | tickPulse (ofs : Int) (width : Nat)
  | heartbeat (hb : Heartbeat)
  | relay (line : Nat) (s : Seg)
  | ident (pairId : Word) (unit : Nat) (cfgCrc : Word)
  | copy (size : Nat) (img : CopyImage) (good : Bool)
  | rsync (page : Nat) (bytes : List Byte) (last good : Bool)
  | ctrl (code arg : Nat)
  | time (txTime : Word) (txPs : Nat) (rxTime : Word) (rxPs : Nat)
  | health (word : Word)
  | shp (sid : Word) (type : Nat) (seq : Nat) (req : Word) (result : Nat) (words : List Word)
      (tag : List Byte) (dst : Word) (port : BitVec 16)
  | arpReply (addr : Word)
  | debugId
  | debugNone
  deriving DecidableEq, Repr

/-- The device: everything inside the part, its MRAM included. DESIGN CHOICE, log entry 1. -/
structure Dev where
  /-- The registers whose word differs from the Reset word, by ascending address (R10,R12,R622;
  words by address). -/
  regs : List (Nat × Word) := []
  /-- The same as it stood at the tick instant: what computations of the tick that follow a write
  by one tick read (R300,R61; words by address). -/
  regsT : List (Nat × Word) := []
  /-- The SRAM bytes that are not 0, by ascending memory code (R527,R529; bytes by memory code).
  -/
  mem : List Host.Cell := []
  /-- Network time (R31,R40; record). -/
  time : TimeSt := {}
  /-- The lines and the station contexts (R65,R116; record). -/
  net : NetSt := {}
  /-- The dispatcher and the kernel threads (R191; record). -/
  easel : EaselSt := {}
  /-- The Brush engines (R218; 4, by index). -/
  engs : List (Nat × BrEng) := []
  /-- The axes (R262,R293; 128, by index). -/
  axes : List (Nat × AxSt) := []
  /-- The feedback decoders (R333; 128, by index). -/
  decs : List (Nat × DecSt) := []
  /-- The profile generators (R302; 128, by index). -/
  prfs : List (Nat × PrfSt) := []
  /-- The compare lists (R347; 16, by index). -/
  cmps : List (Nat × CmpSt) := []
  /-- The process loops (R365; 384, by index). -/
  loops : List (Nat × LoopSt) := []
  /-- The override groups (R367; 96, by index). -/
  grps : List (Nat × GrpSt) := []
  /-- The recipes and tasks (R383; record). -/
  rcp : RecSt := {}
  /-- The safety functions (R425; record). -/
  saf : SafSt := {}
  /-- The twin link and the roles (R460; record). -/
  twin : TwinSt := {}
  /-- The record stream (R504; record). -/
  vn : VnSt := {}
  /-- The trace units (R510; 8, by index). -/
  sks : List (Nat × SkSt) := []
  /-- The events of the present tick in the order in which they took effect (R61,R501; list). -/
  evts : List EvRec := []
  /-- The ECC blocks (R518; record). -/
  ecc : EccSt := {}
  /-- The host port and its sessions (R535; record). -/
  host : HostSt := {}
  /-- The MRAM (R554; record). -/
  nv : NvSt := {}
  /-- STORE, COMMIT_LC and the staging (R556; record). -/
  store : StoreSt := {}
  /-- The input balls and the monitors (R460,R570; record). -/
  balls : Balls := {}
  /-- Start-up and the operating modes (R568; record). -/
  mode : ModeSt := {}
  /-- What the device has sent since the last tick instant: the model's own field (R14,R504;
  list). -/
  out : List Out := []
  /-- How many free values have been drawn: the model's own field (R543; count). -/
  free : Nat := 0
  deriving DecidableEq, Repr

/-- The block with what stands around it: the device, the stations of its backbone by address, and
the commands that wait, first in, first out. DEDUCED, log entry 69. -/
structure State where
  /-- The device. -/
  dev : Dev := {}
  /-- The stations of the Maltus lines that exist, by address (R76, R151). -/
  stations : List (Nat × StationSt) := []
  /-- The commands that wait. -/
  pending : List Instr := []
  deriving DecidableEq, Repr

/-- What ends a run because the spec leaves the device's behaviour undefined. -/
inductive Fault
  /-- Raised by RESET_RELEASE where a power-up departed from the order of R599 and R600: "the
  device's state is undefined until a power-up with the correct order" (R601). Safe: the model
  stops where the hardware goes on in some state. -/
  | powerUpUndefined
  deriving DecidableEq, Repr

/-- What the model turns away by name. -/
inductive Refusal
  /-- A command that has no meaning yet. Safe: the model stops. -/
  | notModelled (mnemonic : String)
  /-- Raised by DEBUG_PORT_ACCESS for an access other than an identification read while key slot 0
  is not provisioned: the spec permits it and does not say what the port then does (R617). Safe:
  the model stops. -/
  | debugPortUndescribed
  deriving DecidableEq, Repr

/-- The machine right after reset: mode Reset, every register at its Reset value (R12, R568), every
byte of SRAM 0 (R527), nothing waiting. DESIGN CHOICE, log entry 1. -/
def State.reset : State := {}

end Sys2Proof.Machine
end

