-- ==== Sys2Proof/Machine/Ops.lean ====
section
/-! DEFINITION. The named operations over the device: registers and their fields, the numbered
units, network time, events, the error log, memory with its error correction, and outputs. -/

namespace Sys2Proof.Machine

/-! ## Registers -/

/-- The word of the register at an address. DESIGN CHOICE, log entry 9. -/
def Dev.rd (d : Dev) (a : Nat) : Word := Sparse.get resetWord d.regs a

/-- The device with the word of a register replaced. DESIGN CHOICE, log entry 9. -/
def Dev.wr (d : Dev) (a : Nat) (w : Word) : Dev := { d with regs := Sparse.put resetWord d.regs a w }

/-- The value of a field. -/
def Dev.fld (d : Dev) (f : Fld) : Nat := f.get (d.rd f.adr)

/-- The value of a field read as two's complement. -/
def Dev.sfld (d : Dev) (f : Fld) : Int := signed f.width (d.fld f)

/-- A one-bit field. -/
def Dev.flag (d : Dev) (f : Fld) : Bool := d.fld f != 0

/-- The device with a field set, the value taken modulo the field's size. -/
def Dev.set (d : Dev) (f : Fld) (v : Nat) : Dev := d.wr f.adr (f.put (d.rd f.adr) v)

/-- The device with a one-bit field set or cleared. -/
def Dev.setB (d : Dev) (f : Fld) (b : Bool) : Dev := d.set f (b2n b)

/-- The device with a field set to a two's-complement value. -/
def Dev.setI (d : Dev) (f : Fld) (x : Int) : Dev := d.set f (unsigned f.width x)

/-- The device with a count raised, saturating at its all-ones value. -/
def Dev.bump (d : Dev) (f : Fld) (n : Nat := 1) : Dev := d.set f (satN f.width (d.fld f + n))

/-- The device with a count raised modulo its size. -/
def Dev.bumpMod (d : Dev) (f : Fld) (n : Nat := 1) : Dev := d.set f (d.fld f + n)

/-- The device with the largest value of a field kept. -/
def Dev.raise (d : Dev) (f : Fld) (v : Nat) : Dev :=
  if d.fld f < satN f.width v then d.set f (satN f.width v) else d

/-- The word of a register as it stood at the tick instant. DESIGN CHOICE, log entry 9. -/
def Dev.rdT (d : Dev) (a : Nat) : Word := Sparse.get resetWord d.regsT a

/-- The value of a field as it stood at the tick instant. -/
def Dev.fldT (d : Dev) (f : Fld) : Nat := f.get (d.rdT f.adr)

/-- The same read as two's complement. -/
def Dev.sfldT (d : Dev) (f : Fld) : Int := signed f.width (d.fldT f)

/-- A one-bit field as it stood at the tick instant. -/
def Dev.flagT (d : Dev) (f : Fld) : Bool := d.fldT f != 0

/-! ## The numbered units -/

/-- The state of axis a. -/
def Dev.ax (d : Dev) (a : Nat) : AxSt := Sparse.get (fun _ => {}) d.axes a

/-- The device with the state of axis a changed. -/
def Dev.updAx (d : Dev) (a : Nat) (g : AxSt → AxSt) : Dev :=
  { d with axes := Sparse.put (fun _ => {}) d.axes a (g (d.ax a)) }

/-- The decoder of axis a. -/
def Dev.dec (d : Dev) (a : Nat) : DecSt := Sparse.get (fun _ => {}) d.decs a

/-- The device with the decoder of axis a changed. -/
def Dev.updDec (d : Dev) (a : Nat) (g : DecSt → DecSt) : Dev :=
  { d with decs := Sparse.put (fun _ => {}) d.decs a (g (d.dec a)) }

/-- The profile generator of axis a. -/
def Dev.prf (d : Dev) (a : Nat) : PrfSt := Sparse.get (fun _ => {}) d.prfs a

/-- The device with the profile generator of axis a changed. -/
def Dev.updPrf (d : Dev) (a : Nat) (g : PrfSt → PrfSt) : Dev :=
  { d with prfs := Sparse.put (fun _ => {}) d.prfs a (g (d.prf a)) }

/-- The state of compare list l. -/
def Dev.cmp (d : Dev) (l : Nat) : CmpSt := Sparse.get (fun _ => {}) d.cmps l

/-- The device with compare list l changed. -/
def Dev.updCmp (d : Dev) (l : Nat) (g : CmpSt → CmpSt) : Dev :=
  { d with cmps := Sparse.put (fun _ => {}) d.cmps l (g (d.cmp l)) }

/-- The state of process loop i. -/
def Dev.loop (d : Dev) (i : Nat) : LoopSt := Sparse.get (fun _ => {}) d.loops i

/-- The device with process loop i changed. -/
def Dev.updLoop (d : Dev) (i : Nat) (g : LoopSt → LoopSt) : Dev :=
  { d with loops := Sparse.put (fun _ => {}) d.loops i (g (d.loop i)) }

/-- The state of override group g. -/
def Dev.grp (d : Dev) (g : Nat) : GrpSt := Sparse.get (fun _ => {}) d.grps g

/-- The device with an override group changed. -/
def Dev.updGrp (d : Dev) (i : Nat) (g : GrpSt → GrpSt) : Dev :=
  { d with grps := Sparse.put (fun _ => {}) d.grps i (g (d.grp i)) }

/-- The state of recipe r. -/
def Dev.recipe (d : Dev) (r : Nat) : RcpSt := Sparse.get (fun _ => {}) d.rcp.rcps r

/-- The device with recipe r changed. -/
def Dev.updRecipe (d : Dev) (r : Nat) (g : RcpSt → RcpSt) : Dev :=
  { d with rcp := { d.rcp with rcps := Sparse.put (fun _ => {}) d.rcp.rcps r (g (d.recipe r)) } }

/-- The state of edge unit u. -/
def Dev.edge (d : Dev) (u : Nat) : EdgeSt := Sparse.get (fun _ => {}) d.rcp.edges u

/-- The device with edge unit u changed. -/
def Dev.updEdge (d : Dev) (u : Nat) (g : EdgeSt → EdgeSt) : Dev :=
  { d with rcp := { d.rcp with edges := Sparse.put (fun _ => {}) d.rcp.edges u (g (d.edge u)) } }

/-- The state of zone z. -/
def Dev.zone (d : Dev) (z : Nat) : ZoneSt := Sparse.get (fun _ => {}) d.saf.zones z

/-- The device with zone z changed. -/
def Dev.updZone (d : Dev) (z : Nat) (g : ZoneSt → ZoneSt) : Dev :=
  { d with saf := { d.saf with zones := Sparse.put (fun _ => {}) d.saf.zones z (g (d.zone z)) } }

/-- The state of safety connection c. -/
def Dev.conn (d : Dev) (c : Nat) : ConnSt := Sparse.get (fun _ => {}) d.saf.conns c

/-- The device with safety connection c changed. -/
def Dev.updConn (d : Dev) (c : Nat) (g : ConnSt → ConnSt) : Dev :=
  { d with saf := { d.saf with conns := Sparse.put (fun _ => {}) d.saf.conns c (g (d.conn c)) } }

/-- The state of line port l. -/
def Dev.line (d : Dev) (l : Nat) : LineSt := Sparse.get (fun _ => {}) d.net.lines l

/-- The device with line port l changed. -/
def Dev.updLine (d : Dev) (l : Nat) (g : LineSt → LineSt) : Dev :=
  { d with net := { d.net with lines := Sparse.put (fun _ => {}) d.net.lines l (g (d.line l)) } }

/-- What the head keeps of station s. -/
def Dev.head (d : Dev) (s : Nat) : HeadSt := Sparse.get (fun _ => {}) d.net.heads s

/-- The device with what the head keeps of station s changed. -/
def Dev.updHead (d : Dev) (s : Nat) (g : HeadSt → HeadSt) : Dev :=
  { d with net := { d.net with heads := Sparse.put (fun _ => {}) d.net.heads s (g (d.head s)) } }

/-- The state of trace unit u. -/
def Dev.sk (d : Dev) (u : Nat) : SkSt := Sparse.get (fun _ => {}) d.sks u

/-- The device with trace unit u changed. -/
def Dev.updSk (d : Dev) (u : Nat) (g : SkSt → SkSt) : Dev :=
  { d with sks := Sparse.put (fun _ => {}) d.sks u (g (d.sk u)) }

/-- The state of Brush engine e. -/
def Dev.eng (d : Dev) (e : Nat) : BrEng := Sparse.get (fun _ => {}) d.engs e

/-- The device with Brush engine e changed. -/
def Dev.updEng (d : Dev) (e : Nat) (g : BrEng → BrEng) : Dev :=
  { d with engs := Sparse.put (fun _ => {}) d.engs e (g (d.eng e)) }

/-- A meaning that acts on the device alone. DESIGN CHOICE, log entry 3. -/
def State.onDev (s : State) (g : Dev → Dev) : Host.Outcome State Fault Refusal :=
  .next { s with dev := g s.dev }

/-- The station at an address, where one exists. -/
def State.stn? (s : State) (a : Nat) : Option StationSt := Sparse.find? s.stations a

/-- A meaning that acts on one station alone: where no such station exists nothing happens. -/
def State.onStation (s : State) (a : Nat) (g : StationSt → StationSt) :
    Host.Outcome State Fault Refusal :=
  .next { s with stations := Sparse.modify s.stations a g }

/-! ## The operating mode and the role -/

/-- The operating modes by code (R568). -/
def mReset : Nat := 0
/-- Load (R568). -/
def mLoad : Nat := 1
/-- Self-test (R568). -/
def mSelfTest : Nat := 2
/-- Listen (R568). -/
def mListen : Nat := 3
/-- Shadow (R568). -/
def mShadow : Nat := 4
/-- Ready (R568). -/
def mReady : Nat := 5
/-- Run (R568). -/
def mRun : Nat := 6
/-- Hold (R568). -/
def mHold : Nat := 7
/-- Stop (R568). -/
def mStop : Nat := 8
/-- Lock-out (R568). -/
def mLockout : Nat := 9
/-- Service (R568). -/
def mService : Nat := 10
/-- Alarm (R568). -/
def mAlarm : Nat := 11

/-- The operating mode. -/
def Dev.omode (d : Dev) : Nat := d.fld R.DEV_MODE.mode

/-- The mode that the rules of other chapters see: in Shadow the carried mode (R592). -/
def Dev.rmode (d : Dev) : Nat := if d.omode = mShadow then d.fld R.DEV_MODE.carried else d.omode

/-- The rules see one of these modes. -/
def Dev.modeIn (d : Dev) (l : List Nat) : Bool := l.contains d.rmode

/-- The device is in Load or Service: the writes accepted only there are accepted. -/
def Dev.loadOrService (d : Dev) : Bool := d.modeIn [mLoad, mService]

/-- This unit's ID: 0 for unit A (R460). -/
def Dev.unitId (d : Dev) : Nat := d.fld R.TW_STAT.unit

/-- A twin installation (R461). -/
def Dev.isTwin (d : Dev) : Bool := d.flag R.TW_CFG.twin

/-- This unit holds the active role. -/
def Dev.isActive (d : Dev) : Bool := d.flag R.TW_STAT.role

/-! ## Network time -/

/-- T(n) of the present tick in network time (R32). -/
def Dev.now (d : Dev) : Nat := d.time.tick * d.time.tickNs

/-- The present tick. -/
def Dev.tick (d : Dev) : Nat := d.time.tick

/-- Epoch time of T(n): network time plus the signed offset (R41). -/
def Dev.epochTime (d : Dev) : BitVec 64 :=
  BitVec.ofNat 64 d.now + ((d.rd R.TIM_EPOCH_HI.adr) ++ (d.rd R.TIM_EPOCH_LO.adr))

/-- Whole ticks that hold a time in µs: at least 1, halves rounded up (R386). -/
def Dev.ticksOfUs (d : Dev) (us : Nat) : Nat :=
  max 1 ((us * 1000 + d.time.tickNs / 2) / d.time.tickNs)

/-- Whole ticks that a time in ms takes, rounded up. -/
def Dev.ticksOfMs (d : Dev) (ms : Nat) : Nat := (ms * 1000000 + d.time.tickNs - 1) / d.time.tickNs

/-! ## Outputs, free values and events -/

/-- The device sends something. DEDUCED, log entry 13. -/
def Dev.emit (d : Dev) (o : Out) : Dev := { d with out := d.out ++ [o] }

/-- A free value of 128 bits, and the device with its count advanced. DESIGN CHOICE, log entry 5. -/
def Dev.draw (d : Dev) : BitVec 128 × Dev := (Config.freeValue d.free, { d with free := d.free + 1 })

/-- An event of the present tick is recorded (R58, R62); one of the time before the first tick carries no
finer timestamp and, as one added detail word, the time since leaving Reset or since the RESTART in µs
(R60). -/
def Dev.record (d : Dev) (e : EvRec) : Dev :=
  { d with evts := d.evts ++ [if d.time.numbered then e
      else { e with fine := 0, detail := e.detail.take 7 ++ [word ((d.time.clock - d.time.base) / 1000)] }] }

/-- An _EVT bit is set and its event recorded (R502). -/
def Dev.event (d : Dev) (cls : Nat) (f : Fld) (idx : Nat := 0) (detail : List Word := []) : Dev :=
  (d.setB f true).record { cls := cls, reg := f.adr, bit := f.lo, idx := idx, detail := detail }

/-- An event that sets no _EVT bit, with its sub-code (R502). DESIGN CHOICE, log entry 30. -/
def Dev.note (d : Dev) (cls sub idx : Nat) (detail : List Word := []) : Dev :=
  d.record { cls := cls, bit := sub, idx := idx, detail := detail }

/-- A rejected host command is recorded with its reason (R62, R502). -/
def Dev.noteRej (d : Dev) (reason idx : Nat) : Dev :=
  d.record { cls := 5, rej := true, reason := reason, bit := 1, idx := idx }

/-- What a register write came to, as an entry of a WRITE response reports it (R550). -/
inductive WrRes
  | ok (detail : Nat)
  | rejected (detail : Nat)
  | busErr
  deriving DecidableEq, Repr

/-- A write that has no effect and sets the block's rejection bit (R8). -/
def Dev.rejectAt (d : Dev) (f : Fld) : Dev × WrRes := (d.setB f true, .rejected 0)

/-- A write outside Load and Service that took effect on an RW or RWS register is carried in the state copy of
the tick (R475). -/
def wroteBy (p : Dev × WrRes) (a : Nat) : Dev × WrRes :=
  match p.2 with
  | .ok _ =>
    if p.1.loadOrService ∨ p.1.twin.wrote.contains a then p
    else ({ p.1 with twin := { p.1.twin with wrote := insNat a p.1.twin.wrote } }, p.2)
  | _ => p

/-- In Service, a write that takes effect at the next cold start or entry into Listen sets rst_pend (R587). -/
def restartDue (p : Dev × WrRes) (changed : Bool) : Dev × WrRes :=
  match p.2 with
  | .ok _ => if changed ∧ p.1.rmode = mService then (p.1.setB R.DEV_STAT.rst_pend true, p.2) else p
  | _ => p

/-! ## The error log (R530) -/

/-- An entry is queued for the error log, or counted as lost where 16 entries wait (R530). -/
def Dev.logErr (d : Dev) (type : Nat) (req : BitVec 16) (code : Nat) (count : Nat := 0)
    (bs : BitVec 13 := 0) : Dev :=
  if 16 ≤ d.ecc.queue.length then
    { (d.bump R.ECC_LOG_STAT.lost) with ecc := { d.ecc with lostNext := satN 8 (d.ecc.lostNext + 1) } }
  else
    { d with ecc := { d.ecc with
        lostNext := 0,
        queue := d.ecc.queue ++ [{ type := type, req := req, tick := d.tick, code := word code,
                                   count := satN 16 count, bits := bs, lost := d.ecc.lostNext,
                                   time := d.epochTime }] } }

/-! ## Byte-level error correction (R518, R519) -/

/-- The check bits c4 to c0 of a byte (R518). -/
def checkBits (b : Byte) : BitVec 5 :=
  let g := b.getLsbD
  let c0 := g 0 ^^ g 1 ^^ g 3 ^^ g 4 ^^ g 6
  let c1 := g 0 ^^ g 2 ^^ g 3 ^^ g 5 ^^ g 6
  let c2 := g 1 ^^ g 2 ^^ g 3 ^^ g 7
  let c3 := g 4 ^^ g 5 ^^ g 6 ^^ g 7
  let c4 := g 0 ^^ g 1 ^^ g 2 ^^ g 3 ^^ g 4 ^^ g 5 ^^ g 6 ^^ g 7 ^^ c0 ^^ c1 ^^ c2 ^^ c3
  BitVec.ofNat 5 (b2n c4 * 16 + b2n c3 * 8 + b2n c2 * 4 + b2n c1 * 2 + b2n c0)

/-- The 13 stored bits of a byte: d7 to d0 above c4 to c0 (R518, ECC_INJ_CTRL). -/
def storedBits (b : Byte) : BitVec 13 := b ++ checkBits b

/-- The outcome of a checked read (R519). -/
inductive EccRead
  | clean (b : Byte)
  | corrected (b : Byte)
  | bad
  deriving DecidableEq, Repr

/-- The data bit at a Hamming position, where the position is one (R519). -/
def hammingData (s : Nat) : Option Nat :=
  match s with
  | 3 => some 0 | 5 => some 1 | 6 => some 2 | 7 => some 3
  | 9 => some 4 | 10 => some 5 | 11 => some 6 | 12 => some 7
  | _ => none

/-- The checker's decision on 13 bits read (R519). -/
def eccCheck (r : BitVec 13) : EccRead :=
  let b : Byte := r.extractLsb' 5 8
  let c := (checkBits b) ^^^ (r.extractLsb' 0 5)
  let s := c.toNat % 16
  let odd := ((List.range 13).foldl (fun p i => p ^^ r.getLsbD i) false)
  if s = 0 then (if odd then .corrected b else .clean b)
  else if odd then
    (if s ≤ 12 then
      match hammingData s with
      | some i => .corrected (b ^^^ (1#8 <<< i))
      | none => .corrected b
    else .bad)
  else .bad

/-- The size in bytes of each memory (R529). -/
def memSize (m : Nat) : Nat :=
  match m with
  | 0 => 0x600000
  | 1 => 0x100000
  | 2 => 0x1000000
  | 3 => 0x200000
  | 4 | 5 | 6 | 7 => 0x80000
  | 8 | 9 | 10 | 11 => 0x40000
  | 12 | 13 | 14 => 0x100000
  | 15 => 0x40000
  | _ => 0

/-- The memory code of a byte (R529). DEDUCED, log entry 10. -/
def memCode (m ofs : Nat) : Nat := m * 0x10000000 + ofs

/-- The memory of a memory code. -/
def memId (code : Nat) : Nat := code / 0x10000000

/-- The offset of a memory code. -/
def memOfs (code : Nat) : Nat := code % 0x10000000

/-- The byte at a memory code as it was written, before any error; an unlisted byte is 0 (R527). -/
def Dev.byteAt (d : Dev) (code : Nat) : Byte := Sparse.get (fun _ => 0) d.mem code

/-- The memory's canonical form: keys strictly rising, no entry equal to 0. DEDUCED, log entry 10. -/
def Memory.wf (m : List Host.Cell) : Bool := Sparse.wf (fun _ => (0 : Byte)) m

/-- The error bits of a stored byte. -/
def Dev.flipAt (d : Dev) (code : Nat) : BitVec 13 := Sparse.get (fun _ => 0) d.ecc.flips code

/-- The error bits of a stored byte set. -/
def Dev.setFlip (d : Dev) (code : Nat) (v : BitVec 13) : Dev :=
  { d with ecc := { d.ecc with flips := Sparse.put (fun _ => 0) d.ecc.flips code v } }

/-- A slow-state page of the Canvas is written while the twin link carries slow state (R472). -/
def Dev.markDirty (d : Dev) (code : Nat) : Dev :=
  if d.twin.copyOn ∧ d.twin.slow.contains (code / 4096) ∧ ¬ d.twin.dirty.contains (code / 4096) then
    { d with twin := { d.twin with dirty := insNat (code / 4096) d.twin.dirty } }
  else d

/-- A byte is written: all 13 bits are replaced, and an armed injection for the byte flips its bits
and disarms (R523, R533). DEDUCED, log entry 10. -/
def Dev.putByte (d : Dev) (code : Nat) (b : Byte) : Dev :=
  let d := { d with mem := Sparse.put (fun _ => 0) d.mem code b }
  let d := d.markDirty code
  if d.flag R.ECC_INJ_CTRL.arm ∧ (d.rd R.ECC_INJ_ADDR.adr).toNat = code then
    (d.setFlip code (BitVec.ofNat 13 (d.fld R.ECC_INJ_CTRL.flip))).setB R.ECC_INJ_CTRL.arm false
  else d.setFlip code 0

/-- Bytes are written at rising addresses. -/
def Dev.putBytes (d : Dev) (code : Nat) : List Byte → Dev
  | [] => d
  | b :: t => (d.putByte code b).putBytes (code + 1) t

/-- The corrections of the page of a code in the present pass. -/
def Dev.pageCnt (d : Dev) (page : Nat) : PageCnt :=
  (d.ecc.pages.find? (fun p => p.page = page)).getD { page := page }

/-- The corrections of a page stored. -/
def Dev.setPage (d : Dev) (p : PageCnt) : Dev :=
  { d with ecc := { d.ecc with
      pages := p :: d.ecc.pages.filter (fun q => q.page ≠ p.page) } }

/-- A byte was corrected: delivered corrected, counted, logged at most once per page and pass, a
retirement candidate at hot_lim, and written back (R520, R521, R522). -/
def Dev.eccCorrected (d : Dev) (req : BitVec 16) (code : Nat) (b : Byte) (r : BitVec 13) : Dev :=
  let d := (d.bump R.ECC_CNT.cor).wr R.ECC_LAST_ADDR.adr (word code)
  let d := d.setB R.ECC_EVT.cor true
  let p := d.pageCnt (code / 4096)
  let n := p.cor + 1
  let d := if p.logged then d else d.logErr 1 req code n r
  let d := d.setPage { p with cor := n, logged := true }
  let lim := d.fld R.ECC_CFG.hot_lim
  let d := if lim ≠ 0 ∧ n = lim then (d.event 2 R.ECC_EVT.hot).logErr 7 req code n r else d
  { d with mem := Sparse.put (fun _ => 0) d.mem code b }.setFlip code 0

/-- A bit of the health word of the present period is set: 4 ecc_unc, 3 sf_diag, 2 mon, 1 div, 0 copy
(R481). -/
def Dev.healthMark (d : Dev) (k : Nat) : Dev :=
  { d with twin := { d.twin with healthBits := d.twin.healthBits ||| 2 ^ k } }

/-- A byte was uncorrectable: counted, latched, recorded as a class-2 event and logged; requesters
of one address in one tick share an entry (R523). DEDUCED, log entry 11. -/
def Dev.eccBad (d : Dev) (req : BitVec 16) (code : Nat) (r : BitVec 13) : Dev :=
  let d := (d.bump R.ECC_CNT.unc).wr R.ECC_LAST_ADDR.adr (word code)
  let d := (d.event 2 R.ECC_EVT.unc 0 [word code]).healthMark 4
  let same := fun (e : LogEnt) => e.type = 2 && e.code == word code && e.tick == d.tick
  if d.ecc.queue.any same then
    { d with ecc := { d.ecc with
        queue := d.ecc.queue.map (fun e => if same e then { e with req := e.req ||| req } else e) } }
  else d.logErr 2 req code ((d.pageCnt (code / 4096)).cor) r

/-- A byte is read by a requester through the checker; none: a bus error (R519 to R524). -/
def Dev.readByte (d : Dev) (req : BitVec 16) (code : Nat) : Dev × Option Byte :=
  let fl := d.flipAt code
  if fl = 0 then (d, some (d.byteAt code))
  else
    let r := storedBits (d.byteAt code) ^^^ fl
    match eccCheck r with
    | .clean b => (d, some b)
    | .corrected b => (d.eccCorrected req code b r, some b)
    | .bad => (d.eccBad req code r, none)

/-- Bytes are read at rising addresses; none where one of them is uncorrectable. DEDUCED, log entry 11. -/
def Dev.readBytes (d : Dev) (req : BitVec 16) (code : Nat) : Nat → Dev × Option (List Byte)
  | 0 => (d, some [])
  | n + 1 =>
    let (d, b) := d.readByte req code
    let (d, t) := d.readBytes req (code + 1) n
    match b, t with
    | some b, some t => (d, some (b :: t))
    | _, _ => (d, none)

/-- Bytes as they stand, without the checker's counts: what the model looks at where no requester
reads. DEDUCED, log entry 10. -/
def Dev.peek (d : Dev) (code : Nat) : Nat → List Byte
  | 0 => []
  | n + 1 => d.byteAt code :: d.peek (code + 1) n

/-- The word at a memory code, as it stands. -/
def Dev.peekW (d : Dev) (code : Nat) : Word := word (bytesNat (d.peek code 4))

/-- The words from a memory code on, as they stand. -/
def Dev.peekWords (d : Dev) (code : Nat) : Nat → List Word
  | 0 => []
  | n + 1 => d.peekW code :: d.peekWords (code + 4) n

/-- A word is written at a memory code. -/
def Dev.pokeW (d : Dev) (code : Nat) (w : Word) : Dev := d.putBytes code (wordBytes w)

/-- Words are written from a memory code on. -/
def Dev.pokeWords (d : Dev) (code : Nat) : List Word → Dev
  | [] => d
  | w :: t => (d.pokeW code w).pokeWords (code + 4) t

/-- A byte of the range from a memory code on is uncorrectable. -/
def Dev.anyBad (d : Dev) (code n : Nat) : Bool :=
  d.ecc.flips.any (fun p => code ≤ p.1 && p.1 < code + n &&
    (match eccCheck (storedBits (d.byteAt p.1) ^^^ p.2) with | .bad => true | _ => false))

/-- Requester bits of the error log (R530). -/
def reqBrush : BitVec 16 := 1
/-- DMA (R530). -/
def reqDma : BitVec 16 := 2
/-- Line port (R530). -/
def reqLine : BitVec 16 := 4
/-- Easel (R530). -/
def reqEasel : BitVec 16 := 8
/-- Atelier (R530). -/
def reqAtelier : BitVec 16 := 16
/-- Supervisor (R530). -/
def reqSup : BitVec 16 := 32
/-- Safety core (R530). -/
def reqSafety : BitVec 16 := 64
/-- Twin link (R530). -/
def reqTwin : BitVec 16 := 128
/-- Varnish (R530). -/
def reqVarnish : BitVec 16 := 256
/-- SHP (R530). -/
def reqShp : BitVec 16 := 512
/-- Scrubber (R530). -/
def reqScrub : BitVec 16 := 1024

/-! ## The schedule mode in force -/

/-- A preloaded schedule mode. -/
def Dev.schedMode? (d : Dev) (m : Nat) : Option SchedMode := d.net.modes.find? (fun x => x.idx = m)

/-- The line layout of a schedule mode. -/
def Dev.layout? (d : Dev) (m l : Nat) : Option LineLayout :=
  (d.schedMode? m).bind (fun x => x.lines.find? (fun y => y.line = l))

/-- The place of a station in a schedule mode: its line and its layout. -/
def Dev.stLayout? (d : Dev) (m s : Nat) : Option (Nat × StLayout) :=
  (d.schedMode? m).bind (fun x =>
    x.lines.findSome? (fun y => (y.stations.find? (fun z => z.addr = s)).map (fun z => (y.line, z))))

/-- The schedule mode in force. -/
def Dev.sched (d : Dev) : Nat := d.net.sched

/-- The status word of a station's feedback slot (R110): its memory code. -/
def Dev.slotCode? (d : Dev) (s : Nat) : Option Nat :=
  (d.stLayout? d.sched s).map (fun p => memCode 0 p.2.fbAddr)

/-- The age of a station's feedback slot, 255 where the mode in force lists no such station. -/
def Dev.slotAge (d : Dev) (s : Nat) : Nat :=
  match d.slotCode? s with
  | some c => bits (d.peekW c) 7 0
  | none => 255

/-- The feedback payload words of a station as the slot holds them. -/
def Dev.fbWords (d : Dev) (s : Nat) : List Word :=
  match d.stLayout? d.sched s with
  | some (_, z) => d.peekWords (memCode 0 (z.fbAddr + 4)) z.fbWords
  | none => []

/-- A line is enabled, as ML_CFG stood at the last entry into Listen (R112, R587). -/
def Dev.lineEn (d : Dev) (l : Nat) : Bool := bit (d.line l).cfg 0

/-- A line has an open end, as ML_CFG stood at the last entry into Listen (R112, R587). -/
def Dev.lineOpen (d : Dev) (l : Nat) : Bool := bit (d.line l).cfg 1

/-- The enabled lines in ascending order. -/
def Dev.linesOn (d : Dev) : List Nat := (List.range 8).filter d.lineEn

end Sys2Proof.Machine
end

