-- ==== Sys2Proof/Machine/Easel.lean ====
section
/-! DEFINITION. The Easel dispatcher: dependence counters and sources, ready entries and their
spill, dispatch, timers and the end of a job (chapter 6). -/

namespace Sys2Proof.Machine

/-! ## The job table and the link lists in use -/

/-- The job with an index in the job table in use (R197, R201). -/
def Dev.jobDef? (d : Dev) (j : Nat) : Option JobDef :=
  (d.schedMode? d.easel.jobsFrom).bind (fun m => m.jobs.find? (fun x => x.idx = j))

/-- The counters that a source decrements, by the link lists of the mode in force (R192, R201). -/
def Dev.links (d : Dev) (src : Nat) : List Nat :=
  match d.schedMode? d.sched with
  | some m => ((m.lists.find? (fun x => x.src = src)).map (·.cnts)).getD []
  | none => []

/-- The change of the dispatcher's own state. -/
def Dev.updEasel (d : Dev) (g : EaselSt → EaselSt) : Dev := { d with easel := g d.easel }

/-! ## Ready entries (R202, R208, R211) -/

/-- The engines, 0 to 6, for which a ready entry counts: the engines of a job's mask, or a thread's
home. -/
def Dev.entEngines (d : Dev) (r : ReadyEnt) : List Nat :=
  if r.job then
    match d.jobDef? r.idx with
    | some j => (List.range 4).filter (fun e => j.engMask / 2 ^ e % 2 = 1)
    | none => []
  else [r.eng]

/-- Ready entries of an engine, on-chip and spilled (EZ_ENG_DEPTH). -/
def Dev.depthOf (d : Dev) (e : Nat) : Nat :=
  (d.easel.ready.filter (fun r => (d.entEngines r).contains e)).length

/-- The registers that show ready entries, spill and jobs in flight follow the dispatcher's state
(EZ_STAT, EZ_SPILL, EZ_ENG_DEPTH). -/
def Dev.showEasel (d : Dev) : Dev :=
  let sp := (d.easel.ready.filter (·.spilled)).length
  let fl := ((List.range 4).map (fun e =>
    (d.easel.queues.getD e []).length + b2n (d.eng e).busy)).sum
  let d := ((d.set R.EZ_SPILL.spill_cnt sp).raise R.EZ_SPILL.spill_max sp).setB R.EZ_STAT.spill (sp != 0)
  let d := (d.set R.EZ_STAT.inflight fl).raise R.EZ_STAT.inflight_max fl
  (List.range 7).foldl (fun d e =>
    let n := d.depthOf e
    (d.set (R.EZ_ENG_DEPTH.depth e) n).raise (R.EZ_ENG_DEPTH.depth_max e) n) d

/-- An entry joins the ready entries: on-chip while fewer than 512 stand there and its list has none
spilled, in the spill region otherwise (R211, R212). -/
def Dev.addReady (d : Dev) (r : ReadyEnt) : Dev :=
  let onChip := (d.easel.ready.filter (fun x => ! x.spilled)).length
  let sameList := d.easel.ready.any (fun x => x.spilled && x.job == r.job && x.eng == r.eng && x.prio == r.prio)
  let r := { r with spilled := decide (512 ≤ onChip) || sameList }
  (d.updEasel (fun z => { z with ready := z.ready ++ [r] })).showEasel

/-- A job becomes ready at the priority of its table entry (R202). -/
def Dev.jobReady (d : Dev) (j atNs : Nat) : Dev :=
  match d.jobDef? j with
  | some jd => d.addReady { job := true, idx := j, eng := 0, prio := jd.prio, at_ := atNs }
  | none => d

/-- The thread engine 0 to 2 that is a thread's home: AT0, AT1 or the supervisor; none: unused
(R205). -/
def Dev.thrHome? (d : Dev) (t : Nat) : Option Nat :=
  let h := d.fld (R.EZ_THR.home t)
  if h < 3 then some h else none

/-- The running thread of a thread engine. -/
def Dev.running (d : Dev) (k : Nat) : Option Nat := d.easel.threads.getD k none

/-- The time a thread engine has run its thread in this tick is added to its load (R214). -/
def Dev.accrue (d : Dev) (k atNs : Nat) : Dev :=
  let from_ := nth d.easel.thrAt k
  d.updEasel (fun z => { z with
    busyNow := setNth z.busyNow (4 + k) (nth z.busyNow (4 + k) + (atNs - from_)),
    thrAt := setNth z.thrAt k atNs })

/-- A thread of strictly higher priority became ready: the running thread of its home engine becomes
pre-empted, ahead of every ready thread of its priority; the kernel then issues TAKE (R209). -/
def Dev.preempt (d : Dev) (k prio atNs : Nat) : Dev :=
  match d.running k with
  | some t =>
    if d.flag R.EZ_CFG.pre_en ∧ prio < d.fld (R.EZ_THR.prio t) then
      ((d.accrue k atNs).updEasel (fun z => { z with
        threads := setNth z.threads k none,
        preempted := { job := false, idx := t, eng := 4 + k, prio := d.fld (R.EZ_THR.prio t),
                       at_ := atNs } :: z.preempted })).set (R.EZ_THR.state t) 4
    else d
  | none => d

/-- The Atelier task whose thread it is, as engine and task (R411). -/
def Dev.taskOf? (d : Dev) (t : Nat) : Option (Nat × Nat) :=
  ((List.range 2).flatMap (fun e => (List.range 64).map (fun k => (e, k)))).find? (fun p =>
    d.flag (R.AT_TASK_CFG.en p.1 p.2) && d.fld (R.AT_TASK_CFG.thr p.1 p.2) == t)

/-- The task time of a thread's run is T(n) of the present tick (R414). -/
def Dev.setTaskTime (d : Dev) (t : Nat) : Dev :=
  { d with rcp := { d.rcp with taskTime := Sparse.insert d.rcp.taskTime t d.now } }

/-- A thread's counter has reached 0: the thread becomes ready, or pend is set where it is ready,
running or pre-empted already (R208); a task whose release finds it so counts in ovr, and a cyclic
one sets task_ovr (R412, R413). -/
def Dev.threadReady (d : Dev) (t c atNs : Nat) : Dev :=
  let st := d.fld (R.EZ_THR.state t)
  let d := d.setTaskTime t
  if 2 ≤ st then
    let d := d.setB (R.EZ_CNT.pend c) true
    match d.taskOf? t with
    | some (e, k) =>
      let d := d.bump (R.AT_TASK_STAT.ovr e k)
      if d.flag (R.AT_TASK_CFG.event e k) then d else d.event 4 R.AT_EVT.task_ovr t
    | none => d
  else
    match d.thrHome? t with
    | some k =>
      let prio := d.fld (R.EZ_THR.prio t)
      let d := (d.set (R.EZ_THR.state t) 2).addReady
        { job := false, idx := t, eng := 4 + k, prio := prio, at_ := atNs }
      d.preempt k prio atNs
    | none => d

/-! ## Signals (R191, R192) -/

/-- Signals reach a counter in one clock cycle: it is decremented by their number and its target
becomes ready once at 0; a counter at 0 takes none and shows an underrun; the counter of a job that
is not due ignores them (R191, R192, R198). A counter whose thread is ready, running or pre-empted reads 0
until the thread waits again: a signal to it sets pend (DEDUCED from R208, R412 and R413). -/
def Dev.signalCnt (d : Dev) (c n atNs : Nat) : Dev :=
  let kind := d.fld (R.EZ_CNT.kind c)
  let tgt := d.fld (R.EZ_CNT.tgt c)
  let cur := d.fld (R.EZ_CNT.cur c)
  if kind = 1 ∧ ¬ d.easel.due.contains tgt then d
  else if cur = 0 then
    if kind = 2 ∧ 2 ≤ d.fld (R.EZ_THR.state tgt) then d.threadReady tgt c atNs else d.setB R.EZ_EVT.underrun true
  else
    let d := d.set (R.EZ_CNT.cur c) (cur - n)
    if n < cur then d
    else if kind = 1 then d.jobReady tgt atNs
    else if kind = 2 then d.threadReady tgt c atNs
    else d

/-- A source signals every counter of its link list (R192). -/
def Dev.signalSource (d : Dev) (src atNs : Nat) : Dev :=
  let l := d.links src
  (sortNat l).foldl (fun d c => d.signalCnt c (l.count c) atNs) d

/-- A feedback source signals once in a tick, and not where the line's relay makes a failed segment
wait (R194). -/
def Dev.signalStation (d : Dev) (s atNs : Nat) : Dev :=
  if d.easel.sources.contains s then d
  else (d.updEasel (fun z => { z with sources := s :: z.sources })).signalSource s atNs

/-! ## The end of a job (R199, R257, R258) -/

/-- The job status of an end: cause, result-valid bit, the sticky bits and the run of invalid ends
(R257). -/
def Dev.jobStatus (d : Dev) (j cause eng : Nat) (sr : Word) (tick : Nat) : Dev :=
  let run := if cause = 0 then 0 else satN 8 (d.fld (R.BR_JSTAT.inv_run j) + 1)
  d.wr (R.BR_JSTAT.adr j) (word (run * 2 ^ 24 + tick % 256 * 2 ^ 16 + cause * 2 ^ 8 +
    b2n (cause = 0) * 2 ^ 7 + b2n (bit sr 4) * 2 ^ 6 + b2n (bit sr 5) * 2 ^ 5 +
    b2n (bit sr 6) * 2 ^ 4 + eng))

/-- A job ends on an engine with a cause: its status is written, the engine's counts and events move
on, an over-run is counted, the engine becomes idle and the end source signals (R199, R257, R258,
R261). A cycle is 1 ns (R218), so the cycles are at least the time from its start to its end. -/
def Dev.jobEnd (d : Dev) (e cause atNs : Nat) : Dev :=
  let g := d.eng e
  let j := g.job
  let sr := g.sr
  let used := max g.cycles (atNs - g.startAt)
  let cyc := satN 16 used
  let declared := ((d.jobDef? j).map (·.cycles)).getD 0
  let d := d.jobStatus j cause e sr g.jobTick
  let d := (d.set (R.BR_E_CYC.cyc_last e) cyc).raise (R.BR_E_CYC.cyc_max e) cyc
  let d := d.bump (R.BR_E_JOBS.jobs e)
  let d := if cause = 1 then d.bump (R.BR_E_INV.aov e)
    else if cause = 2 ∨ cause = 3 ∨ cause = 4 then d.bump (R.BR_E_INV.abort e) else d
  let d := if bit sr 4 then d.setB R.BR_EVT.aov true else d
  let d := if bit sr 5 then d.setB R.BR_EVT.sov true else d
  let d := if declared < used then
      let d := (d.bump (R.BR_E_OVR.ovr e)).setB R.BR_EVT.ovr true
      if d.flag R.BR_CFG.ovr_evt then
        d.record { cls := 2, reg := R.BR_EVT.adr, bit := 4, idx := j } else d
    else d
  let d := d.setB (R.BR_E_STAT.busy e) false
  let d := d.updEng e (fun g => { g with
    busy := false, committing := false, commit := [], xins := [], waiting := false, lib := none,
    rpts := [] })
  let d := d.updEasel (fun z => { z with
    doneCnt := z.doneCnt + b2n (cause ≤ 1),
    abortCnt := z.abortCnt + b2n (2 ≤ cause ∧ cause ≤ 4),
    busyNow := setNth z.busyNow e (nth z.busyNow e + (atNs - g.startAt)),
    fin := setNth z.fin e atNs,
    due := z.due.filter (· ≠ j) })
  (d.signalSource (0x100 + j) atNs).showEasel

/-! ## Dispatch to the Brush engines (R202, R203) -/

/-- An engine has room in its local queue, the running job included (R203). -/
def Dev.hasRoom (d : Dev) (e : Nat) : Bool :=
  (d.easel.queues.getD e []).length + b2n (d.eng e).busy < d.fld (R.EZ_ENG_CFG.q_depth e)

/-- The outstanding declared cycles of an engine: its queue and its running job (R202). -/
def Dev.outstanding (d : Dev) (e : Nat) : Nat :=
  ((d.easel.queues.getD e []).map (·.cycles)).sum +
    (if (d.eng e).busy then ((d.jobDef? (d.eng e).job).map (·.cycles)).getD 0 else 0)

/-- The engine that a job goes to: of its mask and with room, the one with the fewest outstanding
declared cycles, among equals the lowest-numbered (R202). -/
def Dev.pickEngine (d : Dev) (j : JobDef) : Option Nat :=
  let es := (List.range 4).filter (fun e => j.engMask / 2 ^ e % 2 = 1 && d.hasRoom e)
  es.foldl (fun best e =>
    match best with
    | none => some e
    | some b => if d.outstanding e < d.outstanding b then some e else some b) none

/-- The ready entries in the order of dispatch: by priority, first in, first out within one. -/
def byPrio (l : List ReadyEnt) : List ReadyEnt :=
  (List.range 32).flatMap (fun p => l.filter (fun r => r.prio = p))

/-- The first ready job that an engine with room may run, with its engine (R202). -/
def Dev.nextDispatch (d : Dev) : Option (ReadyEnt × JobDef × Nat) :=
  (byPrio (d.easel.ready.filter (·.job))).findSome? (fun r =>
    (d.jobDef? r.idx).bind (fun j => (d.pickEngine j).map (fun e => (r, j, e))))

/-- Remove the first ready entry equal to one. -/
def removeReady (r : ReadyEnt) (l : List ReadyEnt) : List ReadyEnt := l.erase r

/-- One ready job moves into the local queue of its engine (R202). -/
def Dev.dispatch (d : Dev) : Dev :=
  match d.nextDispatch with
  | some (r, j, e) =>
    (d.updEasel (fun z => { z with
      ready := removeReady r z.ready,
      queues := setNth z.queues e
        (z.queues.getD e [] ++ [{ idx := r.idx, prio := r.prio, cycles := j.cycles, at_ := r.at_ }]) })).showEasel
  | none => d

/-- JOB_DISPATCH (R202). -/
def execJobDispatch (s : State) : Host.Outcome State Fault Refusal := s.onDev Dev.dispatch

/-- The next job of a local queue: in priority order, first in, first out within one (R203). -/
def nextQueued (l : List QueuedJob) : Option QueuedJob :=
  l.foldl (fun best q =>
    match best with
    | none => some q
    | some b => if q.prio < b.prio then some q else some b) none

/-- The histogram bin of a wait (R213). -/
def histBin (w : Nat) : Nat :=
  if w < 64 then 0
  else (((List.range 14).map (· + 1)).find? (fun k => decide (w < 2 ^ (k + 6)))).getD 15

/-- A wait from ready to start is added to the histogram of an engine (R213). DESIGN CHOICE, log entry 68. -/
def Dev.addWait (d : Dev) (e w : Nat) : Dev := d.bump (R.EZ_HIST.cnt e (histBin w))

/-! ## Per-tick events -/

/-- A job is due in a tick (R198). -/
def JobDef.dueIn (j : JobDef) (n : Nat) : Bool := (n + (j.divM1 + 1) - j.phase % (j.divM1 + 1)) % (j.divM1 + 1) = 0

/-- At T(n) the counter of every due job is loaded; a job whose initial value is 0 becomes ready, in
ascending counter index (R198, R202). -/
def Dev.loadCounters (d : Dev) : Dev :=
  match d.schedMode? d.easel.jobsFrom with
  | none => d.updEasel (fun z => { z with due := [] })
  | some m =>
    let due := m.jobs.filter (fun j => j.dueIn d.tick)
    let d := d.updEasel (fun z => { z with due := due.map (·.idx) })
    let d := due.foldl (fun d j => d.set (R.EZ_CNT.cur j.cnt) (d.fld (R.EZ_CNT.init j.cnt))) d
    let zero := due.filter (fun j => d.fld (R.EZ_CNT.init j.cnt) = 0)
    (sortNat (zero.map (·.cnt))).foldl (fun d c =>
      (zero.filter (fun j => j.cnt = c)).foldl (fun d j => d.jobReady j.idx 0) d) d

/-- EZ_RELEASE: every feedback source of the mode in force that has not signalled signals (R195). -/
def Dev.release (d : Dev) : Dev :=
  let srcs := match d.schedMode? d.sched with
    | some m => (m.lists.filter (fun x => 1 ≤ x.src ∧ x.src ≤ 0xFF)).map (·.src)
    | none => []
  let out := (sortNat srcs).filter (fun s => ! d.easel.sources.contains s)
  let d := d.updEasel (fun z => { z with released := true, relCnt := z.relCnt + out.length })
  let d := if out.isEmpty then d else d.setB R.EZ_EVT.released true
  out.foldl (fun d s => d.signalStation s d.easel.releaseNs) d

/-- EZ_RELEASE (R195). -/
def execEzRelease (s : State) : Host.Outcome State Fault Refusal :=
  s.onDev (fun d => if d.easel.released then d else d.release)

/-- A timer is due in the present tick (R196). -/
def Dev.timerDue (d : Dev) (k : Nat) : Bool :=
  let p := d.fld (R.EZ_TMR_PER.period k)
  let ph := d.fld (R.EZ_TMR_PER.phase k)
  d.flag (R.EZ_TMR_OFS.en k) && p != 0 && (d.tick % p == ph % p)

/-- EASEL_TIMER: a timer that is due signals its link list (R196, R412). -/
def execEaselTimer (k : Fin 64) (s : State) : Host.Outcome State Fault Refusal :=
  s.onDev (fun d =>
    if d.timerDue k then d.signalSource (0x900 + k) (d.fld (R.EZ_TMR_OFS.ofs_ns k)) else d)

/-- The thread engine of a master, by kernel port (R207). -/
def Master.port? : Master → Option Nat
  | .at0 => some 0
  | .at1 => some 1
  | .supervisor => some 2
  | .host => none

/-- A write to EZ_SIG: the host may not name a counter of the firmware (R206, R210). -/
def Dev.ezSig (d : Dev) (m : Master) (c atNs : Nat) : Dev × WrRes :=
  if m = .host ∧ 3968 ≤ c then d.rejectAt R.EZ_EVT.cfg_rej
  else
    (d.signalCnt c 1 atNs, .ok 0)

/-- EZ_SIG (R210). -/
def execEzSig (m : Master) (v : Word) (atNs : Nat) (s : State) : Host.Outcome State Fault Refusal :=
  s.onDev (fun d => (d.ezSig m (bits v 11 0) atNs).1)

/-- Clear every wait histogram bin (R217). -/
def Dev.histClr (d : Dev) : Dev :=
  (List.range 7).foldl (fun d e =>
    (List.range 16).foldl (fun d b => d.wr (R.EZ_HIST.adr e b) 0) d) d

/-- EZ_HIST_CLR (R217). -/
def execEzHistClr (s : State) : Host.Outcome State Fault Refusal := s.onDev Dev.histClr

/-- Clear the maxima of jobs in flight, spill, depth and finish (EZ_CTRL.max_clr, R217). -/
def Dev.maxClr (d : Dev) : Dev :=
  let d := (d.set R.EZ_STAT.inflight_max 0).set R.EZ_SPILL.spill_max 0
  (List.range 7).foldl (fun d e =>
    (d.set (R.EZ_ENG_DEPTH.depth_max e) 0).set (R.EZ_ENG_FIN.fin_max_4ns e) 0) d

/-- EZ_MAX_CLR (R217). -/
def execEzMaxClr (s : State) : Host.Outcome State Fault Refusal := s.onDev Dev.maxClr

/-- The oldest spilled entry is read back into a freed on-chip entry (R212). -/
def Dev.readBack (d : Dev) : Dev :=
  let onChip := (d.easel.ready.filter (fun x => ! x.spilled)).length
  match d.easel.ready.findIdx? (·.spilled) with
  | some i =>
    if onChip < 512 then
      (d.updEasel (fun z => { z with
        ready := z.ready.modify i (fun r => { r with spilled := false }) })).showEasel
    else d
  | none => d

/-- A spilled entry that cannot be read is rebuilt and placed at the tail of its priority. Where it stood in the
spill region is not given, so the address that is latched and logged is left open, within the Canvas (R523). -/
def Dev.readBackBad (d : Dev) : Dev :=
  match d.easel.ready.find? (·.spilled) with
  | some r =>
    let i := (Config.openValue 523 [d.tick, r.idx]).natAbs % 0x600000
    let d := (d.eccBad reqEasel (memCode 0 i) (BitVec.ofInt 13 (Config.openValue 524 [d.tick, r.idx]))).event 2 R.EZ_EVT.ecc
    (d.updEasel (fun z => { z with ready := z.ready.erase r ++ [{ r with spilled := false }] })).showEasel
  | none => d

/-- SPILL_READBACK (R212, R523). DEDUCED, log entry 63. -/
def execSpillReadback (eccBad : Bool) (s : State) : Host.Outcome State Fault Refusal :=
  s.onDev (fun d => if eccBad then d.readBackBad else d.readBack)

/-! ## Kernel operations (R207) -/

/-- The highest-priority ready or pre-empted thread of a thread engine; a pre-empted one stands
ahead of the ready ones of its priority (R207, R209). -/
def Dev.nextThread (d : Dev) (k : Nat) : Option (ReadyEnt × Bool) :=
  let pre := (d.easel.preempted.filter (fun r => r.eng = 4 + k)).map (fun r => (r, true))
  let rdy := (d.easel.ready.filter (fun r => ! r.job && r.eng == 4 + k)).map (fun r => (r, false))
  (List.range 32).findSome? (fun p =>
    ((pre.filter (fun x => x.1.prio = p)) ++ (rdy.filter (fun x => x.1.prio = p))).head?)

/-- TAKE: that thread becomes running, or EZ_K_RES shows none (R207). With a thread running on the
engine nothing is taken: the kernel takes when it has none. A task's run is counted
(AT_TASK_STAT.runs). -/
def Dev.take (d : Dev) (k atNs : Nat) : Dev :=
  match d.running k with
  | some _ => d
  | none =>
    match d.nextThread k with
    | none => d.wr (R.EZ_K_RES.adr k) 0x80000000#32
    | some (r, pre) =>
      let d := d.updEasel (fun z => { z with
        threads := setNth z.threads k (some r.idx),
        thrAt := setNth z.thrAt k atNs,
        preempted := if pre then z.preempted.erase r else z.preempted,
        ready := if pre then z.ready else removeReady r z.ready })
      let d := if pre then d else d.addWait (4 + k) (atNs - r.at_)
      let d := if pre then d else
        match d.taskOf? r.idx with
        | some (e, i) => d.bumpMod (R.AT_TASK_STAT.runs e i)
        | none => d
      let d := d.wr (R.EZ_K_RES.adr k) (word (b2n pre * 2 ^ 30 + r.prio * 2 ^ 10 + r.idx))
      (d.set (R.EZ_THR.state r.idx) 3).showEasel

/-- The running thread of an engine leaves it. -/
def Dev.leave (d : Dev) (k atNs : Nat) : Dev :=
  (d.accrue k atNs).updEasel (fun z => { z with threads := setNth z.threads k none })

/-- WAIT: the running thread waits and its counter is reloaded; with pend set it becomes ready at
once and pend clears (R207). -/
def Dev.kWait (d : Dev) (k atNs : Nat) : Dev :=
  match d.running k with
  | none => d
  | some t =>
    let c := d.fld (R.EZ_THR.cnt t)
    let d := (d.leave k atNs).set (R.EZ_CNT.cur c) (d.fld (R.EZ_CNT.init c))
    let d := d.set (R.EZ_THR.state t) 1
    if d.flag (R.EZ_CNT.pend c) then (d.setB (R.EZ_CNT.pend c) false).threadReady t c atNs else d

/-- DONE: the running thread becomes dormant and its completion source signals (R207). -/
def Dev.kDone (d : Dev) (k atNs : Nat) : Dev :=
  match d.running k with
  | none => d
  | some t => ((d.leave k atNs).set (R.EZ_THR.state t) 0).signalSource (0x500 + t) atNs

/-- YIELD: the running thread becomes ready at the tail of its priority (R207). -/
def Dev.kYield (d : Dev) (k atNs : Nat) : Dev :=
  match d.running k with
  | none => d
  | some t =>
    ((d.leave k atNs).set (R.EZ_THR.state t) 2).addReady
      { job := false, idx := t, eng := 4 + k, prio := d.fld (R.EZ_THR.prio t), at_ := atNs }

/-- START: a dormant thread's counter is loaded; with an initial value of 0 it becomes ready, else it
waits (R207). -/
def Dev.kStart (d : Dev) (t atNs : Nat) : Dev :=
  if d.fld (R.EZ_THR.state t) = 0 then
    let c := d.fld (R.EZ_THR.cnt t)
    let i := d.fld (R.EZ_CNT.init c)
    let d := (d.set (R.EZ_CNT.cur c) i).set (R.EZ_THR.state t) 1
    if i = 0 then d.threadReady t c atNs else d
  else d

/-- TAKE (R207). -/
def execTake (k : Fin 3) (atNs : Nat) (s : State) : Host.Outcome State Fault Refusal :=
  s.onDev (fun d => d.take k atNs)

/-- WAIT (R207). -/
def execWait (k : Fin 3) (atNs : Nat) (s : State) : Host.Outcome State Fault Refusal :=
  s.onDev (fun d => d.kWait k atNs)

/-- DONE (R207). -/
def execDone (k : Fin 3) (atNs : Nat) (s : State) : Host.Outcome State Fault Refusal :=
  s.onDev (fun d => d.kDone k atNs)

/-- SIG (R207). -/
def execSig (_k : Fin 3) (cnt : Fin 4096) (atNs : Nat) (s : State) : Host.Outcome State Fault Refusal :=
  s.onDev (fun d => d.signalCnt cnt 1 atNs)

/-- YIELD (R207). -/
def execYield (k : Fin 3) (atNs : Nat) (s : State) : Host.Outcome State Fault Refusal :=
  s.onDev (fun d => d.kYield k atNs)

/-- START (R207). -/
def execStart (_k : Fin 3) (thread : Fin 1024) (atNs : Nat) (s : State) :
    Host.Outcome State Fault Refusal :=
  s.onDev (fun d => d.kStart thread atNs)

end Sys2Proof.Machine
end

