-- ==== Sys2Proof/Machine/Lists.lean ====
section
/-! DEFINITION. The compare lists as they are commanded: arming, disarming, rewinding and the
retraction of staged entries (chapter 10). -/

namespace Sys2Proof.Machine

/-- A staged entry's class-4 record: list, entry, tag, action ID, fire time (R359). -/
def Dev.cmpNote (d : Dev) (l : Nat) (e : CmpEntry) : Dev :=
  d.note 4 5 l [word l, word e.idx, word e.tag, word e.id, word e.fire]

/-- AX_CMP_STAT follows the list's state (AX_CMP_STAT). -/
def Dev.cmpShow (d : Dev) (l : Nat) : Dev :=
  let c := d.cmp l
  let st := if ! d.flag (R.AX_CMP_CFG.arm l) then 0
    else if c.done then 3
    else if d.fld (R.AX_STATE.astate (d.fld (R.AX_CMP_CFG.axis l))) = 3 then 1
    else 2
  (d.set (R.AX_CMP_STAT.state l) st).set (R.AX_CMP_STAT.staged l) (satN 8 c.staged.length)

/-- The staged unfired entries that meet a condition are retracted (R183, R356, R357). -/
def Dev.cmpRetract (d : Dev) (l : Nat) (rearm : Bool) (p : CmpEntry → Bool) : Dev :=
  let sel := fun (e : CmpEntry) => ! e.retr && decide (d.now < e.fire) && p e
  let hit := (d.cmp l).staged.filter sel
  if hit.isEmpty then d
  else
    let d := d.updCmp l (fun c => { c with
      staged := c.staged.map (fun e => if sel e then { e with retr := true, rearm := rearm } else e) })
    hit.foldl (fun d e => d.cmpNote l e) (d.setB (R.AX_CMP_EVT.retract l) true)

/-- The pool entries of a list (R347): first and last. -/
def cmpSpan (w : Word) : Nat × Nat := (bits w 31 16, bits w 31 16 + bits w 15 0)

/-- Two spans share an entry. -/
def spansMeet (a b : Nat × Nat) : Bool := decide (a.1 ≤ b.2) && decide (b.1 ≤ a.2)

/-- The list, with a span, would overlap another armed list (R347). -/
def Dev.cmpOverlap (d : Dev) (l : Nat) : Bool :=
  (List.range 16).any (fun k => k != l && d.flag (R.AX_CMP_CFG.arm k) &&
    spansMeet (cmpSpan (d.rd (R.AX_CMP_SPAN.adr l))) (cmpSpan (d.rd (R.AX_CMP_SPAN.adr k))))

/-- The memory code of an entry of a list (R347). -/
def Dev.cmpCode (d : Dev) (l i : Nat) : Nat :=
  memCode 0 ((d.rd R.AX_CMP_POOL.adr).toNat % 0x10000000 + 8 * (d.fld (R.AX_CMP_SPAN.first l) + i))

/-- The two words of an entry of a list (R347, R348). -/
def Dev.cmpEntry (d : Dev) (l i : Nat) : List Word := d.peekWords (d.cmpCode l i) 2

/-- A write to AX_CMP_CFG arms, disarms or configures a list (R347, R349, R351, R357, R360). The image
may arm a list in Load. -/
def Dev.cmpCfgWr (d : Dev) (l : Nat) (v : Word) : Dev × WrRes :=
  let old := d.rd (R.AX_CMP_CFG.adr l)
  let v := v &&& 0xE07FFFFF#32
  if d.flag (R.AX_CMP_CFG.arm l) then
    if v ||| 0x80000000#32 ≠ old then d.rejectAt (R.AX_CMP_EVT.cfg_rej l)
    else if bit v 31 then (d, .ok 0)
    else ((((d.cmpRetract l false (fun _ => true)).wr (R.AX_CMP_CFG.adr l) v)).cmpShow l, .ok 0)
  else if ! bit v 31 then (d.wr (R.AX_CMP_CFG.adr l) v, .ok 0)
  else if ! d.modeIn [mRun, mHold, mLoad] ∨ d.cmpOverlap l then d.rejectAt (R.AX_CMP_EVT.cfg_rej l)
  else
    let d := d.wr (R.AX_CMP_CFG.adr l) v
    let d := d.updCmp l (fun c => { c with
      seq := 0, done := decide (d.fld (R.AX_CMP_SPAN.len_m1 l) < d.fld (R.AX_CMP_STAT.next l)),
      evalTick := none, from_ := none })
    (d.cmpShow l, .ok 0)

/-- AX_CMP_ARM (R360). DEDUCED, log entry 28. -/
def execAxCmpArm (l : Fin 16) (v : Word) (s : State) : Host.Outcome State Fault Refusal :=
  s.onDev (fun d => (wroteBy (d.cmpCfgWr l v) (R.AX_CMP_CFG.adr l)).1)

/-- AX_CMP_CTRL.rewind, on a disarmed list (R357, R360). -/
def Dev.cmpRewind (d : Dev) (l : Nat) : Dev × WrRes :=
  if d.flag (R.AX_CMP_CFG.arm l) then d.rejectAt (R.AX_CMP_EVT.cfg_rej l)
  else ((d.set (R.AX_CMP_STAT.next l) 0).updCmp l (fun c => { c with seq := 0, done := false }), .ok 0)

/-- AX_CMP_REWIND (R357). -/
def execAxCmpRewind (l : Fin 16) (s : State) : Host.Outcome State Fault Refusal :=
  s.onDev (fun d => (d.cmpRewind l).1)

/-- AX_CMP_CNT_CLR (R361). -/
def execAxCmpCntClr (l : Fin 16) (s : State) : Host.Outcome State Fault Refusal :=
  s.onDev (fun d => d.wr (R.AX_CMP_CNT.adr l) 0)

/-- Recipes arm and disarm a list through its arm bit (R387, R397). -/
def Dev.cmpArm (d : Dev) (l : Nat) (on : Bool) : Dev × WrRes :=
  let v := d.rd (R.AX_CMP_CFG.adr l)
  d.cmpCfgWr l (if on then v ||| 0x80000000#32 else v &&& 0x7FFFFFFF#32)

/-- The armed lists of an axis follow its state: when it leaves Enabled their staged unfired entries
are retracted (R357). -/
def Dev.cmpAxis (d : Dev) (a : Nat) (leaves : Bool) : Dev :=
  ((List.range 16).filter (fun l => d.flag (R.AX_CMP_CFG.arm l) && d.fld (R.AX_CMP_CFG.axis l) == a)).foldl
    (fun d l => (if leaves then (d.cmpRetract l false (fun _ => true)).updCmp l (fun c => { c with from_ := none })
      else d).cmpShow l) d

/-- A STOP or a re-plan of an axis's profile belongs to the present tick: what its lists staged before is
retracted (R357). DEDUCED, log entry 28. -/
def Dev.cmpReplan (d : Dev) (a : Nat) : Dev :=
  ((List.range 16).filter (fun l => d.flag (R.AX_CMP_CFG.arm l) && d.fld (R.AX_CMP_CFG.axis l) == a)).foldl
    (fun d l => d.cmpRetract l true (fun e => decide (e.at_ < d.tick))) d

end Sys2Proof.Machine
end

