-- ==== Sys2Proof/Machine/Axis.lean ====
section
/-! DEFINITION. The axes: their states and controls, group reactions, requests for SS1, and the
commands of the profile generator as they are judged (chapters 8 and 9). -/

namespace Sys2Proof.Machine

/-! ## State codes (R292) -/

/-- Off (R292). -/
def aOff : Nat := 0
/-- Catching (R292). -/
def aCatching : Nat := 1
/-- Releasing (R292). -/
def aReleasing : Nat := 2
/-- Enabled (R292). -/
def aEnabled : Nat := 3
/-- Stopping (R292). -/
def aStopping : Nat := 4
/-- Coasting (R292). -/
def aCoasting : Nat := 5
/-- Lost (R292). -/
def aLost : Nat := 6
/-- Fault (R292). -/
def aFault : Nat := 7
/-- Safe-off (R292). -/
def aSafeOff : Nat := 8

/-- The state of an axis. -/
def Dev.astate (d : Dev) (a : Nat) : Nat := d.fld (R.AX_STATE.astate a)

/-- The kind of an axis: 1 servo, 2 stepper. -/
def Dev.akind (d : Dev) (a : Nat) : Nat := d.fld (R.AX_CFG.kind a)

/-- An axis is in use. -/
def Dev.axUsed (d : Dev) (a : Nat) : Bool := d.akind a == 1 || d.akind a == 2

/-- The axes in use, ascending. -/
def Dev.axesUsed (d : Dev) : List Nat := (List.range 128).filter d.axUsed

/-- Every axis is in Off, Lost, Fault or Safe-off (R584, R585, R591). -/
def Dev.axesIdle (d : Dev) : Bool :=
  d.axesUsed.all (fun a => d.astate a == aOff || decide (aLost ≤ d.astate a))

/-- The axes of a motion group (R264). -/
def Dev.group (d : Dev) (g : Nat) : List Nat := d.axesUsed.filter (fun a => d.fld (R.AX_CFG.grp a) == g)

/-! ## Profile commands as judged (R306 to R310) -/

/-- The effective speed limit, acceleration and deceleration of a profile as the registers give them
now: speed in 0.001 rpm, the others in 10 rpm/s (R309). n_lim is UQ0.15 of n_base. -/
def Dev.prfEff (d : Dev) (a : Nat) : Rat × Nat × Nat :=
  let nlim : Rat := (d.fld (R.AX_LIM.n_lim a) % 32768 : Nat) * d.fld (R.AX_BASE.n_base a) * 1000 / 32768
  let vmax : Rat := d.fld (R.AX_PRF_VMAX.vmax a)
  (if nlim < vmax then nlim else vmax,
   min (d.fld (R.AX_PRF_ACC.acc a)) (d.fld (R.AX_PRF_LIM.acc_lim a)),
   min (d.fld (R.AX_PRF_ACC.dec a)) (d.fld (R.AX_PRF_LIM.dec_lim a)))

/-- A value that a move needs is 0 at its start (R307). -/
def Dev.prfZero (d : Dev) (a : Nat) : Bool :=
  let e := d.prfEff a
  e.1 == 0 || e.2.1 == 0 || e.2.2 == 0

/-- A profile position (R303). -/
def puOk (x : Int) : Bool := decide (-(2 ^ 31) ≤ x) && decide (x < 2 ^ 31)

/-- The profile as the commands of one tick find it and leave it: running, at rest after a stop of the
tick, the target of what runs, a move started in the tick, the queue. -/
structure PrfView where
  /-- A move, stop or return motion runs or has been started. -/
  busy : Bool := false
  /-- A stop runs or was accepted in the tick. -/
  stop : Bool := false
  /-- A STOP of the tick acts on what runs. -/
  stopReq : Bool := false
  /-- Target of the running move or return motion, or of the started move. -/
  target : Int := 0
  /-- The move started in the tick. -/
  start : Option Int := none
  /-- The queue. -/
  queue : List PrfMove := []
  deriving DecidableEq, Repr

/-- One command judged: what it leaves, and its result (R306, R307, R315, R316). -/
def PrfView.judge (v : PrfView) (ready hold zero reject : Bool) (pref : Int) (c : PrfCmd) : PrfView × Nat :=
  if c.op = 0 ∨ 5 ≤ c.op then (v, 5)
  else if ! ready ∨ (c.op ≤ 2 ∧ hold) then (v, 4)
  else if c.op = 3 then
    if v.start.isSome then ({ v with start := none, busy := false, queue := [] }, 0)
    else if v.busy then ({ v with stop := true, stopReq := true, queue := [] }, 0)
    else ({ v with queue := [] }, 0)
  else if c.op = 4 then ({ v with queue := [] }, 0)
  else
    let m : PrfMove :=
      if c.op = 1 then { target := some c.tgt }
      else
        match v.queue.getLast? with
        | some q =>
          match q.target with
          | some t => { target := some (t + c.tgt) }
          | none => { target := none, dist := q.dist + c.tgt }
        | none =>
          if v.stop then { target := none, dist := c.tgt }
          else if v.busy then { target := some (v.target + c.tgt) }
          else { target := some (pref + c.tgt) }
    let bad := match m.target with
      | some t => ! puOk t
      | none => false
    if ! v.busy then
      match m.target with
      | some t => if bad || zero then (v, 5) else ({ v with busy := true, target := t, start := some t }, 0)
      | none => (v, 5)
    else if reject then (v, 2)
    else if 8 ≤ v.queue.length then (v, 3)
    else if bad then (v, 5)
    else ({ v with queue := v.queue ++ [m] }, 1)

/-- The commands of a tick in the order in which they are judged, each with its place of arrival: a
STOP first (R310). DEDUCED, log entry 16. -/
def judgeOrder (l : List PrfCmd) : List (Nat × PrfCmd) :=
  let n := l.mapIdx (fun i c => (i, c))
  n.filter (fun p => p.2.op = 3) ++ n.filter (fun p => p.2.op ≠ 3)

/-- The commands of the present tick of one axis judged together: what they leave, and the results in
the order judged, each with its command's place of arrival (R307, R310). -/
def Dev.prfJudge (d : Dev) (a : Nat) : PrfView × List (Nat × Nat) :=
  let p := d.prf a
  let ready := d.astate a == aEnabled && d.fld (R.AX_REF.src a) == 0
  let hold := d.rmode == mHold
  let v0 : PrfView := { busy := p.moving, stop := p.stopping, target := p.target, queue := p.queue }
  (judgeOrder p.cmds).foldl (fun r c =>
    let x := r.1.judge ready hold (d.prfZero a) (d.flag (R.AX_PRF_CFG.qmode a)) (d.sfld (R.AX_PRF_POS.p_ref a)) c.2
    (x.1, r.2 ++ [(c.1, x.2)])) (v0, [])

/-- A profile command belongs to the present tick: the commands of the tick are judged, and the result
of the last one judged is shown (R306, R307). The result of this command is returned. DEDUCED, log entry 16. -/
def Dev.prfCmd (d : Dev) (a op : Nat) (tgt : Int) : Dev × Nat :=
  let k := (d.prf a).cmds.length
  let d := d.updPrf a (fun p => { p with cmds := p.cmds ++ [{ op := op, tgt := tgt }] })
  let r := d.prfJudge a
  let own := ((r.2.find? (fun x => x.1 = k)).map (·.2)).getD 0
  let last := (r.2.getLast?.map (·.2)).getD 0
  let d := (d.set (R.AX_PRF_STAT.res a) last).set (R.AX_PRF_STAT.queued a) r.1.queue.length
  if 2 ≤ own then (d.event 4 (R.AX_PRF_EVT.rej a) a [word own], own) else (d, own)

/-- The commands of MOVE_ABS, MOVE_REL, STOP and FLUSH take the target that AX_PRF_TGT holds. -/
def Dev.prfWrite (d : Dev) (a op : Nat) : Dev × Nat := d.prfCmd a op (d.sfld (R.AX_PRF_TGT.tgt a))

/-- MOVE_ABS (R306). -/
def execMoveAbs (a : Fin 128) (s : State) : Host.Outcome State Fault Refusal :=
  s.onDev (fun d => (d.prfWrite a 1).1)

/-- MOVE_REL (R306). -/
def execMoveRel (a : Fin 128) (s : State) : Host.Outcome State Fault Refusal :=
  s.onDev (fun d => (d.prfWrite a 2).1)

/-- STOP (R315). -/
def execStop (a : Fin 128) (s : State) : Host.Outcome State Fault Refusal :=
  s.onDev (fun d => (d.prfWrite a 3).1)

/-- FLUSH (R316). -/
def execFlush (a : Fin 128) (s : State) : Host.Outcome State Fault Refusal :=
  s.onDev (fun d => (d.prfWrite a 4).1)

/-- PRF_RESERVED_OP: an op of 0 or 5 to 15 (R306). An op that names a command is none of these. -/
def execPrfReservedOp (a : Fin 128) (op : Fin 16) (s : State) : Host.Outcome State Fault Refusal :=
  s.onDev (fun d => if 1 ≤ op.val ∧ op.val ≤ 4 then d else (d.prfWrite a op).1)

/-- The profile runs nothing and holds nothing queued. -/
def PrfSt.idle (p : PrfSt) : Bool := ! p.moving && p.queue.isEmpty && p.cmds.all (fun c => c.op = 4)

/-- The generator aborts what runs and empties its queue (R317). -/
def Dev.prfAbort (d : Dev) (a : Nat) : Dev :=
  let p := d.prf a
  let had := p.moving || ! (d.prfJudge a).1.queue.isEmpty || (d.prfJudge a).1.start.isSome
  let d := d.updPrf a (fun p => { p with
    moving := false, stopping := false, returning := false, decel := false, passing := false,
    v := 0, queue := [], cmds := [] })
  let d := (d.set (R.AX_PRF_STAT.phase a) 0).set (R.AX_PRF_STAT.queued a) 0
  if had then d.event 4 (R.AX_PRF_EVT.abort a) a else d

/-! ## Transitions (R292 to R294) -/

/-- The axis enters a state, with what entering it brings (R286, R287, R291 to R294, R317, R318). -/
def Dev.axEnter (d : Dev) (a st : Nat) : Dev :=
  let old := d.astate a
  let fitted := d.flag (R.AX_BRAKE.fitted a)
  let d := if (old = aEnabled ∨ old = aReleasing) ∧ st ≠ aEnabled ∧ st ≠ aReleasing then d.prfAbort a else d
  let d := d.set (R.AX_STATE.astate a) st
  let d := d.updAx a (fun x => { x with
    stateTick := d.tick,
    fromCoast := st == aCatching && old == aCoasting,
    fltClr := x.fltClr || (st == aCatching && old == aOff),
    brakeRel :=
      if st = aOff then ! fitted
      else if st = aCatching then (old == aCoasting && x.brakeRel)
      else if st = aCoasting then x.brakeRel
      else st == aReleasing || st == aEnabled || st == aStopping,
    disPend := false, disReact := false, epsGood := 0, catchInj := false, hallEdges := 0,
    polTick := 0, zeroTicks := 0, engTick := none, goodTicks := 0,
    prfSeen := x.prfSeen && st != aEnabled })
  let d := if st = aOff then
      (d.updAx a (fun x => { x with
        ctl := { pc := x.ctl.pc, encOfs := x.ctl.encOfs, words := x.ctl.words, pointB := x.ctl.pointB },
        plaus := 0, lostRun := 0, stallRun := 0, ss1 := none })).set (R.AX_STATE.ang_use a)
          (d.fld (R.AX_CFG.ang_pri a)) |>.setB (R.AX_STATE.fb_used a) false
    else d
  let d := if st = aCatching then d.bump (R.AX_CNT.catches a) else d
  let d := d.cmpAxis a (old = aEnabled ∧ st ≠ aEnabled)
  { (d.note 4 2 a [word old, word st]) with
    rcp := { d.rcp with triggers := d.rcp.triggers ++ [(5, a)] } }

/-- Axes for which SS1 is requested outside the zones: Stopping in the axis computation of the next
tick, and a monitoring of each axis that none watches yet (R431, R432, R436). -/
def Dev.requestSs1 (d : Dev) (l : List Nat) : Dev :=
  l.foldl (fun d a =>
    let d := d.updAx a (fun x => { x with ss1 := some d.tick })
    if d.saf.mons.any (fun m => m.axis = a) then d
    else { d with saf := { d.saf with mons := d.saf.mons ++ [{ axis := a, zone := none, s := d.tick }] } }) d

/-- The axis is in a state that a group reaction acts on (R264). -/
def Dev.axDriven (d : Dev) (a : Nat) : Bool :=
  d.astate a == aCatching || d.astate a == aReleasing || d.astate a == aEnabled

/-- An axis is told to stop: a servo axis that catches stops after its catch (R293, R329). -/
def Dev.axStop (d : Dev) (a : Nat) (react : Bool) : Dev :=
  if d.astate a = aCatching ∧ d.akind a = 1 then
    d.updAx a (fun x => { x with disPend := true, disReact := react })
  else (d.axEnter a aStopping).updAx a (fun x => { x with disReact := react })

/-- A group reaction on every other axis of the group of an axis (R264). -/
def Dev.groupReact (d : Dev) (a react : Nat) : Dev :=
  let l := (d.group (d.fld (R.AX_CFG.grp a))).filter (fun b => b ≠ a && d.axDriven b)
  if react = 1 then l.foldl (fun d b => d.axStop b true) d
  else if react = 2 then d.requestSs1 l
  else d

/-- The axis enters Safe-off from any other state; this stands above every other cause (R294). -/
def Dev.axSafeOff (d : Dev) (a : Nat) : Dev :=
  if d.astate a = aSafeOff then d else (d.axEnter a aSafeOff).event 4 (R.AX_EVT.sto a) a

/-- The axis enters Fault, unless Safe-off or an earlier Lost stands, with its group reaction (R288,
R289, R294, R298, R299). -/
def Dev.axFault (d : Dev) (a : Nat) : Dev :=
  let st := d.astate a
  if st = aSafeOff ∨ st = aFault ∨ (st = aLost ∧ (d.ax a).stateTick ≠ d.tick) then d
  else (d.axEnter a aFault).groupReact a (d.fld (R.AX_REACT.grp_flt a))

/-- The axis enters Lost, unless Fault or Safe-off stands, with its group reaction (R146, R294). -/
def Dev.axLost (d : Dev) (a : Nat) : Dev :=
  if aLost ≤ d.astate a then d
  else ((d.axEnter a aLost).event 4 (R.AX_EVT.lost a) a).groupReact a (d.fld (R.AX_REACT.grp_lost a))

/-- STO is commanded for one axis by the safety functions (R288, R431, R434). -/
def Dev.axStoCmd (d : Dev) (a : Nat) : Dev :=
  (d.updAx a (fun x => { x with stoCmd := true })).axSafeOff a

/-- A catch failed: back to Coasting while attempts after a rotor loss are left, else Fault with the
group reaction, and STO where the attempt followed a rotor loss (R288, R293). -/
def Dev.catchFail (d : Dev) (a : Nat) : Dev :=
  let x := d.ax a
  if x.fromCoast ∧ d.fld (R.AX_STATE.tries a) < d.fld (R.AX_CATCH.max a) then d.axEnter a aCoasting
  else
    let d := (d.event 4 (R.AX_EVT.catch_fail a) a).axFault a
    if x.fromCoast then d.axStoCmd a else d

/-- The catch succeeded: Releasing with a brake, Enabled without one; or Stopping where a disable
waits (R293, R329). -/
def Dev.caught (d : Dev) (a : Nat) : Dev :=
  if (d.ax a).disPend then
    let react := (d.ax a).disReact
    (d.axEnter a aStopping).updAx a (fun x => { x with disReact := react })
  else d.axEnter a (if d.flag (R.AX_BRAKE.fitted a) then aReleasing else aEnabled)

/-! ## Controls (R293, R295, R296, R301) -/

/-- A zone covers an axis (R428). -/
def Dev.zoneCovers (d : Dev) (z a : Nat) : Bool :=
  d.flag (R.SF_ZONE_CFG.en z) && bit (d.rd (R.SF_ZONE_GRP.adr z)) (d.fld (R.AX_CFG.grp a))

/-- No covering zone withholds permission from the axis (R431). -/
def Dev.axPermitted (d : Dev) (a : Nat) : Bool :=
  (List.range 16).all (fun z => ! d.zoneCovers z a || d.flag (R.SF_ZONE_STAT.perm z))

/-- The axis's station is absent: not configured, or without valid feedback since it was (R631). -/
def Dev.stnAbsent (d : Dev) (s : Nat) : Bool := ! (d.head s).everValid

/-- AX_CTRL.enable (R296, R631). -/
def Dev.axEnable (d : Dev) (a : Nat) : Dev × WrRes :=
  if d.axUsed a ∧ d.rmode = mRun ∧ d.astate a = aOff ∧ ! d.stnAbsent (d.fld (R.AX_CFG.stn a)) then
    (((d.set (R.AX_STATE.ang_use a) (d.fld (R.AX_CFG.ang_pri a))).setB (R.AX_STATE.fb_used a) false).axEnter
      a aCatching, .ok 0)
  else (d.event 4 (R.AX_EVT.rej a) a, .rejected 0)

/-- AX_CTRL.disable (R293, R329). In Coasting that the axis entered in this very tick the higher cause
stands (R294). -/
def Dev.axDisable (d : Dev) (a : Nat) : Dev × WrRes :=
  if ! d.axUsed a then (d, .ok 0)
  else if d.axDriven a then (d.axStop a false, .ok 0)
  else if d.astate a = aCoasting ∧ (d.ax a).stateTick ≠ d.tick then (d.axEnter a aOff, .ok 0)
  else (d, .ok 0)

/-- The cell reports a fault that bars a reset (R295, R329). -/
def Dev.cellBars (d : Dev) (a : Nat) : Bool :=
  let x := d.ax a
  x.cellSto || x.cell.any (fun f => f = .oc ∨ f = .ov ∨ f = .ot ∨ f = .wd ∨
    (f = .enc ∧ d.akind a = 1) ∨ ((f = .openA ∨ f = .openB) ∧ d.akind a = 2))

/-- AX_CTRL.reset (R295, R431). -/
def Dev.axReset (d : Dev) (a : Nat) : Dev × WrRes :=
  let st := d.astate a
  if d.axUsed a ∧ aLost ≤ st ∧ d.slotAge (d.fld (R.AX_CFG.stn a)) = 0 ∧ ! d.cellBars a ∧
      (st ≠ aSafeOff ∨ d.axPermitted a) then
    let d := d.axEnter a aOff
    ((d.updAx a (fun x => { x with stoCmd := false })).set (R.AX_STATE.tries a) 0, .ok 0)
  else (d.event 4 (R.AX_EVT.rej a) a, .rejected 0)

/-- AX_CTRL.cnt_clr, without effect on an unused axis (R296, R301). -/
def Dev.axCntClr (d : Dev) (a : Nat) : Dev × WrRes :=
  if d.axUsed a then (d.wr (R.AX_CNT.adr a) 0, .ok 0) else (d, .ok 0)

/-- AX_ENABLE (R296). -/
def execAxEnable (a : Fin 128) (s : State) : Host.Outcome State Fault Refusal :=
  s.onDev (fun d => (d.axEnable a).1)

/-- AX_DISABLE (R293). -/
def execAxDisable (a : Fin 128) (s : State) : Host.Outcome State Fault Refusal :=
  s.onDev (fun d => (d.axDisable a).1)

/-- AX_RESET (R295). -/
def execAxReset (a : Fin 128) (s : State) : Host.Outcome State Fault Refusal :=
  s.onDev (fun d => (d.axReset a).1)

/-- AX_CNT_CLR (R301). -/
def execAxCntClr (a : Fin 128) (s : State) : Host.Outcome State Fault Refusal :=
  s.onDev (fun d => (d.axCntClr a).1)

/-- A write to AX_REF.src (R278, R317). -/
def Dev.axRefWr (d : Dev) (a : Nat) (v : Word) : Dev × WrRes :=
  let src := bits v 1 0
  let st := d.astate a
  let slow : Bool := decide ((d.ax a).ctl.wr * 10 ≤ (d.fld (R.AX_ZERO.n_zero a) : Nat)) &&
    decide (-((d.fld (R.AX_ZERO.n_zero a) : Nat) : Rat) ≤ (d.ax a).ctl.wr * 10)
  if src = 3 then d.rejectAt (R.AX_EVT.cfg_rej a)
  else if (src = 2 ∧ d.akind a = 2) ∨
      ¬ (st = aOff ∨ ((d.prf a).idle ∧ src ≠ 0) ∨ (slow ∧ src = 0)) then
    d.rejectAt (R.AX_EVT.src_rej a)
  else
    let d := if d.fld (R.AX_REF.src a) = 0 ∧ src ≠ 0 then d.prfAbort a else d
    (d.set (R.AX_REF.src a) src, .ok 0)

/-- AX_REF_WRITE (R278). -/
def execAxRefWrite (a : Fin 128) (v : Word) (s : State) : Host.Outcome State Fault Refusal :=
  s.onDev (fun d => (wroteBy (d.axRefWr a v) (R.AX_REF.adr a)).1)

/-! ## Times that end a state (R287, R290, R293, R325, R327, R329) -/

/-- COAST_TIMEOUT: after coast_ms another catch is attempted (R287, R293). -/
def execCoastTimeout (a : Fin 128) (s : State) : Host.Outcome State Fault Refusal :=
  s.onDev (fun d =>
    if d.astate a = aCoasting then (d.axEnter a aCatching).bump (R.AX_STATE.tries a) else d)

/-- CATCH_TIMEOUT: the catch has not succeeded within t_ms (R290). -/
def execCatchTimeout (a : Fin 128) (s : State) : Host.Outcome State Fault Refusal :=
  s.onDev (fun d => if d.astate a = aCatching ∧ d.akind a = 1 then d.catchFail a else d)

/-- BRAKE_RELEASE_DONE: t_rel_ms has elapsed (R293, R329). DESIGN CHOICE, log entry 3. -/
def execBrakeReleaseDone (a : Fin 128) (s : State) : Host.Outcome State Fault Refusal :=
  s.onDev (fun d => if d.astate a = aReleasing then d.axEnter a aEnabled else d)

/-- STOPPING_DONE: standstill, and t_eng_ms with the brake applied where one is fitted (R293, R329). -/
def execStoppingDone (a : Fin 128) (s : State) : Host.Outcome State Fault Refusal :=
  s.onDev (fun d => if d.astate a = aStopping then d.axEnter a aOff else d)

/-- TRIES_RESET: 1,024 ticks in Enabled without ROTOR_LOST (R287). -/
def execTriesReset (a : Fin 128) (s : State) : Host.Outcome State Fault Refusal :=
  s.onDev (fun d =>
    if d.astate a = aEnabled ∧ 1024 ≤ (d.ax a).goodTicks then d.set (R.AX_STATE.tries a) 0 else d)

/-- The encoder's position in pu from an extended count (R327). -/
def Dev.encPu (d : Dev) (a : Nat) (cnt : Int) : Int :=
  let cpr : Int := d.fld (R.AX_ENC_CPR.cpr a)
  if cpr = 0 then 0 else cnt * 65536 / cpr

/-- The end of a stepper axis's catch: the encoder offset makes the encoder position equal to the
commanded one (R327, R329). -/
def Dev.stepperCaught (d : Dev) (a : Nat) : Dev :=
  let ofs := (d.ax a).ctl.pc.floor - d.encPu a (d.dec a).cnt
  (d.updAx a (fun x => { x with ctl := { x.ctl with encOfs := ofs } })).caught a

/-- STEPPER_CATCH_DONE: 32 ticks in Catching (R327, R329). -/
def execStepperCatchDone (a : Fin 128) (s : State) : Host.Outcome State Fault Refusal :=
  s.onDev (fun d => if d.astate a = aCatching ∧ d.akind a = 2 then d.stepperCaught a else d)

/-- HOLD_CURRENT_TIMEOUT: the commanded speed has been 0 for t_hold times 10 ms (R325). -/
def execHoldCurrentTimeout (a : Fin 128) (s : State) : Host.Outcome State Fault Refusal :=
  s.onDev (fun d =>
    let t := d.fld (R.AX_STP_CFG.t_hold a)
    let c := (d.ax a).ctl
    if d.akind a = 2 ∧ d.astate a ≠ aCatching ∧ t ≠ 0 ∧ c.vc = 0 ∧ ! c.holdI ∧ d.ticksOfMs (10 * t) ≤ c.spdZero then
      (d.updAx a (fun x => { x with ctl := { x.ctl with holdI := true } })).event 4 (R.AX_STP_EVT.hold_i a) a
    else d)

/-- The axis loses its profile for good: Stopping, reaction 1 in its group, a class-4 event (R319). -/
def Dev.profileLate (d : Dev) (a : Nat) : Dev :=
  if d.astate a = aEnabled ∧ d.fld (R.AX_PRF_CFG.late_lim a) ≤ (d.ax a).lostRun then
    ((d.axEnter a aStopping).event 4 (R.AX_PRF_EVT.late a) a).groupReact a 1
  else d

/-- PROFILE_LATE_STOP (R319). -/
def execProfileLateStop (a : Fin 128) (s : State) : Host.Outcome State Fault Refusal :=
  s.onDev (fun d => d.profileLate a)

/-- What entering Hold does to an axis in Enabled: a profile that is not idle receives STOP; the ramps
of the other sources read the mode (R586). -/
def Dev.holdAxis (d : Dev) (a : Nat) : Dev :=
  if d.astate a = aEnabled ∧ d.fld (R.AX_REF.src a) = 0 ∧ ! (d.prf a).idle then
    (d.prfCmd a 3 0).1
  else d

end Sys2Proof.Machine
end

