-- ==== Sys2Proof/Machine/Flags.lean ====
section
/-! DEFINITION. The status register of a Brush engine: hold, aov, sov, cbx, z, n and depth (R219),
and the accumulator writes that set and heed them (R229, R234 to R236). -/

namespace Sys2Proof.Machine

/-- A bit of SR set. -/
def BrEng.setSr (g : BrEng) (i : Nat) : BrEng := { g with sr := g.sr ||| (1#32 <<< i) }

/-- A bit of SR cleared. -/
def BrEng.clearSr (g : BrEng) (i : Nat) : BrEng := { g with sr := g.sr &&& ~~~ (1#32 <<< i) }

/-- A bit of SR set to a value. -/
def BrEng.putSr (g : BrEng) (i : Nat) (b : Bool) : BrEng := if b then g.setSr i else g.clearSr i

/-- A bit of SR. -/
def BrEng.srBit (g : BrEng) (i : Nat) : Bool := bit g.sr i

/-- SR.depth follows the number of active block repeats. -/
def BrEng.showDepth (g : BrEng) : BrEng :=
  { g with sr := (g.sr &&& ~~~ 0xC00#32) ||| (word (g.rpts.length % 4) <<< 10) }

/-- SR.z and SR.n of a compare (R248). -/
def BrEng.setZN (g : BrEng) (z n : Bool) : BrEng := (g.putSr 8 z).putSr 9 n

/-- SR.sov set where a result saturated (R231). -/
def BrEng.sovIf (g : BrEng) (b : Bool) : BrEng := if b then g.setSr 5 else g

/-- An accumulator's value. -/
def BrEng.accI (g : BrEng) (k : Fin 4) : Int := (g.acc.get k).toInt

/-- ACCk is held (R235). -/
def BrEng.held (g : BrEng) (k : Fin 4) : Bool := g.srBit k

/-- An accumulator written without regard to its hold. -/
def BrEng.setAcc (g : BrEng) (k : Fin 4) (x : Int) : BrEng :=
  { g with acc := g.acc.set k (BitVec.ofInt 40 x) }

/-- The serial of the outermost active block repeat, 0 for none (R236). -/
def BrEng.outer (g : BrEng) : Nat := if g.rpts.isEmpty then 0 else g.serial

/-- An add with its exact raw result: overflow saturates, sets hold and aov; a held accumulator is
left unchanged (R229, R234, R235). -/
def BrEng.addResult (g : BrEng) (k : Fin 4) (x : Int) : BrEng :=
  if g.held k then g
  else if -(2 ^ 39 : Int) ≤ x ∧ x ≤ 2 ^ 39 - 1 then g.setAcc k x
  else
    let g := g.setAcc k (if 0 < x then 2 ^ 39 - 1 else -(2 ^ 39))
    { ((g.setSr k).setSr 4) with holdAt := g.holdAt.set k g.outer }

/-- An add into an accumulator. -/
def BrEng.addAcc (g : BrEng) (k : Fin 4) (x : Int) : BrEng := g.addResult k (g.accI k + x)

/-- A clear or load may lift the hold of ACCk: no block repeat was active at the overflow, or the
outermost of those that were has ended (R236). -/
def BrEng.mayLift (g : BrEng) (k : Fin 4) : Bool :=
  g.holdAt.get k == 0 || g.outer != g.holdAt.get k

/-- A clear or load of an accumulator (R236). -/
def BrEng.loadAcc (g : BrEng) (k : Fin 4) (x : Int) : BrEng :=
  if g.held k then (if g.mayLift k then (g.clearSr k).setAcc k x else g) else g.setAcc k x

/-- Any other write of an accumulator: none while it is held (R235). -/
def BrEng.writeAcc (g : BrEng) (k : Fin 4) (x : Int) : BrEng :=
  if g.held k then g else g.setAcc k x

/-- The number of redundant sign bits of a 40-bit value, 0 for the value 0 (R233). -/
def redundantSigns (v : BitVec 40) : Nat :=
  if v = 0 then 0
  else ((List.range 39).takeWhile (fun i => v.getLsbD (38 - i) == v.getLsbD 39)).length

/-- The flags of NORM and EXPA (R233). -/
def BrEng.expFlags (g : BrEng) (v : BitVec 40) : BrEng := g.setZN (v == 0) (v.getLsbD 39)

/-- Q15 of an accumulator with a shift: floor, saturation with SR.sov (R230). -/
def BrEng.q15 (g : BrEng) (k : Fin 4) (sh : Int) : Int × BrEng :=
  let x := g.accI k
  let v := if 15 ≤ sh then x * 2 ^ (sh - 15).toNat else x / (2 ^ (15 - sh).toNat : Int)
  (satI 16 v, g.sovIf (g.held k || decide (satI 16 v ≠ v)))

end Sys2Proof.Machine
end

