-- ==== Sys2Proof/WellFormed.lean ====
section
/-! DEFINITION. Which commands are well formed: operands inside the ranges the spec's tables give
them, where the operand's type does not say so already. -/

namespace Sys2Proof

open Machine

/-- A station address is 1 to 255 (R76). -/
def stationOk (s : Fin 256) : Bool := s.val != 0

/-- A segment's payload has the length its header names (R76). -/
def Machine.Seg.ok (s : Seg) : Bool := s.words.length == s.hdr.toNat / 65536 % 256

/-- A segment of a station: the right length, an address that is not 0. -/
def Machine.Seg.okStation (s : Seg) : Bool := s.ok && s.hdr.toNat % 256 != 0

/-- The header fields fit their bits (R72). -/
def Machine.FrameHdr.ok (h : FrameHdr) : Bool :=
  decide (h.origin < 2) && decide (h.corr < 2 ^ 24) && decide (h.epoch < 256)

/-- The head segment's fields fit their bits (R77). -/
def Machine.HeadSeg.ok (h : HeadSeg) : Bool :=
  decide (h.reint < 256) && decide (h.tgt < 16) && decide (h.sched < 16) && decide (h.applyOfs < 2 ^ 18)

/-- A CYC frame: fields in range, segments of the lengths they name (R75). -/
def Machine.CycFrame.ok (f : CycFrame) : Bool :=
  f.hdr.ok && f.head.ok && f.cmds.all Seg.okStation && f.fbs.all Seg.okStation

/-- A CST frame's fields fit their bits (R115). -/
def Machine.CstFrame.ok (f : CstFrame) : Bool :=
  f.hdr.ok && decide (f.tickNs < 2 ^ 18) && decide (f.initSched < 16) && decide (f.phase < 2)

/-- A memory operand: the displacement is 0 unless the mode is 3 (R247). -/
def MemOp.ok (a : MemOp) : Bool := a.am.val == 3 || a.disp == 0

/-- A safety PDU has four words (R443). -/
def pduOk (p : List Word) : Bool := p.length == 4

/-- A 128-bit nonce or tag. -/
def bytes16 (b : List Byte) : Bool := b.length == 16

/-- A READ names 1 to 16 ranges and at most 256 words (R547). -/
def rangesOk (r : List (Word × Nat)) : Bool :=
  decide (1 ≤ r.length) && decide (r.length ≤ 16) && decide ((r.map (·.2)).sum ≤ 256)

/-- A WRITE holds 1 to 64 entries with op 0 or 1 (R549). -/
def entriesOk (es : List WEntry) : Bool :=
  decide (1 ≤ es.length) && decide (es.length ≤ 64) && es.all (fun e => e.addrOp.toNat % 4 < 2)

/-- The well-formed commands. -/
def Instr.wellFormed : Instr → Bool
  | .tickInstant ss => ss.all (fun x => decide (1 ≤ x.addr) && decide (x.addr < 256))
  | .feedbackSegmentRx _ s _ _ => s.okStation
  | .safetyPduRx _ p => pduOk p
  | .relay _ s _ => s.okStation
  | .ldd _ a _ | .std _ a _ | .ldh _ a _ _ | .sth _ a _ _ | .ldbh _ a _ | .ldg _ a _
  | .stg _ a _ | .lda _ a _ | .sta _ a _ _ | .ldx _ a _ | .stx _ a _ => a.ok
  | .movs _ _ s => decide (s.val < 37)
  | .movp _ _ s => decide (s.val < 32)
  | .b _ c _ => decide (c.val < 9)
  | .cycRx _ f _ _ => f.ok
  | .cstRx _ f => f.ok
  | .almRx _ f _ _ => decide (1 ≤ f.addr) && decide (f.addr < 256) && decide (f.code < 256)
  | .mbxRequest _ a => stationOk a
  | .readId st _ n => stationOk st && decide (n < 65536)
  | .writeCfg st _ ws => stationOk st && decide (ws.length < 65536)
  | .commitCfg st m _ => stationOk st && decide (m < 65536)
  | .readCfg st _ n => stationOk st && decide (n < 65536)
  | .readDiag st _ n => stationOk st && decide (n < 65536)
  | .dropCfg st m => stationOk st && decide (m < 65536)
  | .windowsReenable st | .stReint st | .stWinEn st | .stCntClr st => stationOk st
  | .stationCycRx st _ f _ _ _ => stationOk st && f.ok
  | .stationCstRx st _ f _ => stationOk st && f.ok
  | .stationApplyDeadline st | .stationApply st | .stationAlarmSlot st => stationOk st
  | .timedOutputFire st id => stationOk st && id.val != 0
  | .stationPduEval st _ _ p => stationOk st && pduOk p
  | .stationPowerUp st _ i => stationOk st && i.length == 16
  | .configurationLost st _ => stationOk st
  | .actionTo _ stn _ _ act => stationOk stn && act.val != 0
  | .copy _ data _ _ _ => decide (data.length ≤ 1024)
  | .rsync _ data _ => decide (data.length ≤ 4096)
  | .streamAck _ _ win => decide (4096 ≤ win)
  | .hello _ _ n _ _ => bytes16 n
  | .auth _ _ h dn t => bytes16 h && bytes16 dn && bytes16 t
  | .read _ _ r => rangesOk r
  | .write _ _ es => entriesOk es
  | .provision _ _ _ _ w => w.length == 32
  | .registerWrite _ a _ _ => a.toNat % 4 == 0
  | _ => true

end Sys2Proof
end

