-- ==== Sys2Proof/Machine/Operands.lean ====
section
/-! DEFINITION. The operand forms of the Brush instructions: lanes of D registers, the special
registers, the memory a job sees and the addressing modes (R218 to R226, R240 to R242, R247). -/

namespace Sys2Proof.Machine

/-! ## Registers -/

/-- Lane k of a D register, Q15 (R218). -/
def laneOf (v : BitVec 64) (k : Nat) : Int := (v.extractLsb' (16 * k) 16).toInt

/-- A D register with one lane replaced. -/
def setLane (v : BitVec 64) (k : Nat) (x : Int) : BitVec 64 :=
  (v &&& ~~~ (0xFFFF#64 <<< (16 * k))) ||| (((BitVec.ofInt 16 x).setWidth 64) <<< (16 * k))

/-- Lane k of D register r. -/
def BrEng.lane (g : BrEng) (r : Fin 8) (k : Nat) : Int := laneOf (g.d.get r) k

/-- Lane k of D register r written. -/
def BrEng.setDLane (g : BrEng) (r : Fin 8) (k : Nat) (x : Int) : BrEng :=
  { g with d := g.d.set r (setLane (g.d.get r) k x) }

/-- A G register. -/
def BrEng.gr (g : BrEng) (r : Fin 8) : Word := g.g.get r

/-- A G register written. -/
def BrEng.setG (g : BrEng) (r : Fin 8) (v : Word) : BrEng := { g with g := g.g.set r v }

/-- The lanes that a mask enables, in ascending order. -/
def maskLanes (m : BitVec 4) : List (Fin 4) := [0, 1, 2, 3].filter (fun k => m.getLsbD k.val)

/-- The y operand of lane k: its own lane of Dy, or lane ly broadcast (R247). -/
def BrEng.yLane (g : BrEng) (y : Fin 8) (b : Bool) (ly : Fin 4) (k : Nat) : Int :=
  if b then g.lane y ly else g.lane y k

/-- The exact product of lane k of format A (R228). -/
def BrEng.product (g : BrEng) (f : LaneOp) (k : Nat) : Int :=
  g.lane f.x k * g.yLane f.y f.b f.ly k

/-- The exact sum of the products of the enabled lanes (R229). -/
def BrEng.productSum (g : BrEng) (f : LaneOp) : Int := ((maskLanes f.m).map (fun k => g.product f k.val)).sum

/-- A lane operation on the enabled lanes of format V, saturating with SR.sov (R231). -/
def BrEng.lanesV (g : BrEng) (f : VecOp) (op : Int → Int → Int) : BrEng :=
  let src := g
  (maskLanes f.m).foldl (fun g k =>
    let v := op (src.lane f.x k.val) (src.yLane f.y f.b f.ly k.val)
    (g.setDLane f.d k.val (satI 16 v)).sovIf (decide (satI 16 v ≠ v))) g

/-- A special register by index; none: reserved (R219). -/
def BrEng.special (g : BrEng) (s : Nat) : Option Word :=
  if h : s < 8 then some (g.pt.get ⟨s, h⟩)
  else if h : s - 8 < 8 then some (g.st.get ⟨s - 8, h⟩)
  else if h : s - 16 < 8 then some (g.bs.get ⟨s - 16, h⟩)
  else if h : s - 24 < 8 then some (g.cl.get ⟨s - 24, h⟩)
  else if h : s - 32 < 3 then some ((g.lc.get ⟨s - 32, h⟩).setWidth 32)
  else if s = 35 then some g.sr
  else if s = 36 then some g.jobWord
  else none

/-- A pointer, step, base or length register written by index; none: not writable (R219). -/
def BrEng.setSpecial (g : BrEng) (s : Nat) (v : Word) : Option BrEng :=
  if h : s < 8 then some { g with pt := g.pt.set s v }
  else if h : s - 8 < 8 then some { g with st := g.st.set (s - 8) v }
  else if h : s - 16 < 8 then some { g with bs := g.bs.set (s - 16) v }
  else if h : s - 24 < 8 then some { g with cl := g.cl.set (s - 24) v }
  else none

/-! ## Memory (R221 to R226) -/

/-- What a data address names for a job. -/
inductive JobMem
  | local_ (ofs : Nat)
  | context (ofs : Nat)
  | canvas (ofs : Nat)
  | palette (ofs : Nat)
  deriving DecidableEq, Repr

/-- The memory at an address, where all of an access of n bytes lies in it; none: outside the job's
map (R221). -/
def jobMem (a n : Nat) : Option JobMem :=
  if a + n ≤ 0x7FFC0 then some (.local_ a)
  else if 0x7FFC0 ≤ a ∧ a + n ≤ 0x80000 then some (.context a)
  else if 0x10000000 ≤ a ∧ a + n ≤ 0x10600000 then some (.canvas (a - 0x10000000))
  else if 0x20000000 ≤ a ∧ a + n ≤ 0x20100000 then some (.palette (a - 0x20000000))
  else none

/-- The memory code of an address of engine e. -/
def JobMem.code (e : Nat) : JobMem → Nat
  | .local_ a => memCode (4 + e) a
  | .context a => memCode (4 + e) a
  | .canvas a => memCode 0 a
  | .palette a => memCode 1 a

/-- The byte that the job's own posted stores give a Canvas offset, the latest first (R226). -/
def postedByte (c : List Posted) (ofs : Nat) : Option Byte :=
  c.foldl (fun r p => if p.addr ≤ ofs ∧ ofs < p.addr + p.bytes.length
    then some (p.bytes.getD (ofs - p.addr) 0) else r) none

/-- Bytes of the Canvas as the job sees them: its posted bytes, and committed contents elsewhere
(R226). -/
def Dev.canvasBytes (d : Dev) (c : List Posted) (ofs : Nat) : Nat → Dev × Option (List Byte)
  | 0 => (d, some [])
  | n + 1 =>
    let (d, b) := match postedByte c ofs with
      | some b => (d, some b)
      | none => d.readByte reqBrush (memCode 0 ofs)
    let (d, t) := d.canvasBytes c (ofs + 1) n
    match b, t with
    | some b, some t => (d, some (b :: t))
    | _, _ => (d, none)

/-- What a load came to: bytes, a job fault with its code, or an uncorrectable byte. -/
inductive LoadRes
  | bytes (b : List Byte)
  | fault (code : Nat)
  | ecc
  deriving DecidableEq, Repr

/-- Bytes of local memory as a load sees them while XIN copies are outstanding: of a word that a copy
has not yet completed, either the old or the new word, a free choice (R251). DESIGN CHOICE, log entry 40. -/
def Dev.xinView (d : Dev) (e a : Nat) (bs : List Byte) : Dev × List Byte :=
  (d.eng e).xins.foldl (fun (r : Dev × List Byte) x =>
    if a < x.dst + x.words.length ∧ x.dst < a + bs.length then
      let (v, d) := r.1.draw
      (d, r.2.mapIdx (fun i b =>
        if x.dst ≤ a + i ∧ a + i < x.dst + x.words.length ∧ v.getLsbD ((a + i) / 4 % 2) then
          x.words.getD (a + i - x.dst) b else b))
    else r) (d, bs)

/-- A load of n bytes by engine e, aligned to n (R221, R222). -/
def Dev.jobLoad (d : Dev) (e a n : Nat) : Dev × LoadRes :=
  if a % n ≠ 0 then (d, .fault 2)
  else
    match jobMem a n with
    | none => (d, .fault 3)
    | some (.canvas o) =>
      let (d, r) := d.canvasBytes (d.eng e).commit o n
      (d, match r with | some b => .bytes b | none => .ecc)
    | some m =>
      let (d, r) := d.readBytes reqBrush (m.code e) n
      match r with
      | some b => let (d, b) := d.xinView e a b; (d, .bytes b)
      | none => (d, .ecc)

/-- A store of bytes by engine e: at once in local memory, posted to the commit buffer in the Canvas
window; the code of the job fault otherwise (R221, R222, R225, R226). -/
def Dev.jobStore (d : Dev) (e a : Nat) (bs : List Byte) : Dev × Option Nat :=
  if a % bs.length ≠ 0 then (d, some 2)
  else
    match jobMem a bs.length with
    | some (.local_ o) => (d.putBytes (memCode (4 + e) o) bs, none)
    | some (.canvas o) =>
      if 256 ≤ (d.eng e).commit.length then (d, some 4)
      else (d.updEng e (fun g => { g with commit := g.commit ++ [{ addr := o, bytes := bs }] }), none)
    | _ => (d, some 3)

/-! ## Addressing modes (R240, R241) -/

/-- The address that a memory operand uses. -/
def BrEng.address (g : BrEng) (m : MemOp) : Nat :=
  let p := g.pt.get m.p
  if m.am = 3 then (p + m.disp.signExtend 32).toNat else p.toNat

/-- The circular update of a pointer (R241). -/
def BrEng.circular (g : BrEng) (p : Fin 8) : BrEng :=
  let pt := (g.pt.get p)
  let b := g.bs.get p
  let st := (g.st.get p).toInt
  let cl := (g.cl.get p).toNat
  if cl = 0 then { g with pt := g.pt.set p (wordI (pt.toNat + st)) }
  else
    let ofs : Int := (pt.toNat : Int) - b.toNat
    let g' := { g with pt := g.pt.set p (wordI (b.toNat + (ofs + st) % (cl : Int))) }
    if 0 ≤ ofs ∧ ofs < cl then g' else g'.setSr 6

/-- The pointer afterwards. -/
def BrEng.afterAccess (g : BrEng) (m : MemOp) : BrEng :=
  if m.am = 1 then { g with pt := g.pt.set m.p (g.pt.get m.p + g.st.get m.p) }
  else if m.am = 2 then g.circular m.p
  else g

end Sys2Proof.Machine
end

