-- ==== Sys2Proof/Machine/Brush.lean ====
section
/-! DEFINITION. The Brush engines: one meaning per instruction, the block repeats, how a job ends
(chapter 7). Each command says which engine executes the instruction; an engine executes one only
while a job of custom code runs on it and it does not wait. -/

namespace Sys2Proof.Machine

/-- What executing one instruction came to. -/
inductive BrOut
  /-- Done in a number of cycles; the next instruction follows. -/
  | done (cost : Nat)
  /-- A taken branch. -/
  | jump (target : Nat) (cost : Nat)
  /-- The engine waits at the instruction. -/
  | stay
  /-- A job fault by code (R254). -/
  | fault (code : Nat)
  /-- An uncorrectable ECC error in a load (R255). -/
  | ecc
  /-- END has executed. -/
  | ended
  deriving DecidableEq, Repr

/-- An engine executes instructions of custom code. -/
def BrEng.runs (g : BrEng) : Bool := g.busy && ! g.committing && ! g.waiting && g.lib.isNone

/-- BR_E_STAT shows the program counter and the depth. -/
def Dev.brShow (d : Dev) (e : Nat) : Dev :=
  (d.set (R.BR_E_STAT.pc e) (d.eng e).pc.toNat).set (R.BR_E_STAT.depth e) (d.eng e).rpts.length

/-- The time after T(n) that a running job has reached, one cycle being 1 ns (R218, R257). -/
def BrEng.atNs (g : BrEng) : Nat := g.startAt + g.cycles

/-- A job fault: the code and the program counter are latched, a class-2 event is recorded and the
job ends with cause 4, its posted stores discarded (R254). -/
def Dev.brFault (d : Dev) (e code : Nat) : Dev :=
  let g := d.eng e
  let d := d.wr (R.BR_E_FLT.adr e) (word (code * 2 ^ 28 + g.job * 2 ^ 16 + g.pc.toNat))
  (d.event 2 R.BR_EVT.fault g.job [word code]).jobEnd e 4 g.atNs

/-- An abort by an uncorrectable ECC error: cause 3 (R255). -/
def Dev.brEcc (d : Dev) (e : Nat) : Dev :=
  let d := (d.setB R.BR_EVT.ecc true).setB R.EZ_EVT.ecc true
  d.jobEnd e 3 (d.eng e).atNs

/-- After an instruction: at the end address of the innermost block it repeats or closes (R243). -/
def BrEng.advance (g : BrEng) : BrEng :=
  match g.rpts with
  | [] => { g with pc := g.pc + 1 }
  | r :: t =>
    if g.pc.toNat = r.last then
      let k := t.length
      if h : k < 3 then
        let c := g.lc.get ⟨k, h⟩
        if 1 < c.toNat then
          { g with lc := g.lc.set k (c - 1), pc := BitVec.ofNat 16 r.start }
        else ({ g with rpts := t, pc := g.pc + 1 }).showDepth
      else { g with pc := g.pc + 1 }
    else { g with pc := g.pc + 1 }

/-- The blocks left after a taken branch: those it leaves are closed, each with every block that it
leaves inside (R245). -/
def closeBlocks (target : Nat) (l : List Rpt) : List Rpt :=
  l.dropWhile (fun r => target < r.start || r.last < target)

/-- A taken branch (R245, R248). -/
def BrEng.jump (g : BrEng) (target : Nat) : BrEng :=
  ({ g with rpts := closeBlocks target g.rpts, pc := BitVec.ofNat 16 target }).showDepth

/-- One instruction of engine e: it executes where the engine runs custom code, after a fetch without
an uncorrectable error (R250, R255). -/
def Dev.brush (d : Dev) (e : Nat) (op : Dev → BrEng → Dev × BrOut) : Dev :=
  let g := d.eng e
  if ! g.runs then d
  else
    let (d, w) := d.readBytes reqBrush (memCode (8 + e) (4 * g.pc.toNat)) 4
    match w with
    | none => d.brEcc e
    | some _ =>
      match op d g with
      | (d, .done c) => (d.updEng e (fun g => ({ g with cycles := g.cycles + c }).advance)).brShow e
      | (d, .jump t c) => (d.updEng e (fun g => ({ g with cycles := g.cycles + c }).jump t)).brShow e
      | (d, .stay) => d.updEng e (fun g => { g with waiting := true })
      | (d, .fault c) => d.brFault e c
      | (d, .ecc) => d.brEcc e
      | (d, .ended) => d

/-- An instruction that changes only the engine's registers, in one cycle. -/
def Dev.brReg (d : Dev) (e : Nat) (op : BrEng → BrEng) : Dev :=
  d.brush e (fun d g => (d.updEng e (fun _ => op g), .done 1))

/-- An instruction that changes only the engine's registers or is a job fault 1 (R249). -/
def Dev.brRegF (d : Dev) (e : Nat) (op : BrEng → Option BrEng) : Dev :=
  d.brush e (fun d g =>
    match op g with
    | some g' => (d.updEng e (fun _ => g'), .done 1)
    | none => (d, .fault 1))

/-! ## Multiply and accumulate (format A) -/

/-- The lanes of a mask in turn. -/
def overLanes (m : BitVec 4) (g : BrEng) (op : BrEng → Fin 4 → BrEng) : BrEng :=
  (maskLanes m).foldl op g

/-- MPY (R228, R236, R248). -/
def execMpy (e : Fin 4) (f : LaneOp) (s : State) : Host.Outcome State Fault Refusal :=
  s.onDev (fun d => d.brReg e (fun g => overLanes f.m g (fun h k => h.loadAcc k (g.product f k))))

/-- MAC (R229). -/
def execMac (e : Fin 4) (f : LaneOp) (s : State) : Host.Outcome State Fault Refusal :=
  s.onDev (fun d => d.brReg e (fun g => overLanes f.m g (fun h k => h.addAcc k (g.product f k))))

/-- MSU (R229). -/
def execMsu (e : Fin 4) (f : LaneOp) (s : State) : Host.Outcome State Fault Refusal :=
  s.onDev (fun d => d.brReg e (fun g => overLanes f.m g (fun h k => h.addAcc k (-(g.product f k)))))

/-- MPYS (R228, R236). -/
def execMpys (e : Fin 4) (f : LaneOp) (s : State) : Host.Outcome State Fault Refusal :=
  s.onDev (fun d => d.brReg e (fun g => g.loadAcc f.a (g.productSum f)))

/-- MACS (R229). -/
def execMacs (e : Fin 4) (f : LaneOp) (s : State) : Host.Outcome State Fault Refusal :=
  s.onDev (fun d => d.brReg e (fun g => g.addAcc f.a (g.productSum f)))

/-- MSUS (R229). -/
def execMsus (e : Fin 4) (f : LaneOp) (s : State) : Host.Outcome State Fault Refusal :=
  s.onDev (fun d => d.brReg e (fun g => g.addAcc f.a (-(g.productSum f))))

/-- CLR (R236). -/
def execClr (e : Fin 4) (m : BitVec 4) (s : State) : Host.Outcome State Fault Refusal :=
  s.onDev (fun d => d.brReg e (fun g => overLanes m g (fun h k => h.loadAcc k 0)))

/-! ## Accumulators (format B) -/

/-- ADDA (R229). -/
def execAdda (e a c : Fin 4) (s : State) : Host.Outcome State Fault Refusal :=
  s.onDev (fun d => d.brReg e (fun g => g.addAcc a (g.accI c)))

/-- SUBA (R229). -/
def execSuba (e a c : Fin 4) (s : State) : Host.Outcome State Fault Refusal :=
  s.onDev (fun d => d.brReg e (fun g => g.addAcc a (-(g.accI c))))

/-- MOVA (R236, R248). -/
def execMova (e a c : Fin 4) (s : State) : Host.Outcome State Fault Refusal :=
  s.onDev (fun d => d.brReg e (fun g => g.loadAcc a (g.accI c)))

/-- SHA: a left shift counts as an add, a right shift is arithmetic (R229, R235, R248). -/
def execSha (e a : Fin 4) (imm : BitVec 6) (s : State) : Host.Outcome State Fault Refusal :=
  s.onDev (fun d => d.brReg e (fun g =>
    if 0 ≤ imm.toInt then g.addResult a (g.accI a * 2 ^ imm.toInt.toNat)
    else g.writeAcc a (g.accI a / 2 ^ (-imm.toInt).toNat)))

/-- NORM (R233, R235). -/
def execNorm (e a : Fin 4) (g : Fin 8) (s : State) : Host.Outcome State Fault Refusal :=
  s.onDev (fun d => d.brReg e (fun b =>
    let v := b.acc.get a
    let c := redundantSigns v
    ((b.setG g (word c)).writeAcc a (b.accI a * 2 ^ c)).expFlags v))

/-- EXPA (R233). -/
def execExpa (e a : Fin 4) (g : Fin 8) (s : State) : Host.Outcome State Fault Refusal :=
  s.onDev (fun d => d.brReg e (fun b =>
    let v := b.acc.get a
    (b.setG g (word (redundantSigns v))).expFlags v))

/-- INSA (R232, R236). -/
def execInsa (e a : Fin 4) (d : Fin 8) (lane : Fin 4) (s : State) :
    Host.Outcome State Fault Refusal :=
  s.onDev (fun x => x.brReg e (fun g => g.loadAcc a (g.lane d lane * 2 ^ 15)))

/-- EXTA: a shift outside -8 to +7 is a reserved field (R230, R235, R249). -/
def execExta (e a : Fin 4) (imm : BitVec 6) (d : Fin 8) (lane : Fin 4) (s : State) :
    Host.Outcome State Fault Refusal :=
  s.onDev (fun x => x.brRegF e (fun g =>
    if -8 ≤ imm.toInt ∧ imm.toInt ≤ 7 then
      let (v, g) := g.q15 a imm.toInt
      some (g.setDLane d lane v)
    else none))

/-! ## Lane operations (format V) -/

/-- VADD (R231). -/
def execVadd (e : Fin 4) (f : VecOp) (s : State) : Host.Outcome State Fault Refusal :=
  s.onDev (fun d => d.brReg e (fun g => g.lanesV f (fun x y => x + y)))

/-- VSUB (R231). -/
def execVsub (e : Fin 4) (f : VecOp) (s : State) : Host.Outcome State Fault Refusal :=
  s.onDev (fun d => d.brReg e (fun g => g.lanesV f (fun x y => x - y)))

/-- VMIN (R231). -/
def execVmin (e : Fin 4) (f : VecOp) (s : State) : Host.Outcome State Fault Refusal :=
  s.onDev (fun d => d.brReg e (fun g => g.lanesV f (fun x y => min x y)))

/-- VMAX (R231). -/
def execVmax (e : Fin 4) (f : VecOp) (s : State) : Host.Outcome State Fault Refusal :=
  s.onDev (fun d => d.brReg e (fun g => g.lanesV f (fun x y => max x y)))

/-- VMOV; its x field is reserved 0 (R248, R249). -/
def execVmov (e : Fin 4) (f : VecOp) (s : State) : Host.Outcome State Fault Refusal :=
  s.onDev (fun d => d.brRegF e (fun g =>
    if f.x = 0 then some (g.lanesV f (fun _ y => y)) else none))

/-- VNEG; its x field is reserved 0 (R231, R249). -/
def execVneg (e : Fin 4) (f : VecOp) (s : State) : Host.Outcome State Fault Refusal :=
  s.onDev (fun d => d.brRegF e (fun g =>
    if f.x = 0 then some (g.lanesV f (fun _ y => -y)) else none))

/-! ## Memory (format C) -/

/-- The wait of a load: none in local memory, a free count of at most 32 cycles in the Canvas window
and at most 20 in the Palette window (R248). DESIGN CHOICE, log entry 40. -/
def Dev.loadWait (d : Dev) (a n : Nat) : Nat × Dev :=
  match jobMem a n with
  | some (.canvas _) => let (v, d) := d.draw; (v.toNat % 33, d)
  | some (.palette _) => let (v, d) := d.draw; (v.toNat % 21, d)
  | _ => (0, d)

/-- A load instruction of n bytes: what the bytes do to the engine, then the pointer (R240 to R242,
R248, R255). -/
def Dev.brLoad (d : Dev) (e : Nat) (m : MemOp) (n : Nat) (op : BrEng → List Byte → BrEng) : Dev :=
  d.brush e (fun d g =>
    if ! m.ok then (d, .fault 1)
    else
      let a := g.address m
      match d.jobLoad e a n with
      | (d, .bytes b) =>
        let (w, d) := d.loadWait a n
        (d.updEng e (fun _ => (op g b).afterAccess m), .done (1 + w))
      | (d, .fault c) => (d, .fault c)
      | (d, .ecc) => (d, .ecc))

/-- A store instruction: the bytes that the engine gives, then the pointer (R225, R226, R240). -/
def Dev.brStore (d : Dev) (e : Nat) (m : MemOp) (op : BrEng → List Byte × BrEng) : Dev :=
  d.brush e (fun d g =>
    if ! m.ok then (d, .fault 1)
    else
      let (bs, _) := op g
      match d.jobStore e (g.address m) bs with
      | (d, none) => (d.updEng e (fun h => (op h).2.afterAccess m), .done 1)
      | (d, some c) => (d, .fault c))

/-- LDD (R248). -/
def execLdd (e : Fin 4) (a : MemOp) (r : Fin 8) (s : State) : Host.Outcome State Fault Refusal :=
  s.onDev (fun d => d.brLoad e a 8 (fun g b => { g with d := g.d.set r (BitVec.ofNat 64 (bytesNat b)) }))

/-- STD (R248). -/
def execStd (e : Fin 4) (a : MemOp) (r : Fin 8) (s : State) : Host.Outcome State Fault Refusal :=
  s.onDev (fun d => d.brStore e a (fun g => (natBytes 8 (g.d.get r).toNat, g)))

/-- LDH (R248). -/
def execLdh (e : Fin 4) (a : MemOp) (r : Fin 8) (lane : Fin 4) (s : State) :
    Host.Outcome State Fault Refusal :=
  s.onDev (fun d => d.brLoad e a 2 (fun g b => g.setDLane r lane (signed 16 (bytesNat b))))

/-- STH (R248). -/
def execSth (e : Fin 4) (a : MemOp) (r : Fin 8) (lane : Fin 4) (s : State) :
    Host.Outcome State Fault Refusal :=
  s.onDev (fun d => d.brStore e a (fun g => (natBytes 2 (unsigned 16 (g.lane r lane)), g)))

/-- LDBH (R248). -/
def execLdbh (e : Fin 4) (a : MemOp) (r : Fin 8) (s : State) : Host.Outcome State Fault Refusal :=
  s.onDev (fun d => d.brLoad e a 2 (fun g b =>
    ([0, 1, 2, 3] : List Nat).foldl (fun h k => h.setDLane r k (signed 16 (bytesNat b))) g))

/-- LDG (R248). -/
def execLdg (e : Fin 4) (a : MemOp) (r : Fin 8) (s : State) : Host.Outcome State Fault Refusal :=
  s.onDev (fun d => d.brLoad e a 4 (fun g b => g.setG r (word (bytesNat b))))

/-- STG (R248). -/
def execStg (e : Fin 4) (a : MemOp) (r : Fin 8) (s : State) : Host.Outcome State Fault Refusal :=
  s.onDev (fun d => d.brStore e a (fun g => (wordBytes (g.gr r), g)))

/-- LDA (R232, R236). -/
def execLda (e : Fin 4) (a : MemOp) (c : Fin 4) (s : State) : Host.Outcome State Fault Refusal :=
  s.onDev (fun d => d.brLoad e a 2 (fun g b => g.loadAcc c (signed 16 (bytesNat b) * 2 ^ 15)))

/-- STA (R230, R235). -/
def execSta (e : Fin 4) (a : MemOp) (c : Fin 4) (sh : BitVec 4) (s : State) :
    Host.Outcome State Fault Refusal :=
  s.onDev (fun d => d.brStore e a (fun g =>
    let (v, g) := g.q15 c sh.toInt
    (natBytes 2 (unsigned 16 v), g)))

/-- LDX: bits 63 to 40 are ignored (R232, R236). -/
def execLdx (e : Fin 4) (a : MemOp) (c : Fin 4) (s : State) : Host.Outcome State Fault Refusal :=
  s.onDev (fun d => d.brLoad e a 8 (fun g b => g.loadAcc c (signed 40 (bytesNat b))))

/-- STX (R232). -/
def execStx (e : Fin 4) (a : MemOp) (c : Fin 4) (s : State) : Host.Outcome State Fault Refusal :=
  s.onDev (fun d => d.brStore e a (fun g => (natBytes 8 (unsigned 64 (g.accI c)), g)))

/-! ## Scalars (format D) -/

/-- MOVI (R248). -/
def execMovi (e : Fin 4) (g : Fin 8) (imm : BitVec 16) (s : State) :
    Host.Outcome State Fault Refusal :=
  s.onDev (fun d => d.brReg e (fun b => b.setG g (imm.signExtend 32)))

/-- MOVHI (R248). -/
def execMovhi (e : Fin 4) (g : Fin 8) (imm : BitVec 16) (s : State) :
    Host.Outcome State Fault Refusal :=
  s.onDev (fun d => d.brReg e (fun b => b.setG g (imm ++ (b.gr g).extractLsb' 0 16)))

/-- ADDI (R248). -/
def execAddi (e : Fin 4) (g : Fin 8) (imm : BitVec 16) (s : State) :
    Host.Outcome State Fault Refusal :=
  s.onDev (fun d => d.brReg e (fun b => b.setG g (b.gr g + imm.signExtend 32)))

/-- ADDG (R248). -/
def execAddg (e : Fin 4) (g k : Fin 8) (s : State) : Host.Outcome State Fault Refusal :=
  s.onDev (fun d => d.brReg e (fun b => b.setG g (b.gr g + b.gr k)))

/-- SUBG (R248). -/
def execSubg (e : Fin 4) (g k : Fin 8) (s : State) : Host.Outcome State Fault Refusal :=
  s.onDev (fun d => d.brReg e (fun b => b.setG g (b.gr g - b.gr k)))

/-- A signed comparison into z and n (R248). -/
def BrEng.compare (b : BrEng) (x y : Word) : BrEng := b.setZN (x == y) (x.slt y)

/-- CMPG (R248). -/
def execCmpg (e : Fin 4) (g k : Fin 8) (s : State) : Host.Outcome State Fault Refusal :=
  s.onDev (fun d => d.brReg e (fun b => b.compare (b.gr g) (b.gr k)))

/-- CMPI (R248). -/
def execCmpi (e : Fin 4) (g : Fin 8) (imm : BitVec 16) (s : State) :
    Host.Outcome State Fault Refusal :=
  s.onDev (fun d => d.brReg e (fun b => b.compare (b.gr g) (imm.signExtend 32)))

/-- MOVS: a reserved index is a job fault (R219, R249). -/
def execMovs (e : Fin 4) (g : Fin 8) (sr : Fin 64) (s : State) : Host.Outcome State Fault Refusal :=
  s.onDev (fun d => d.brRegF e (fun b => (b.special sr).map (fun v => b.setG g v)))

/-- MOVP: an index of 32 or more is a job fault (R219, R242, R249). -/
def execMovp (e : Fin 4) (g : Fin 8) (sr : Fin 64) (s : State) : Host.Outcome State Fault Refusal :=
  s.onDev (fun d => d.brRegF e (fun b => b.setSpecial sr (b.gr g)))

/-- JST: an index above 1023 is a job fault (R248, R249). -/
def execJst (e : Fin 4) (g k : Fin 8) (s : State) : Host.Outcome State Fault Refusal :=
  s.onDev (fun d => d.brush e (fun d b =>
    let j := (b.gr k).toNat
    if 1023 < j then (d, .fault 1)
    else
      let w := d.rd (R.BR_JSTAT.adr j)
      (d.updEng e (fun b => (b.setG g w).putSr 8 (! bit w 7)), .done 1)))

/-! ## Flow (format E) -/

/-- The conditions of B; none: reserved (R252). -/
def BrEng.cond (g : BrEng) (c : Nat) : Option Bool :=
  let z := g.srBit 8
  let n := g.srBit 9
  match c with
  | 0 => some true
  | 1 => some z
  | 2 => some (! z)
  | 3 => some n
  | 4 => some (! n)
  | 5 => some (! z && ! n)
  | 6 => some (z || n)
  | 7 => some (g.srBit 4)
  | 8 => some (! g.srBit 4)
  | _ => none

/-- B (R245, R248, R252). -/
def execB (e : Fin 4) (cond : Fin 16) (target : BitVec 16) (s : State) :
    Host.Outcome State Fault Refusal :=
  s.onDev (fun d => d.brush e (fun d g =>
    match g.cond cond with
    | some true => (d, .jump target.toNat 2)
    | some false => (d, .done 1)
    | none => (d, .fault 1)))

/-- The addresses of a block that would open break a rule of R244. -/
def BrEng.badBlock (g : BrEng) (last : Nat) : Bool :=
  decide (last ≤ g.pc.toNat) ||
    (match g.rpts with
     | r :: _ => decide (r.last ≤ last)
     | [] => false)

/-- A block opens with its count; an outermost one takes a new serial (R243). -/
def BrEng.openBlock (g : BrEng) (count last : Nat) : BrEng :=
  let k := g.rpts.length
  let g := if g.rpts.isEmpty then { g with serial := g.serial + 1 } else g
  let g := if h : k < 3 then { g with lc := g.lc.set k (BitVec.ofNat 16 count) } else g
  ({ g with rpts := { start := g.pc.toNat + 1, last := last } :: g.rpts }).showDepth

/-- A block repeat of a count (R243, R244, R246). -/
def Dev.brRepeat (d : Dev) (e count last : Nat) (g : BrEng) : Dev × BrOut :=
  if g.badBlock last ∨ 65535 < count then (d, .fault 5)
  else if count = 0 then (d.updEng e (fun g => { g with pc := BitVec.ofNat 16 last }), .done 2)
  else if 3 ≤ g.rpts.length then (d, .fault 5)
  else (d.updEng e (fun _ => g.openBlock count last), .done 1)

/-- RPTI: a count of 0 means 1024 (R243, R246). -/
def execRpti (e : Fin 4) (count : Fin 1024) (last : BitVec 16) (s : State) :
    Host.Outcome State Fault Refusal :=
  s.onDev (fun d => d.brush e (fun d g =>
    d.brRepeat e (if count.val = 0 then 1024 else count.val) last.toNat g))

/-- RPTG (R243, R244, R246). -/
def execRptg (e : Fin 4) (g : Fin 8) (last : BitVec 16) (s : State) :
    Host.Outcome State Fault Refusal :=
  s.onDev (fun d => d.brush e (fun d b => d.brRepeat e (b.gr g).toNat last.toNat b))

/-! ## Transfers -/

/-- The bytes that an XIN reads: committed contents, not the job's posted stores (R251). -/
def Dev.xinRead (d : Dev) (e a n : Nat) : Dev × LoadRes :=
  match jobMem a n with
  | none => (d, .fault 3)
  | some m =>
    let (d, r) := d.readBytes reqBrush (m.code e) n
    (d, match r with | some b => .bytes b | none => .ecc)

/-- XIN: a fifth outstanding copy waits; a misaligned address, one outside the map and a destination
that is not local memory are job faults (R221, R222, R250, R251). -/
def execXin (e : Fin 4) (p q : Fin 8) (n : Fin 256) (s : State) :
    Host.Outcome State Fault Refusal :=
  s.onDev (fun d => d.brush e (fun d g =>
    let src := (g.pt.get p).toNat
    let dst := (g.pt.get q).toNat
    let len := 4 * (n.val + 1)
    if src % 4 ≠ 0 ∨ dst % 4 ≠ 0 then (d, .fault 2)
    else
      match jobMem dst len with
      | some (.local_ _) =>
        if 4 ≤ g.xins.length then (d, .stay)
        else
          match d.xinRead e src len with
          | (d, .bytes b) =>
            (d.updEng e (fun g => { g with xins := g.xins ++ [{ src := src, dst := dst, words := b }] }),
              .done 1)
          | (d, .fault c) => (d, .fault c)
          | (d, .ecc) => (d, .ecc)
      | _ => (d, .fault 3)))

/-- XIN_COMPLETE: the oldest outstanding copy writes its words; a waiting engine goes on, its wait a
free number of cycles within the bound of R251. DESIGN CHOICE, log entry 40. DEDUCED, log entry 65. -/
def execXinComplete (e : Fin 4) (s : State) : Host.Outcome State Fault Refusal :=
  s.onDev (fun d =>
    let g := d.eng e
    match g.xins with
    | [] => d
    | x :: t =>
      let d := d.putBytes (memCode (4 + e) x.dst) x.words
      let (v, d) := if g.waiting then d.draw else (0, d)
      let w := if g.waiting then v.toNat % (33 + x.words.length / 4) else 0
      d.updEng e (fun g => { g with xins := t, waiting := false, cycles := g.cycles + w }))

/-- WAITX: with copies outstanding the engine waits at the instruction (R248, R251). -/
def execWaitx (e : Fin 4) (s : State) : Host.Outcome State Fault Refusal :=
  s.onDev (fun d => d.brush e (fun d g => if g.xins.isEmpty then (d, .done 1) else (d, .stay)))

/-! ## The end -/

/-- END has executed: the commit begins, or the discard where SR.aov is set (R227, R237, R253). -/
def BrEng.endCommit (g : BrEng) : BrEng :=
  { g with committing := true, cause := b2n (g.srBit 4),
           cycles := g.cycles + 1 + (if g.srBit 4 then 0 else g.commit.length) }

/-- END (R227, R237, R253): the engine of a library job ends its job so too. -/
def execEndJob (e : Fin 4) (s : State) : Host.Outcome State Fault Refusal :=
  s.onDev (fun d =>
    let g := d.eng e
    if g.busy ∧ g.lib.isSome ∧ ¬ g.committing then d.updEng e BrEng.endCommit
    else d.brush e (fun d _ => (d.updEng e BrEng.endCommit, .ended)))

/-- NOP (R248). -/
def execNop (e : Fin 4) (s : State) : Host.Outcome State Fault Refusal :=
  s.onDev (fun d => d.brReg e (fun g => g))

/-- RESERVED_OPCODE: decoding one of the reserved opcodes ends the job with job fault 1 (R249, R254).
An opcode that is not reserved is another instruction's and does nothing here. -/
def execReservedOpcode (e : Fin 4) (op : BitVec 6) (s : State) : Host.Outcome State Fault Refusal :=
  s.onDev (fun d =>
    if [0x00, 0x16, 0x17, 0x23, 0x24, 0x25, 0x26, 0x27, 0x32, 0x33, 0x34, 0x35, 0x36, 0x37,
        0x3D].contains op.toNat then
      d.brush e (fun d _ => (d, .fault 1))
    else d)

/-! ## Program memory and statistics -/

/-- The engines that BR_PM_ADDR.eng_mask names. -/
def Dev.pmEngines (d : Dev) : List Nat :=
  (List.range 4).filter (fun e => d.fld R.BR_PM_ADDR.eng_mask / 2 ^ e % 2 = 1)

/-- A write to BR_PM_DATA: the word goes to the program memory of every addressed engine and addr
increments, in Load and Service only (R260). -/
def Dev.pmWrite (d : Dev) (v : Word) : Dev × WrRes :=
  if d.loadOrService then
    let a := d.fld R.BR_PM_ADDR.addr
    let d := d.pmEngines.foldl (fun d e => d.pokeW (memCode (8 + e) (4 * a)) v) d
    (d.set R.BR_PM_ADDR.addr (a + 1), .ok 0)
  else d.rejectAt R.BR_EVT.pm_rej

/-- BR_PM_DATA_WRITE (R260). DEDUCED, log entry 65. -/
def execBrPmDataWrite (_m : Master) (v : Word) (s : State) : Host.Outcome State Fault Refusal :=
  s.onDev (fun d => (d.pmWrite v).1)

/-- The requester bit of a bus master (R530, R627). -/
def Master.req : Master → BitVec 16
  | .host => reqShp
  | .supervisor => reqSup
  | .at0 | .at1 => reqAtelier

/-- A read of BR_PM_DATA: the word at addr in the lowest addressed engine, 0 where none is addressed;
addr increments (R260). None: an uncorrectable error (R523). -/
def Dev.pmRead (d : Dev) (m : Master) : Dev × Option Word :=
  let a := d.fld R.BR_PM_ADDR.addr
  let (d, w) := match d.pmEngines with
    | e :: _ =>
      let (d, b) := d.readBytes m.req (memCode (8 + e) (4 * a)) 4
      (d, b.map (fun b => word (bytesNat b)))
    | [] => (d, some 0)
  (d.set R.BR_PM_ADDR.addr (a + 1), w)

/-- BR_PM_DATA_READ (R260). -/
def execBrPmDataRead (m : Master) (s : State) : Host.Outcome State Fault Refusal :=
  s.onDev (fun d => (d.pmRead m).1)

/-- Clear cyc_max, BR_E_JOBS, BR_E_INV and BR_E_OVR of all engines (BR_CTRL, R261). -/
def Dev.brCntClr (d : Dev) : Dev :=
  (List.range 4).foldl (fun d e =>
    (((d.set (R.BR_E_CYC.cyc_max e) 0).wr (R.BR_E_JOBS.adr e) 0).wr (R.BR_E_INV.adr e) 0).wr
      (R.BR_E_OVR.adr e) 0) d

/-- BR_CNT_CLR (R261). -/
def execBrCntClr (s : State) : Host.Outcome State Fault Refusal := s.onDev Dev.brCntClr

end Sys2Proof.Machine
end

