-- ==== Sys2Proof/Machine/Station.lean ====
section
/-! DEFINITION. The stations of the backbone: identity, configuration and mailbox services, clock
discipline, candidates, apply, timed outputs, alarms and safety outputs (chapter 5 and the station
rules of chapters 3, 4 and 13). -/

namespace Sys2Proof.Machine

/-! ## Identity and configuration -/

/-- A field of the identity record (R152). -/
def StationSt.idf (s : StationSt) (w hi lo : Nat) : Nat := bits (nthW s.ident w) hi lo

/-- Station type (R152). -/
def StationSt.ptype (s : StationSt) : Nat := s.idf 3 2 0

/-- Axes served. -/
def StationSt.nax (s : StationSt) : Nat := s.idf 2 7 4

/-- Preparation time in ns. -/
def StationSt.tPrep (s : StationSt) : Nat := s.idf 2 27 16

/-- Timed-output entries held at most. -/
def StationSt.toCap (s : StationSt) : Nat := s.idf 3 15 8

/-- The committed configuration for a schedule mode. -/
def StationSt.cfg? (s : StationSt) (m : Nat) : Option StCfg := s.cfgs.find? (fun c => c.mode = m)

/-- A field of a configuration word. -/
def StCfg.f (c : StCfg) (w hi lo : Nat) : Nat := bits (nthW c.words w) hi lo

/-- The configured blocks: code, words, first (R156, R157). -/
def StCfg.blocks (c : StCfg) : List (Nat × Nat × Nat) :=
  ((c.words.drop 3).take (c.f 0 15 8)).map (fun w => (bits w 31 28, bits w 23 16, bits w 15 0))

/-- Words of the configured blocks with a code. -/
def StCfg.blkWords (c : StCfg) (code : Nat) : Nat :=
  ((c.blocks.filter (fun b => b.1 = code)).map (fun b => b.2.1)).sum

/-- First point of the block with a code. -/
def StCfg.blkFirst (c : StCfg) (code : Nat) : Nat :=
  ((c.blocks.find? (fun b => b.1 = code)).map (fun b => b.2.2)).getD 0

/-- A block is configured. -/
def StCfg.has (c : StCfg) (code : Nat) : Bool := c.blocks.any (fun b => b.1 = code)

/-- Words of the fixed part of a payload (R157): 4 or 3 command words and 5 or 3 feedback words an
axis. -/
def fixedWords (ptype nax : Nat) (fb : Bool) : Nat :=
  1 + nax * (if ptype = 1 then (if fb then 5 else 4) else if ptype = 2 then 3 else 0)

/-- Where a block begins in its payload: after the fixed part and the blocks of lower code in the same
direction. -/
def StationSt.blkOfs (s : StationSt) (c : StCfg) (code : Nat) : Nat :=
  fixedWords s.ptype s.nax (decide (8 ≤ code)) +
    ((c.blocks.filter (fun b => b.1 < code && (decide (8 ≤ b.1) == decide (8 ≤ code)))).map
      (fun b => b.2.1)).sum

/-- The words of a block in a command payload. -/
def StationSt.blkOf (s : StationSt) (c : StCfg) (payload : List Word) (code : Nat) : List Word :=
  (payload.drop (s.blkOfs c code)).take (c.blkWords code)

/-- Words of a whole configuration (R156): the three fixed words, the blocks, a fallback word for
every DO and AO word, and the to_mask words where TO is configured. -/
def StCfg.size (c : StCfg) : Nat :=
  3 + c.f 0 15 8 + c.blkWords 1 + c.blkWords 2 + (if c.has 4 then c.blkWords 1 else 0)

/-- A fallback word. -/
def StCfg.fallback (c : StCfg) (i : Nat) : Word := nthW c.words (3 + c.f 0 15 8 + i)

/-- A point is a timed-output point (R156). -/
def StCfg.toPoint (c : StCfg) (p : Nat) : Bool :=
  let j := p - c.blkFirst 1
  c.has 4 && decide (c.blkFirst 1 ≤ p) && decide (j / 32 < c.blkWords 1) &&
    bit (nthW c.words (3 + c.f 0 15 8 + c.blkWords 1 + c.blkWords 2 + j / 32)) (j % 32)

/-- The block codes ascend, each known and at most once (R157). -/
def ascending : List Nat → Bool
  | a :: b :: t => decide (a < b) && ascending (b :: t)
  | _ => true

/-- The configuration is consistent (R156, R158). -/
def StationSt.cfgConsistent (s : StationSt) (c : StCfg) (mode : Nat) : Bool :=
  let codes := c.blocks.map (·.1)
  let sum := fun fb => ((c.blocks.filter (fun b => decide (8 ≤ b.1) == fb)).map (fun b => b.2.1)).sum
  c.f 0 7 4 == mode && c.f 0 2 0 == s.ptype && decide (c.f 0 15 8 ≤ 12) && ascending codes &&
  codes.all (fun k => (1 ≤ k && k ≤ 6) || (8 ≤ k && k ≤ 13)) &&
  c.f 0 31 24 == fixedWords s.ptype s.nax false + sum false &&
  c.f 0 23 16 == fixedWords s.ptype s.nax true + sum true &&
  (s.ptype != 3 || (c.has 8 && c.has 11)) &&
  (! (c.has 1 || c.has 2 || c.has 3 || c.has 4) || c.has 11) &&
  c.blkWords 12 == c.blkWords 5 &&
  (! c.has 4 || (c.has 5 && c.has 1 &&
    (List.range (32 * c.blkWords 1)).any (fun j => c.toPoint (c.blkFirst 1 + j)))) &&
  ((c.f 1 23 16 != 0) == (c.has 6 || c.has 13)) &&
  decide (1 ≤ c.f 1 11 8) && decide (c.f 1 11 8 ≤ 8) && c.words.length == c.size

/-- The last element of a block lies within a count of points, `per` to a word. -/
def StCfg.blkFits (c : StCfg) (code per cnt : Nat) : Bool :=
  let w := c.blkWords code
  w == 0 || decide (c.blkFirst code + per * (w - 1) < cnt)

/-- The configuration fits the station's capacities (R155). -/
def StationSt.cfgFits (s : StationSt) (c : StCfg) (mode : Nat) : Bool :=
  decide ((s.cfgs.filter (fun x => x.mode ≠ mode)).length < s.idf 3 31 24) &&
  decide (c.blkWords 4 / 2 ≤ s.toCap) && c.blkFits 3 2 (s.idf 3 23 16) &&
  c.blkFits 1 32 (s.idf 5 31 16) && c.blkFits 9 32 (s.idf 5 15 0) &&
  c.blkFits 2 2 (s.idf 6 31 16) && c.blkFits 10 2 (s.idf 6 15 0)

/-! ## Mailbox services (R153 to R155) -/

/-- The station answers mailbox requests: it has a time and is under no re-integration order (R120,
R128). -/
def StationSt.answers (s : StationSt) : Bool := s.state != .forward && ! s.reint

/-- The reply of a service. -/
def StationSt.reply (s : StationSt) (service result index : Nat) (ws : List Word := []) : StationSt :=
  { s with out := s.out ++ [.mbxReply { addr := s.addr, service := service, result := result,
                                        index := index, words := ws }] }

/-- A service carried out where the station answers. -/
def State.service (s : State) (st : Fin 256) (g : StationSt → StationSt) :
    Host.Outcome State Fault Refusal :=
  s.onStation st (fun x => if x.answers then g x else x)

/-- READ_ID (R152, R154). -/
def execReadId (st : Fin 256) (index count : Nat) (s : State) : Host.Outcome State Fault Refusal :=
  s.service st (fun x =>
    if 16 < index + count then x.reply 1 2 index
    else x.reply 1 0 index ((x.ident.drop index).take count))

/-- Words written into a list at an index, the list extended with 0. -/
def overlay (l : List Word) (i : Nat) (ws : List Word) : List Word :=
  let p := l ++ List.replicate (i + ws.length - l.length) 0
  p.take i ++ ws ++ p.drop (i + ws.length)

/-- WRITE_CFG: the words wait for COMMIT_CFG (R154). -/
def execWriteCfg (st : Fin 256) (index : Nat) (words : List Word) (s : State) :
    Host.Outcome State Fault Refusal :=
  s.service st (fun x =>
    let m := index / 256 % 16
    let i := index % 256
    if 30 < words.length ∨ 4096 ≤ index then x.reply 2 2 index
    else
      let old := (x.stage.find? (fun c => c.mode = m)).map (·.words) |>.getD []
      { x with stage := { addr := x.addr, mode := m, words := overlay old i words } ::
                          x.stage.filter (fun c => c.mode ≠ m) }.reply 2 0 index)

/-- COMMIT_CFG (R158). -/
def execCommitCfg (st : Fin 256) (mode : Nat) (crc : Word) (s : State) :
    Host.Outcome State Fault Refusal :=
  s.service st (fun x =>
    if 16 ≤ mode then x.reply 3 2 mode
    else
      match x.stage.find? (fun c => c.mode = mode) with
      | none => x.reply 3 3 mode
      | some c =>
        if crc32 (wordsBytes c.words) ≠ crc then x.reply 3 4 mode
        else if ! x.cfgConsistent c mode then x.reply 3 3 mode
        else if ! x.cfgFits c mode then x.reply 3 5 mode
        else { x with cfgs := c :: x.cfgs.filter (fun y => y.mode ≠ mode),
                      stage := x.stage.filter (fun y => y.mode ≠ mode) }.reply 3 0 mode)

/-- READ_CFG: the words of the committed configuration (R154). -/
def execReadCfg (st : Fin 256) (index count : Nat) (s : State) : Host.Outcome State Fault Refusal :=
  s.service st (fun x =>
    match x.cfg? (index / 256 % 16) with
    | some c =>
      if 30 < count ∨ 4096 ≤ index ∨ c.words.length < index % 256 + count then x.reply 4 2 index
      else x.reply 4 0 index ((c.words.drop (index % 256)).take count)
    | none => x.reply 4 2 index)

/-- READ_DIAG: maker-defined words (R154). -/
def execReadDiag (st : Fin 256) (index count : Nat) (s : State) : Host.Outcome State Fault Refusal :=
  s.service st (fun x =>
    if 30 < count then x.reply 5 2 index
    else { x with diag := x.diag + 1 }.reply 5 0 index
      ((List.range count).map (fun i => Config.diagWord x.addr (index + i) x.diag)))

/-- DROP_CFG (R154). -/
def execDropCfg (st : Fin 256) (mode : Nat) (s : State) : Host.Outcome State Fault Refusal :=
  s.service st (fun x =>
    if 16 ≤ mode then x.reply 6 2 mode
    else { x with cfgs := x.cfgs.filter (fun c => c.mode ≠ mode) }.reply 6 0 mode)

/-! ## Power and configuration loss (R629) -/

/-- STATION_POWER_UP: a station starts in FORWARD with its identity; whether it kept its committed
configurations is its maker's (R131, R629). -/
def execStationPowerUp (st : Fin 256) (kept : Bool) (ident : List Word) (s : State) :
    Host.Outcome State Fault Refusal :=
  let old := (s.stn? st).getD {}
  let x : StationSt := { addr := st, ident := ident, cfgs := if kept then old.cfgs else [] }
  let x := { x with
    axes := List.replicate x.nax {},
    dos := List.replicate (x.idf 5 31 16) false,
    aos := List.replicate (x.idf 6 31 16) 0,
    prCarry := List.replicate (x.idf 3 23 16) 0,
    prOut := List.replicate (x.idf 3 23 16) 0,
    conns := (List.range (x.idf 9 15 0)).map (fun i => { idx := i }) }
  .next { s with stations := Sparse.insert s.stations st x }

/-- CONFIGURATION_LOST: an integrated station that loses a configuration sends alarm 0x0A (R189,
R629). -/
def execConfigurationLost (st : Fin 256) (mode : Fin 16) (s : State) :
    Host.Outcome State Fault Refusal :=
  s.onStation st (fun x =>
    if (x.cfg? mode).isSome then
      { x with cfgs := x.cfgs.filter (fun c => c.mode ≠ mode.val),
               alarms := if x.state = .integrated then x.alarms ++ [(0x0A, mode.val, 0)] else x.alarms }
    else x)

/-! ## Links and delays as the nodes know them (R53 to R57) -/

/-- The held measurement of a link. -/
def Dev.link? (d : Dev) (l k : Nat) : Option LinkDelay :=
  d.time.links.find? (fun x => x.line = l && x.link = k)

/-- The delay of a link in ps, away from or toward unit A, 0 while none is held (R55). -/
def Dev.linkPs (d : Dev) (l k : Nat) (away : Bool) : Int :=
  match (d.link? l k).bind (·.rtt) with
  | some rtt =>
    let a := d.sfld (R.TIM_LINK.asym_ps l k)
    if away then ((rtt : Int) + a) / 2 else ((rtt : Int) - a) / 2
  | none => 0

/-- The delay of the link on which a frame reaches a station from one side, in the direction of
travel: side 0 is the side of unit A. -/
def Dev.arrivalPs (d : Dev) (st side : Nat) : Int :=
  let l := d.fld (R.ST_CFG.line st)
  let p := d.fld (R.ST_CFG.pos st)
  if side = 0 then d.linkPs l (p - 1) true else d.linkPs l p false

/-- The link on one side of a station has a held delay. -/
def Dev.linkHeld (d : Dev) (st side : Nat) : Bool :=
  let p := d.fld (R.ST_CFG.pos st)
  ((d.link? (d.fld (R.ST_CFG.line st)) (if side = 0 then p - 1 else p)).bind (·.rtt)).isSome

/-! ## The CYC and CST frames at a station -/

/-- corr as a station sends it on: link delay and residence added at full resolution, rounded once,
stopping at 0xFF_FFFF (R80). -/
def corrOut (corr : Nat) (dPs : Int) (rPs : Nat) : Nat :=
  let add := ((dPs + rPs) * 256 * 2 + 1000) / 2000
  min 0xFFFFFF ((corr : Int) + add).toNat

/-- The deviation of a station's local time at a frame's ingress from tx_time + corr + d, in ns
(R123). -/
def thetaOf (h : FrameHdr) (ingressNs : Nat) (dPs : Int) : Int :=
  let frac := ((h.corr : Int) * 1000 / 256 + dPs + 500) / 1000
  (BitVec.ofNat 32 ingressNs - h.txTime - BitVec.ofInt 32 frac).toInt

/-- The neighbour on a port of a station can take a frame: link, and not dead (R71, R92, R93). -/
def StationSt.portLive (s : StationSt) (side : Nat) : Bool :=
  let p := s.ports.getD side {}
  p.link && p.live

/-- A timestamp of a head's domain reaches the station (R48, R51, R52, R123). DESIGN CHOICE, log entry 39. -/
def StationSt.discipline (s : StationSt) (h : FrameHdr) (th : Int) : StationSt :=
  let s := { s with silent := if h.fore ∧ ¬ h.lead then s.silent else 0 }
  if h.fore ∧ ¬ h.lead then s
  else if h.origin = s.domain ∨ h.lead then
    { s with domain := h.origin, domSeen := true, localOfs := th }
  else { s with otherSeen := true, otherOfs := Config.openValue 48 [s.otherOfs, th] }

/-- The RT block's action IDs (R166). -/
def retrIds (ws : List Word) : List Nat :=
  (ws.flatMap (fun w => [bits w 14 0, bits w 30 16])).filter (· ≠ 0)

/-- A retraction acts on receipt (R183, R184). -/
def StationSt.retract (s : StationSt) (id : Nat) : StationSt :=
  let fired := s.fired.any (fun p => p.1 = id)
  { s with
    tos := s.tos.filter (fun e => e.id ≠ id),
    blocked := (id, s.tick) :: s.blocked.filter (fun p => p.1 ≠ id),
    retrNow := if s.retrNow.any (fun p => p.1 = id) then s.retrNow else s.retrNow ++ [(id, fired)] }

/-- The apply deadline after T(n), where the station holds an apply offset (R85). -/
def StationSt.deadline? (s : StationSt) : Option Nat := s.applyOfs.map (fun a => a - s.tPrep)

/-- A command segment for the station as its configuration has it (R84). -/
def StationSt.segMatches (s : StationSt) (c : StCfg) (g : Seg) (kind words : Nat) : Bool :=
  bits g.hdr 7 0 == s.addr && bits g.hdr 8 8 == kind && bits g.hdr 31 24 == c.f 0 2 0 &&
  bits g.hdr 23 16 == words

/-- The station takes its command segment from a frame: a candidate, or a discarded copy (R84, R89,
R159, R183). -/
def StationSt.takeCmd (s : StationSt) (f : CycFrame) (atNs : Nat) : StationSt :=
  match s.cfg? s.sched, s.deadline? with
  | some c, some dl =>
    match f.cmds.find? (fun g => s.segMatches c g 0 (c.f 0 31 24)) with
    | some g =>
      if s.state ≠ .integrated ∨ g.crc ≠ .correct then s
      else if f.hdr.tick ≠ word s.tick ∨ dl ≤ atNs then
        { s with discards := (s.discards + 1) % 4096 }
      else
        let s := { s with cands := s.cands ++
          [{ origin := f.hdr.origin, act := f.hdr.act, epoch := f.hdr.epoch, words := g.words }] }
        (retrIds (s.blkOf c g.words 5)).foldl StationSt.retract s
    | none => s
  | _, _ => s

/-- The head segment tells the station the apply offset, the schedule and a re-integration order (R77,
R85, R128, R140, R143, R144). -/
def StationSt.readHead (s : StationSt) (f : CycFrame) : StationSt :=
  if ! f.head.crcOk then s
  else
    let s := if s.applySet ∨ f.hdr.tick ≠ word s.tick then s
      else { s with applyOfs := some f.head.applyOfs, applySet := true }
    { s with
      sched := f.head.sched,
      annTgt := if f.head.cancel then none else if f.head.ann then some f.head.tgt else none,
      reint := s.reint || (f.head.reint == s.addr && s.state == .integrated),
      good := if f.head.reint = s.addr ∧ ¬ s.reint then 0 else s.good }

/-- Codes of the faults latched at a station (R189). -/
def StationSt.faultCodes (s : StationSt) : List Nat :=
  (if s.conns.any (·.tripped) then [1] else []) ++
  (if s.axes.any (fun a => a.faults.contains .oc) then [2] else []) ++
  (if s.axes.any (fun a => a.faults.contains .ov) then [3] else []) ++
  (if s.axes.any (fun a => a.faults.contains .ot) then [4] else []) ++
  (if s.wdTrip then [5] else []) ++
  (if s.axes.any (fun a => a.faults.contains .enc) then [6] else []) ++
  (if s.axes.any (fun a => a.faults.contains .uv) then [7] else []) ++
  (if s.toLate || s.toFull then [8] else []) ++
  (if s.aiFlt || s.doFlt then [9] else [])

/-- The common feedback word (R161). -/
def StationSt.common (s : StationSt) : Word :=
  let ack := match s.annTgt with
    | some t => if (s.cfg? t).isSome then some t else none
    | none => none
  let sel := s.tick % 4
  let diag := match sel with
    | 0 => nth s.resid 0
    | 1 => nth s.resid 1
    | 2 => s.faultCodes.head?.getD 0
    | _ => s.discards
  word ((ack.getD 0) * 2 ^ 28 + b2n ack.isSome * 2 ^ 27 +
    b2n (s.state == .integrated && ! s.reint) * 2 ^ 26 + sel * 2 ^ 24 + diag % 4096 * 2 ^ 12 +
    unsigned 12 (satI 12 s.localOfs))

/-- The STAT word (R167). -/
def StationSt.stat (s : StationSt) : Word :=
  word (s.scanUs % 65536 * 2 ^ 16 + min 255 s.tos.length * 2 ^ 8 + b2n s.toBad * 2 ^ 6 +
    b2n s.doFlt * 2 ^ 5 + b2n s.aiFlt * 2 ^ 4 + b2n s.prOvf * 2 ^ 3 + b2n s.toFull * 2 ^ 2 +
    b2n s.toLate * 2 + b2n s.wdTrip)

/-- The RA block: the IDs retracted in the tick before in ascending order, filled with 0 (R184). -/
def raBlock (l : List (Nat × Bool)) (words : Nat) : List Word :=
  let ids := (sortNat (l.map (·.1))).take (2 * words)
  let code := fun i => match ids[i]? with
    | some id => id + 32768 * b2n (l.any (fun p => p.1 = id && p.2))
    | none => 0
  (List.range words).map (fun w => word (code (2 * w + 1) * 65536 + code (2 * w)))

/-- A list of words cut or filled with 0 to a length. -/
def fitWords (l : List Word) (n : Nat) : List Word := (l ++ List.replicate (n - l.length) 0).take n

/-- The feedback payload of the present tick (R157, R161 to R167). -/
def StationSt.fbPayload (s : StationSt) (c : StCfg) : List Word :=
  s.common :: (s.axes.flatMap (·.fb) ++
    (c.blocks.filter (fun b => 8 ≤ b.1)).flatMap (fun b =>
      match b.1 with
      | 8 => fitWords [s.sampTs] b.2.1
      | 9 => fitWords s.di b.2.1
      | 10 => fitWords s.ai b.2.1
      | 11 => fitWords [s.stat] b.2.1
      | 12 => raBlock s.retrPrev b.2.1
      | _ => fitWords s.safe b.2.1))

/-- The feedback segment header (R76, R89). -/
def StationSt.fbHdr (s : StationSt) (hdr : Word) (fold : Bool) : Word :=
  (hdr &&& ~~~ 0x1E00#32) ||| word (b2n s.cmdMiss * 2 ^ 12 + s.src % 2 * 2 ^ 11 + b2n fold * 2 ^ 10 + 2 ^ 9)

/-- The station fills its own placeholder (R83, R93). -/
def StationSt.fill (s : StationSt) (fold : Bool) (fbs : List Seg) : List Seg :=
  match s.cfg? s.sched with
  | some c =>
    if s.state ≠ .integrated then fbs
    else fbs.map (fun g =>
      if s.segMatches c g 1 (c.f 0 23 16) ∧ bits g.hdr 9 9 = 0 then
        { hdr := s.fbHdr g.hdr fold, words := s.fbPayload c, crc := .correct }
      else g)
  | none => fbs

/-- A frame CRC as a station sends it on (R74). -/
def crcOnward (c : CrcOutcome) : CrcOutcome := if c = .correct then .correct else .complement

/-- A CYC frame passes or is folded (R71, R79, R80, R93, R114). -/
def StationSt.passCyc (s : StationSt) (side : Nat) (f : CycFrame) (dPs : Int) (residence : Nat) :
    StationSt :=
  let fwd := 1 - side
  let hdr := { f.hdr with corr := corrOut f.hdr.corr dPs residence }
  let fold := ! f.hdr.fold && s.state != .forward && ! s.portLive fwd
  let fbs := if f.hdr.fold then f.fbs else s.fill fold f.fbs
  let f' : CycFrame := { f with hdr := { hdr with fold := f.hdr.fold || fold }, fbs := fbs,
                                crc := crcOnward f.crc }
  let filled := decide (fbs ≠ f.fbs)
  let s := { s with fbSent := s.fbSent || filled,
                    residNow := setNth s.residNow f.hdr.origin (min 4095 (residence * 4 / 1000)) }
  if fold then { s with out := s.out ++ [.forward side f'] }
  else if (s.ports.getD fwd {}).link then { s with out := s.out ++ [.forward fwd f'] }
  else s

/-- STATION_CYC_RX: a CYC frame reaches a station on one side; ingressNs is its local time there,
atNs the arrival of its command segment after T(n), residence the time it stays in ps (R80, R81,
R84, R85, R93, R123, R129, R183). A sync step in forerunner time mode is counted at the head
(R52). DEDUCED, log entry 69. -/
def execStationCycRx (st : Fin 256) (side : Fin 2) (f : CycFrame) (ingressNs atNs residence : Nat)
    (s : State) : Host.Outcome State Fault Refusal :=
  let dPs := s.dev.arrivalPs st side
  let th := thetaOf f.hdr ingressNs dPs
  let usable := f.crc == .correct && ! f.hdr.fold && decide (f.hdr.corr < 0xFFFFFF)
  let x := (s.stn? st).getD {}
  let lim : Int := s.dev.fld R.TIM_SLEW.slew_lim_ns
  let reacquire := usable && x.freeRun && f.hdr.lead && x.state != .forward
  let step := reacquire && decide (lim < th.natAbs)
  let dev := if step ∧ (s.stn? st).isSome then
      (s.dev.bump (R.ST_CNT_SYNC.step st)).setB (R.ST_EVT.step st) true
    else s.dev
  State.onStation { s with dev := dev } st (fun x =>
    let x := if usable ∧ x.state ≠ .forward then x.discipline f.hdr th else x
    let x := if reacquire then { x with freeRun := false, localOfs := if step then 0 else th } else x
    let x := if x.state = .integrated ∧ 2000 < x.localOfs.natAbs then { x with state := .coarse, good := 0 }
      else x
    let x := if f.hdr.fold ∨ x.state = .forward then x else (x.readHead f).takeCmd f atNs
    x.passCyc side f dPs residence)

/-- STATION_CST_RX: a station in FORWARD takes its time from a CST frame and enters COARSE; one that
follows unit B changes to unit A; the frame goes on (R71, R120, R121). -/
def execStationCstRx (st : Fin 256) (side : Fin 2) (f : CstFrame) (ingressNs : Nat) (s : State) :
    Host.Outcome State Fault Refusal :=
  let dPs := s.dev.arrivalPs st side
  s.onStation st (fun x =>
    let take := f.crc = .correct ∧ (x.state = .forward ∨ (x.state = .coarse ∧ f.hdr.origin = 0 ∧ ¬ x.coldA))
    let x := if take then
        { x with state := .coarse, tick := f.hdr.tick.toNat, tickNs := f.tickNs, sched := f.initSched,
                 domain := f.hdr.origin, domSeen := true, coldA := f.hdr.origin = 0, localOfs := 0,
                 good := 0, silent := 0,
                 applyOfs := if x.state = .forward then none else x.applyOfs }
      else if f.crc = .correct ∧ x.state ≠ .forward ∧ f.hdr.origin = x.domain then
        { x with domSeen := true, silent := 0, localOfs := thetaOf f.hdr ingressNs dPs }
      else x
    let fwd := 1 - side.val
    if x.portLive fwd ∨ (x.state = .forward ∧ (x.ports.getD fwd {}).link) then
      { x with out := x.out ++ [.forwardCst fwd { f with
          hdr := { f.hdr with corr := corrOut f.hdr.corr dPs (x.idf 2 15 8 * 1000) },
          crc := crcOnward f.crc }] }
    else x)

/-! ## The apply deadline (R87, R170, R172, R180, R446) -/

/-- One candidate wins over another (R87). -/
def Cand.wins (a b : Cand) : Bool :=
  if a.act ≠ b.act then a.act
  else if epochHigher a.epoch b.epoch then true
  else if epochHigher b.epoch a.epoch then false
  else a.origin < b.origin

/-- The candidate selected (R87). -/
def selectCand (l : List Cand) : Option Cand :=
  l.foldl (fun best c =>
    match best with
    | none => some c
    | some b => if c.wins b then some c else some b) none

/-- The TO entries of a payload: two words each (R166). -/
def toEntries : List Word → List (Word × Word)
  | a :: b :: t => (a, b) :: toEntries t
  | _ => []

/-- A TO entry of the selected segment is stored or discarded (R180). -/
def StationSt.storeTo (s : StationSt) (c : StCfg) (e : Word × Word) : StationSt :=
  let id := bits e.1 30 16
  let act := bits e.1 7 4
  let output := bits e.1 15 8
  let dl := s.tick * s.tickNs + s.deadline?.getD 0
  let fire := extendTime dl e.2
  if id = 0 ∨ act < 1 ∨ 3 < act then s
  else if s.blocked.any (fun p => p.1 = id) ∨ s.fired.any (fun p => p.1 = id) then s
  else if fire ≤ dl then { s with toLate := true, alarms := s.alarms ++ [(8, 1, id)] }
  else if ! c.toPoint output then { s with toBad := true }
  else
    let rest := s.tos.filter (fun x => x.id ≠ id)
    if s.toCap ≤ rest.length then { s with toFull := true, alarms := s.alarms ++ [(8, 2, id)] }
    else
      let n : ToEntry := { id := id, output := output, act := act, fire := fire }
      if rest.length < s.tos.length then { s with tos := s.tos.map (fun x => if x.id = id then n else x) }
      else { s with tos := s.tos ++ [n] }

/-- One safety connection at the apply deadline: permissions of the tick, and the safety watchdog
(R172, R446). -/
def StConn.deadline (k : StConn) (wd : Nat) : StConn :=
  if k.valid then
    let run := min 8 (k.okRun + 1)
    let free := ! k.tripped || decide (8 ≤ run)
    let g := if free then (k.permit ||| k.grant) &&& ~~~ k.withhold else 0
    { k with cnt := 0, okRun := run, tripped := ! free, permit := g, valid := false, grant := 0,
             withhold := 0 }
  else
    let n := min 255 (k.cnt + 1)
    { k with cnt := n, okRun := 0,
             tripped := k.tripped || decide (wd ≤ n),
             permit := if wd ≤ n then 0 else k.permit }

/-- The safety connections at the apply deadline, with the alarms of new trips. -/
def StationSt.safetyDeadline (s : StationSt) (wd : Nat) : StationSt :=
  if wd = 0 then s
  else
    let ks := s.conns.map (fun k => k.deadline wd)
    let new := (s.conns.zip ks).filter (fun p => ! p.1.tripped && p.2.tripped)
    { s with conns := ks, alarms := s.alarms ++ new.map (fun p => (1, p.2.idx, p.2.cnt)) }

/-- A cell whose safety connection withholds torque (R172, R446). -/
def StationSt.stoOn (s : StationSt) (c : StCfg) : Bool :=
  c.has 6 && (s.ptype == 1 || s.ptype == 2) && s.conns.any (fun k => ! k.permit.getLsbD 0)

/-- The bridges open where STO holds. -/
def StationSt.applySto (s : StationSt) (c : StCfg) : StationSt :=
  if s.stoOn c then { s with axes := s.axes.map (fun a => { a with bridgeOn := false }) } else s

/-- STATION_APPLY_DEADLINE: a station that holds an apply offset selects a candidate, evaluates both
watchdogs and stores the TO entries of the selected segment (R85, R87, R89, R170, R172, R180). -/
def execStationApplyDeadline (st : Fin 256) (s : State) : Host.Outcome State Fault Refusal :=
  s.onStation st (fun x =>
    if x.state = .forward ∨ x.applyOfs.isNone then x
    else
      let c := (x.cfg? x.sched).getD {}
      let sel := selectCand x.cands
      let x := { x with applied := sel, cands := [], cmdMiss := sel.isNone,
                        discards := (x.discards + (x.cands.length - 1)) % 4096,
                        wd := if sel.isSome then 0 else x.wd + 1 }
      let x := (x.safetyDeadline (c.f 1 23 16)).applySto c
      match sel with
      | some k =>
        (toEntries (x.blkOf c k.words 4)).foldl (fun y e => y.storeTo c e) { x with src := k.origin }
      | none => x)

/-! ## The apply instant (R160, R162, R164, R166, R170 to R179, R187) -/

/-- A switching time confined to half a period; the clamp is reported (R174). -/
def clampTime (half t : Nat) : Nat × Bool := if half < t then (half, true) else (t, false)

/-- A trip is latched: over-current, over-voltage, over-temperature or the command watchdog (R171). -/
def StAxis.tripped (a : StAxis) : Bool := a.faults.any (fun f => f = .oc ∨ f = .ov ∨ f = .ot ∨ f = .wd)

/-- A servo axis applies its four words (R162, R171, R174). -/
def StAxis.applyServo (a : StAxis) (ws : List Word) (clr : Bool) (half : Nat) (sto : Bool) : StAxis :=
  let w := nthW ws 0
  let pwm := bit w 0
  let clr := clr || bit w 2
  let clear := clr && (! a.hold || ! pwm)
  let a := if clear then { a with faults := a.faults.filter (fun f => a.cause.contains f) } else a
  let a := if clear ∧ ! a.tripped then { a with hold := false } else a
  let ts := [1, 2, 3].flatMap (fun i => [bits (nthW ws i) 31 16, bits (nthW ws i) 15 0])
  { a with bridgeOn := pwm && ! a.hold && ! sto, brake := bit w 1 && ! a.hold,
           times := ts.map (fun t => (clampTime half t).1),
           clamp := ts.any (fun t => (clampTime half t).2) }

/-- A stepper axis applies its three words (R164, R171, R178, R179). -/
def StAxis.applyStep (a : StAxis) (ws : List Word) (clr : Bool) (sto : Bool) : StAxis :=
  let w := nthW ws 0
  let en := bit w 0
  let clr := clr || bit w 1
  let clear := clr && (! a.hold || ! en)
  let a := if clear then { a with faults := a.faults.filter (fun f => a.cause.contains f) } else a
  let a := if clear ∧ ! a.tripped then { a with hold := false } else a
  { a with bridgeOn := en && ! a.hold && ! sto, chop := w &&& 0xFFFFFF00#32,
           pointA := nthW ws 1, pointB := nthW ws 2 }

/-- The axes apply the words of a payload. -/
def StationSt.applyAxes (s : StationSt) (c : StCfg) (payload : List Word) (clr : Bool) : StationSt :=
  let per := if s.ptype = 1 then 4 else 3
  let half := s.tickNs / (if c.f 1 0 0 = 1 then 4 else 2)
  let sto := s.stoOn c
  { s with axes := s.axes.mapIdx (fun k a =>
      let ws := (payload.drop (1 + per * k)).take per
      if s.ptype = 1 then a.applyServo ws clr half sto else a.applyStep ws clr sto) }

/-- Cyclic digital outputs: a timed-output point ignores its bit (R166, R182). -/
def StationSt.applyDo (s : StationSt) (c : StCfg) (ws : List Word) : StationSt :=
  let first := c.blkFirst 1
  { s with dos := s.dos.mapIdx (fun p v =>
      if first ≤ p ∧ (p - first) / 32 < ws.length ∧ ¬ c.toPoint p then
        bit (nthW ws ((p - first) / 32)) ((p - first) % 32)
      else v) }

/-- Analogue outputs (R166). -/
def StationSt.applyAo (s : StationSt) (c : StCfg) (ws : List Word) : StationSt :=
  let first := c.blkFirst 2
  { s with aos := s.aos.mapIdx (fun p v =>
      if first ≤ p ∧ (p - first) / 2 < ws.length then
        (nthW ws ((p - first) / 2)).extractLsb' (16 * ((p - first) % 2)) 16
      else v) }

/-- Pulse-rate outputs emit their counts, at most pr_max_khz over the tick; the rest is carried into
the next tick (R187). -/
def StationSt.applyPr (s : StationSt) (c : StCfg) (ws : List Word) : StationSt :=
  let first := c.blkFirst 3
  let lim : Int := s.idf 8 31 16 * s.tickNs / 1000000
  let want := s.prCarry.mapIdx (fun i carry =>
    if first ≤ i ∧ (i - first) / 2 < ws.length then
      carry + ((nthW ws ((i - first) / 2)).extractLsb' (16 * ((i - first) % 2)) 16).toInt
    else carry)
  let sent := want.map (clampI (-lim) lim)
  { s with prOut := sent, prCarry := want.mapIdx (fun i v => v - sent.getD i 0),
           prOvf := s.prOvf || want.any (fun v => lim < v.natAbs) }

/-- The command watchdog's trip at the apply instant (R170). -/
def StationSt.wdAct (s : StationSt) (c : StCfg) : StationSt :=
  let ndo := c.blkWords 1
  let fbDo := (List.range ndo).map c.fallback
  let fbAo := (List.range (c.blkWords 2)).map (fun i => c.fallback (ndo + i))
  let x := (s.applyDo c fbDo).applyAo c fbAo
  { x with
    axes := x.axes.map (fun a => { a with bridgeOn := false, brake := false, hold := true,
                                          faults := if a.faults.contains .wd then a.faults else a.faults ++ [.wd] }),
    prOut := x.prOut.map (fun _ => 0), prCarry := x.prCarry.map (fun _ => 0), tos := [],
    wdTrip := true,
    alarms := if x.wdTrip then x.alarms else x.alarms ++ [(5, c.f 1 11 8, x.lastTick)] }

/-- A selected command is applied (R160, R166, R171). -/
def StationSt.applyCmd (s : StationSt) (c : StCfg) (k : Cand) : StationSt :=
  let w := nthW k.words 0
  let clr := bit w 0
  let s := { s with locate := bit w 2, tos := if bit w 1 then [] else s.tos, lastTick := s.tick }
  let s := if clr then { s with wdTrip := false, toLate := false, toBad := false, toFull := false,
                                prOvf := false }
    else s
  let s := if s.ptype = 1 ∨ s.ptype = 2 then s.applyAxes c k.words clr else s
  let s := { s with wdTrip := s.wdTrip && (s.axes.isEmpty || s.axes.any (fun a => a.faults.contains .wd)) }
  ((s.applyDo c (s.blkOf c k.words 1)).applyAo c (s.blkOf c k.words 2)).applyPr c (s.blkOf c k.words 3)

/-- STATION_APPLY (R169, R170, R175, R179). -/
def execStationApply (st : Fin 256) (s : State) : Host.Outcome State Fault Refusal :=
  s.onStation st (fun x =>
    if x.state = .forward ∨ x.applyOfs.isNone then x
    else
      let c := (x.cfg? x.sched).getD {}
      match x.applied with
      | some k => x.applyCmd c k
      | none =>
        let lim := c.f 1 11 8
        if lim ≠ 0 ∧ lim ≤ x.wd then x.wdAct c
        else { x with axes := x.axes.map (fun a => { a with pointA := a.pointB }),
                      prOut := x.prOut.map (fun _ => 0) })

/-! ## Timed outputs, alarms, safety PDUs -/

/-- TIMED_OUTPUT_FIRE (R166, R181). -/
def execTimedOutputFire (st : Fin 256) (id : Fin 32768) (s : State) :
    Host.Outcome State Fault Refusal :=
  s.onStation st (fun x =>
    match x.tos.find? (fun e => e.id = id.val) with
    | some e =>
      { x with
        tos := x.tos.filter (fun y => y.id ≠ id.val),
        fired := (e.id, x.tick) :: x.fired,
        dos := x.dos.modify e.output (fun v => if e.act = 1 then false else if e.act = 2 then true else ! v),
        out := x.out ++ [.fire e.output e.act e.id] }
    | none => x)

/-- STATION_ALARM_SLOT: in its slot an integrated station that is under no re-integration order sends
its oldest alarm (R98, R120, R128, R189). -/
def execStationAlarmSlot (st : Fin 256) (s : State) : Host.Outcome State Fault Refusal :=
  s.onStation st (fun x =>
    match x.alarms with
    | a :: t =>
      if x.state = .integrated ∧ ¬ x.reint then
        { x with alarms := t,
                 out := x.out ++ [.alarm { addr := x.addr, code := a.1, detail := a.2.1, detail2 := word a.2.2 }] }
      else x
    | [] => x)

/-- The connections of the parameter set that a station terminates, in ascending index (R156,
R168). -/
def Dev.connsOf (d : Dev) (st : Nat) : List Nat :=
  (List.range 64).filter (fun c => d.flag (R.SF_CONN_CFG.en c) && d.fld (R.SF_CONN_CFG.stn c) == st)

/-- A PDU is valid for a receiver (R445): check value, connection, identity, direction, time
expectation and consecutive number. -/
def Dev.pduValid (d : Dev) (c : Nat) (p : List Word) (dir wd seq : Nat) : Bool :=
  crc32c (d.rd (R.SF_CONN_SEED.adr c)) (wordsBytes (p.take 3)) == nthW p 3 &&
  bits (nthW p 0) 5 0 == c && bits (nthW p 1) 31 8 == d.fld (R.SF_CONN_ID.cid c) &&
  bits (nthW p 0) 7 7 == dir && bits (nthW p 0) 15 8 == wd && bits (nthW p 0) 31 16 == seq % 65536

/-- STATION_PDU_EVAL: a valid PDU in a candidate of the tick withholds at once and is counted for the
grant at the apply deadline (R445, R446). -/
def execStationPduEval (st : Fin 256) (unit : Fin 2) (conn : Fin 4) (pdu : List Word) (s : State) :
    Host.Outcome State Fault Refusal :=
  match (s.dev.connsOf st)[conn.val]? with
  | none => .next s
  | some n =>
    let drive := s.dev.fld (R.SF_CONN_CFG.kind n) = 2
    s.onStation st (fun x =>
      match x.cfg? x.sched with
      | none => x
      | some c =>
        let inCand := x.cands.any (fun k => k.origin = unit.val &&
          ((x.blkOf c k.words 6).drop (4 * conn.val)).take 4 == pdu)
        if inCand ∧ s.dev.pduValid n pdu 0 (c.f 1 23 16) x.tick then
          let want : BitVec 16 := if drive then BitVec.ofNat 16 (bits (nthW pdu 2) 0 0)
            else BitVec.ofNat 16 (bits (nthW pdu 2) 15 0)
          { x with conns := x.conns.map (fun (k : StConn) =>
              if k.idx = conn.val then
                { k with valid := true, grant := k.grant ||| want, withhold := k.withhold ||| ~~~ want,
                         permit := k.permit &&& want }
              else k) }.applySto c
        else x)

/-! ## The tick instant at a station (R13, R49, R51, R120, R128, R169, R177) -/

/-- One quadrature pair after another: the count, the illegal transitions (R177). The Gray direction
0, 1, 3, 2 counts up. -/
def quadStep (prev cur : Nat) : Int × Bool :=
  let pos := fun v => match v with | 0 => 0 | 1 => 1 | 3 => 2 | _ => 3
  let df := (pos (cur % 4) + 4 - pos (prev % 4)) % 4
  if df = 1 then (1, false) else if df = 3 then (-1, false) else if df = 2 then (0, true) else (0, false)

/-- The pairs seen since the last sample. -/
def StAxis.quads (a : StAxis) (l : List Nat) : StAxis :=
  l.foldl (fun a q =>
    let r := quadStep a.quad q
    { a with quad := q % 4, count := wordI (a.count.toInt + r.1),
             ill := (a.ill + b2n r.2) % 256, illegal := a.illegal || r.2 }) { a with illegal := false }

/-- The causes of faults present in a sample (R171). -/
def AxSample.causes (p : AxSample) : List StFault :=
  (if p.oc then [.oc] else []) ++ (if p.ov then [.ov] else []) ++ (if p.ot then [.ot] else []) ++
  (if p.uv then [.uv] else []) ++ (if p.encFlt then [.enc] else []) ++
  (if p.openA then [.openA] else []) ++ (if p.openB then [.openB] else [])

/-- The faults latch; an over-current, over-voltage or over-temperature trip opens the bridge and
applies the brake until it is cleared (R171). -/
def StAxis.latch (a : StAxis) (cause : List StFault) : StAxis :=
  let fs := cause.foldl (fun l f => if l.contains f then l else l ++ [f]) a.faults
  let trip := cause.any (fun f => f = .oc ∨ f = .ov ∨ f = .ot)
  { a with faults := fs, cause := cause, hold := a.hold || trip,
           bridgeOn := a.bridgeOn && ! trip, brake := a.brake && ! trip }

/-- The feedback words of a servo axis (R163). -/
def StAxis.servoFb (a : StAxis) (p : AxSample) (sto : Bool) : List Word :=
  let has := fun f => b2n (a.faults.contains f)
  [word (p.iv.toNat * 65536 + p.iu.toNat), word (p.udc.toNat * 65536 + p.iw.toNat), a.count,
   word (a.ill * 2 ^ 16 + b2n a.clamp * 2 ^ 13 + b2n (p.sto || sto) * 2 ^ 12 + p.hall % 8 * 2 ^ 9 +
     has .enc * 2 ^ 8 + b2n a.illegal * 2 ^ 7 + has .wd * 2 ^ 6 + has .ot * 2 ^ 5 + has .uv * 2 ^ 4 +
     has .ov * 2 ^ 3 + has .oc * 2 ^ 2 + b2n a.brake * 2 + b2n a.bridgeOn),
   word (p.temp.toNat * 65536 + p.ext.toNat)]

/-- The feedback words of a stepper axis (R165). -/
def StAxis.stepFb (a : StAxis) (p : AxSample) : List Word :=
  let has := fun f => b2n (a.faults.contains f)
  [a.count, word (p.iv.toNat * 65536 + p.iu.toNat),
   word (p.udc.toNat * 65536 + b2n a.illegal * 2 ^ 7 + b2n p.openB * 2 ^ 6 + b2n p.openA * 2 ^ 5 +
     has .wd * 2 ^ 4 + has .ot * 2 ^ 3 + has .ov * 2 ^ 2 + has .oc * 2 + b2n a.bridgeOn)]

/-- The alarm codes of cell faults (R189). -/
def StFault.alarm : StFault → Nat
  | .oc => 2 | .ov => 3 | .ot => 4 | .enc => 6 | .uv => 7 | .wd => 5 | .openA => 9 | .openB => 9

/-- The second detail word of a cell fault's alarm (R189). -/
def StFault.detail2 (f : StFault) (a : StAxis) (p : AxSample) : Nat :=
  match f with
  | .oc => max p.iu.toInt.natAbs (max p.iv.toInt.natAbs p.iw.toInt.natAbs)
  | .ov | .uv => p.udc.toNat
  | .ot => p.temp.toNat
  | .enc => a.ill
  | _ => 0

/-- The station samples at T(n) (R163, R165, R167, R169, R188). -/
def StationSt.sample (s : StationSt) (p : StSample) : StationSt :=
  let c := (s.cfg? s.sched).getD {}
  let sto := s.stoOn c
  let new := (s.axes.mapIdx (fun k a =>
    let q := (p.axes.getD k {})
    let a' := (a.quads q.quad).latch q.causes
    ((a'.faults.filter (fun f => ! a.faults.contains f)).map (fun f => (f.alarm, k, f.detail2 a' q))))).flatten
  { s with
    axes := s.axes.mapIdx (fun k a =>
      let q := (p.axes.getD k {})
      let a := (a.quads q.quad).latch q.causes
      { a with fb := if s.ptype = 1 then a.servoFb q sto else a.stepFb q, clamp := false }),
    alarms := s.alarms ++ new,
    di := p.di, ai := p.ai, aiFlt := p.aiFlt, doFlt := p.doFlt, scanUs := p.scanUs, safe := p.safe,
    sampTs := if c.f 1 1 1 = 1 then p.scanTs else word (s.tick * s.tickNs) }

/-- Neighbour judgement of one port at a tick: dead without link or without a beacon in the previous
tick, live again after 8 ticks with both (R92). -/
def PortSt.judge (p : PortSt) : PortSt :=
  let ok := p.link && p.bcnSeen
  let good := if ok then min 8 (p.good + 1) else 0
  { p with bcnSeen := false, dreqAt := none, good := if p.live then 0 else good,
           live := if p.live then ok else decide (8 ≤ good) }

/-- The tick instant at one station: the judgements of the tick before, the next tick number, the
samples (R49, R51, R92, R120, R128, R133, R169). `linksOk`: its linked ports have a held delay. -/
def StationSt.tickInstant (s : StationSt) (fore linksOk : Bool) (p : Option StSample) : StationSt :=
  if s.state = .forward then { s with out := [], ports := s.ports.map (fun q => { q with bcnSeen := false, live := q.link }) }
  else
    let good := if s.domSeen ∧ s.localOfs.natAbs ≤ 20 then min 8 (s.good + 1) else 0
    let switch := ! fore && ! s.domSeen && s.otherSeen
    let silent := if s.domSeen ∨ s.otherSeen then 0 else s.silent + 1
    let s := { s with
      good := good, silent := silent,
      freeRun := s.freeRun || (fore && ! s.domSeen),
      domain := if switch then 1 - s.domain else s.domain,
      otherOfs := if switch then 0 else s.otherOfs,
      domSeen := false, otherSeen := false, applySet := false, cands := [], fbSent := false,
      tick := s.tick + 1, out := [],
      resid := s.residNow, residNow := [0, 0],
      retrPrev := s.retrPrev.filter (fun q => ! (raIds s).contains q.1) ++ s.retrNow, retrNow := [],
      blocked := s.blocked.filter (fun q => s.tick + 1 < q.2 + 32),
      fired := s.fired.filter (fun q => s.tick + 1 < q.2 + 32),
      ports := s.ports.map PortSt.judge }
    let s := if s.state = .coarse ∧ 8 ≤ s.good ∧ linksOk ∧ (s.cfg? s.sched).isSome then
        { s with state := .integrated }
      else if s.state = .coarse ∧ 32 ≤ s.silent then
        { s with state := .forward, applyOfs := none, coldA := false, silent := 0 }
      else if s.reint ∧ 8 ≤ s.good then { s with reint := false }
      else s
    match p with
    | some p => s.sample p
    | none => s
where
  /-- The IDs that the RA block of this tick has listed. -/
  raIds (s : StationSt) : List Nat :=
    match s.cfg? s.sched with
    | some c => (sortNat (s.retrPrev.map (·.1))).take (2 * c.blkWords 12)
    | none => []

end Sys2Proof.Machine
end

