-- ==== Sys2Proof/Machine/Points.lean ====
section
/-! DEFINITION. The points of the stations as the head sees them: where a block stands in a station's
payloads, input points with their quality, output points in the command slots (R146, R156, R157,
R166, R167). -/

namespace Sys2Proof.Machine

/-- The age of a station's feedback as a consumer of the present tick judges it: 0 where a valid
segment has arrived, else what R111 will make of it at EZ_DEADLINE; after EZ_DEADLINE as R111 has
left it. -/
def Dev.effAge (d : Dev) (s : Nat) : Nat :=
  if d.easel.closed then d.slotAge s
  else if (d.head s).got then 0
  else min 255 (d.slotAge s + 1)

/-- The configuration that the image holds for a station in a schedule mode (R156). -/
def Dev.stCfg? (d : Dev) (s m : Nat) : Option StCfg :=
  d.net.stCfgs.find? (fun c => c.addr = s && c.mode = m)

/-- The schedule mode whose layout the commands computed now are written in: from tick t - 1 of a
committed change on, the target (R142, R201). -/
def Dev.cmdMode (d : Dev) : Nat :=
  if d.flag R.ML_SCHED_STAT.pend ∧ d.net.decided ∧ d.net.commit ∧ d.net.target ≤ d.tick + 1 then
    d.fld R.ML_SCHED_STAT.pend_tgt
  else d.sched

/-- First word of a block of a station's payload in a mode, after the fixed part and the blocks of lower
code in its direction, with the block's words and its first point (R157). -/
def Dev.stBlkM (d : Dev) (m s code : Nat) : Option (Nat × Nat × Nat) :=
  match d.stCfg? s m with
  | some c =>
    if c.has code then
      let fb := decide (8 ≤ code)
      some (fixedWords (c.f 0 2 0) (d.fld (R.ST_IDENT.nax s)) fb +
        ((c.blocks.filter (fun b => b.1 < code && (decide (8 ≤ b.1) == fb))).map (fun b => b.2.1)).sum,
        c.blkWords code, c.blkFirst code)
    else none
  | none => none

/-- The same in the mode that governs the block's direction now (R142). -/
def Dev.stBlk (d : Dev) (s code : Nat) : Option (Nat × Nat × Nat) :=
  d.stBlkM (if code < 8 then d.cmdMode else d.sched) s code

/-- The memory code of word i of a station's command payload in the Canvas. -/
def Dev.cmdCode? (d : Dev) (s i : Nat) : Option Nat :=
  (d.stLayout? d.cmdMode s).map (fun p => memCode 0 (p.2.cmdAddr + 4 * i))

/-- The station is asynchronous in the mode in force (R156). -/
def Dev.stAsync (d : Dev) (s : Nat) : Bool :=
  match d.stCfg? s d.sched with
  | some c => c.f 1 1 1 == 1
  | none => false

/-- The TS word of a station's feedback (R188). -/
def Dev.stTs (d : Dev) (s : Nat) : Word :=
  match d.stBlk s 8 with
  | some (o, _, _) => nthW (d.fbWords s) o
  | none => 0

/-- The feedback words of an axis in its station's slot: 5 of a servo cell, 3 of a stepper cell (R163,
R165). -/
def Dev.axFb (d : Dev) (a : Nat) : List Word :=
  let n := if d.akind a = 1 then 5 else 3
  ((d.fbWords (d.fld (R.AX_CFG.stn a))).drop (1 + n * d.fld (R.AX_CFG.slot a))).take n

/-- The quadrature count that an axis's slot holds (R163, R165). -/
def Dev.axPos (d : Dev) (a : Nat) : Word := nthW (d.axFb a) (if d.akind a = 1 then 2 else 0)

/-- The quality of a station's points: 0 good, 1 aged, 2 bad (R146, R631). -/
def Dev.quality (d : Dev) (s : Nat) : Nat :=
  let a := d.effAge s
  if ! (d.head s).everValid then 2
  else if a = 0 then 0
  else if a ≤ d.fld (R.ST_SYNC_CFG.pt_lim s) then 1
  else 2

/-- A DI point as last delivered; none where the station has no such point (R167). -/
def Dev.diPoint (d : Dev) (s p : Nat) : Option Bool :=
  match d.stBlk s 9 with
  | some (o, w, first) =>
    if first ≤ p ∧ (p - first) / 32 < w then
      some (bit (nthW (d.fbWords s) (o + (p - first) / 32)) ((p - first) % 32))
    else none
  | none => none

/-- An AI channel as last delivered, Q15 (R167). -/
def Dev.aiChan (d : Dev) (s p : Nat) : Option Int :=
  match d.stBlk s 10 with
  | some (o, w, first) =>
    if first ≤ p ∧ (p - first) / 2 < w then
      some ((nthW (d.fbWords s) (o + (p - first) / 2)).extractLsb' (16 * ((p - first) % 2)) 16).toInt
    else none
  | none => none

/-- A DO point set in the command slot (R166, R387). -/
def Dev.setDo (d : Dev) (s p : Nat) (on : Bool) : Dev :=
  match d.stBlk s 1 with
  | some (o, w, first) =>
    if first ≤ p ∧ (p - first) / 32 < w then
      match d.cmdCode? s (o + (p - first) / 32) with
      | some c =>
        let v := d.peekW c
        let m : Word := 1#32 <<< ((p - first) % 32)
        d.pokeW c (if on then v ||| m else v &&& ~~~ m)
      | none => d
    else d
  | none => d

/-- A 16-bit channel of a command block set in the command slot: block 2 is AO, block 3 is PR (R166,
R364, R387). -/
def Dev.setChan (d : Dev) (code s p : Nat) (v : BitVec 16) : Dev :=
  match d.stBlk s code with
  | some (o, w, first) =>
    if first ≤ p ∧ (p - first) / 2 < w then
      match d.cmdCode? s (o + (p - first) / 2) with
      | some c => d.putBytes (c + 2 * ((p - first) % 2)) [v.extractLsb' 0 8, v.extractLsb' 8 8]
      | none => d
    else d
  | none => d

/-- The apply offset that the frame of a later tick carries on a line. -/
def Dev.applyAt (d : Dev) (l n : Nat) : Nat :=
  match (d.line l).applyPend.filter (fun p => p.1 ≤ n) |>.getLast? with
  | some p => p.2
  | none => (d.line l).applyOfs

/-- The line of a station. -/
def Dev.stLine (d : Dev) (s : Nat) : Nat :=
  match d.stLayout? d.sched s with
  | some (l, _) => l
  | none => d.fld (R.ST_CFG.line s)

/-- The apply instant of a tick's command at a station, in network time (R16). -/
def Dev.applyTime (d : Dev) (s n : Nat) : Nat := n * d.time.tickNs + d.applyAt (d.stLine s) n

/-- The apply deadline of a tick at a station, in network time (R85). -/
def Dev.applyDeadline (d : Dev) (s n : Nat) : Nat :=
  d.applyTime s n - d.fld (R.ST_IDENT.t_prep_ns s)

end Sys2Proof.Machine
end

