-- ==== Sys2Proof/Machine/Loops.lean ====
section
/-! DEFINITION. The process loops as they are commanded: states, controls, and writes of their
configuration and coefficients (chapter 11). -/

namespace Sys2Proof.Machine

/-- Off (R371). -/
def lOff : Nat := 0
/-- Manual (R371). -/
def lManual : Nat := 1
/-- Auto (R371). -/
def lAuto : Nat := 2
/-- Hold (R371). -/
def lHold : Nat := 3
/-- Fault (R371). -/
def lFault : Nat := 4

/-- The state that a loop reached at its last run. -/
def Dev.lstate (d : Dev) (i : Nat) : Nat := d.fld (R.PL_STATE.state i)

/-- How a loop judges its input: 0 fresh, 1 aged, 2 past its limit, with the age, and whether the
sample's own age is what put it past (R377, R631). -/
def Dev.plInput (d : Dev) (i : Nat) : Nat × Nat × Bool :=
  let s := d.fld (R.PL_IO.in_stn i)
  let age := d.effAge s
  let lim := d.fld (R.PL_AGE_LIM.ts_lim_ms i)
  let ts := (word d.now - d.stTs s).toInt
  let stale := d.stAsync s && lim != 0 && decide ((lim : Int) * 1000000 < ts)
  if ! (d.head s).everValid then (2, 255, false)
  else if stale then (2, age, true)
  else if age = 0 then (0, 0, false)
  else if age ≤ d.fld (R.PL_AGE_LIM.age_lim i) then (1, age, false)
  else (2, age, false)

/-- The input of a loop is fresh (R377). -/
def Dev.plFresh (d : Dev) (i : Nat) : Bool := (d.plInput i).1 == 0

/-- A loop enters a state, as a class-4 event with its cause (R376). -/
def Dev.plEnter (d : Dev) (i st cause : Nat) : Dev :=
  if d.lstate i = st then d
  else
    let old := d.lstate i
    let d := (d.set (R.PL_STATE.state i) st).event 4 (R.PL_EVT.state i) i [word old, word st, word cause]
    let d := if st = lHold then d.setB (R.PL_EVT.hold i) true else d
    { d with rcp := { d.rcp with triggers := d.rcp.triggers ++ [(4, i)] } }

/-- A control names a transition that the loop's standing state allows (R372, R376). -/
def Dev.plCtlOk (d : Dev) (i : Nat) (c : LoopCtl) : Bool :=
  let st := d.lstate i
  match c with
  | .auto => st == lManual && d.plFresh i
  | .manual => st == lAuto || st == lHold
  | .resume => st == lHold && d.plFresh i
  | .reset => st == lFault && d.plFresh i

/-- A control waits for the loop's next run, or is rejected (R372, R376). -/
def Dev.plCtl (d : Dev) (i : Nat) (c : LoopCtl) : Dev × WrRes :=
  if d.plCtlOk i c then (d.updLoop i (fun x => { x with ctrl := x.ctrl ++ [c] }), .ok 0)
  else (d.event 4 (R.PL_EVT.ctrl_rej i) i, .rejected 0)

/-- PL_AUTO (R372). -/
def execPlAuto (i : Fin 384) (s : State) : Host.Outcome State Fault Refusal :=
  s.onDev (fun d => (d.plCtl i .auto).1)

/-- PL_MANUAL (R372). -/
def execPlManual (i : Fin 384) (s : State) : Host.Outcome State Fault Refusal :=
  s.onDev (fun d => (d.plCtl i .manual).1)

/-- PL_RESUME (R372). -/
def execPlResume (i : Fin 384) (s : State) : Host.Outcome State Fault Refusal :=
  s.onDev (fun d => (d.plCtl i .resume).1)

/-- PL_RESET (R372). -/
def execPlReset (i : Fin 384) (s : State) : Host.Outcome State Fault Refusal :=
  s.onDev (fun d => (d.plCtl i .reset).1)

/-- A write to PL_CFG: in Load and Service, group and phase in range; en written 0 takes the loop to
Off at once (R372, R381). -/
def Dev.plCfgWr (d : Dev) (i : Nat) (v : Word) : Dev × WrRes :=
  if ! d.loadOrService ∨ 95 < bits v 29 23 ∨ bits v 21 12 < bits v 9 0 then
    d.rejectAt (R.PL_EVT.cfg_rej i)
  else
    let d := d.wr (R.PL_CFG.adr i) (v &&& 0xFFFFF3FF#32)
    if bit v 31 then (d, .ok 0)
    else ((d.plEnter i lOff 0).updLoop i (fun x => { x with ctrl := [] }), .ok 0)

/-- PL_CFG_WRITE (R372). -/
def execPlCfgWrite (i : Fin 384) (v : Word) (s : State) : Host.Outcome State Fault Refusal :=
  s.onDev (fun d => (d.plCfgWr i v).1)

/-- A write to a coefficient or limit register, by its place in the block in words: 7 PL_LIM, 8 PL_KP,
9 PL_KI, 10 PL_KD. It is read by the loop's next run (R375, R381). -/
def Dev.plCoefWr (d : Dev) (i k : Nat) (v : Word) : Dev × WrRes :=
  let st := d.lstate i
  if ! d.loadOrService ∧ st ≠ lOff ∧ st ≠ lManual then (d.event 4 (R.PL_EVT.coef_rej i) i, .rejected 0)
  else if k = 7 then
    if signed 16 (bits v 15 0) < signed 16 (bits v 31 16) then (d.wr (R.PL_LIM.adr i) v, .ok 0)
    else d.rejectAt (R.PL_EVT.cfg_rej i)
  else if k = 8 then (d.wr (R.PL_KP.adr i) (v &&& 0x7FFFF#32), .ok 0)
  else if k = 9 then (d.wr (R.PL_KI.adr i) (v &&& 0x7FFFFFFF#32), .ok 0)
  else if k = 10 then (d.wr (R.PL_KD.adr i) (v &&& 0x7FFFFFFF#32), .ok 0)
  else (d, .ok 0)

/-- PL_COEF_WRITE (R375): of a register that is none of the four, no write of a coefficient. -/
def execPlCoefWrite (i : Fin 384) (k : Fin 16) (v : Word) (s : State) : Host.Outcome State Fault Refusal :=
  s.onDev (fun d => 
    if 7 ≤ k.val ∧ k.val ≤ 10 then (wroteBy (d.plCoefWr i k v) (R.PL_CFG.adr i + 4 * k)).1 else d)

/-- PL_GRP_CTRL.cnt_clr (R382). -/
def Dev.plGrpCntClr (d : Dev) (g : Nat) : Dev := d.wr (R.PL_GRP_CNT.adr g) 0

/-- PL_GRP_CNT_CLR (R382). -/
def execPlGrpCntClr (g : Fin 96) (s : State) : Host.Outcome State Fault Refusal :=
  s.onDev (fun d => d.plGrpCntClr g)

end Sys2Proof.Machine
end

