-- ==== Sys2Proof/Machine/Recipe.lean ====
section
/-! DEFINITION. Recipes: records, conditions, actions, planning and staging, retraction, hold, abort
and resume, and the resume journal (chapter 12). -/

namespace Sys2Proof.Machine

/-! ## Records (R383 to R388) -/

/-- The memory code of a pool record (R383). -/
def Dev.recCode (d : Dev) (i : Nat) : Nat :=
  memCode 0 ((d.rd R.AT_POOL.adr).toNat % 0x10000000 + 16 * i)

/-- The four words of a pool record. -/
def Dev.recWords (d : Dev) (i : Nat) : List Word := d.peekWords (d.recCode i) 4

/-- The eight header words of a recipe (R384). -/
def Dev.rcpHdr (d : Dev) (r : Nat) : List Word := d.peekWords (d.recCode (d.fld (R.AT_RCP_CFG.hdr r))) 8

/-- A step or block record as read (R385). -/
structure StepRec where
  /-- A block. -/
  block : Bool := false
  /-- Ends on its end condition. -/
  onCond : Bool := false
  /-- The guard is watched continuously. -/
  watch : Bool := false
  /-- Its end closes a layer. -/
  layer : Bool := false
  /-- A resume continues it. -/
  reHold : Bool := false
  /-- On guard failure: 0 wait, 1 hold, 2 abort, 3 jump. -/
  gfail : Nat := 0
  /-- Compensation block, 0xFFF for none. -/
  comp : Nat := 0xFFF
  /-- Step for a jump. -/
  jmp : Nat := 0
  /-- Duration or timeout in µs. -/
  durUs : Nat := 0
  /-- First action record. -/
  act : Nat := 0
  /-- Number of actions. -/
  nact : Nat := 0
  /-- First condition term. -/
  cond : Nat := 0
  /-- Guard terms. -/
  ng : Nat := 0
  /-- End terms. -/
  ne : Nat := 0
  deriving DecidableEq, Repr

/-- The record of step k of a recipe (R384, R385). -/
def Dev.stepRec (d : Dev) (r k : Nat) : StepRec :=
  let w := d.recWords (d.fld (R.AT_RCP_CFG.hdr r) + 2 + k)
  let w0 := nthW w 0
  let w2 := nthW w 2
  let w3 := nthW w 3
  { block := bit w0 31, onCond := bit w0 30, watch := bit w0 29, layer := bit w0 28,
    reHold := bit w0 27, gfail := bits w0 26 25, comp := bits w0 23 12, jmp := bits w0 11 0,
    durUs := (nthW w 1).toNat, act := bits w2 31 15, nact := bits w2 14 8, cond := bits w3 31 15,
    ng := bits w3 14 12, ne := bits w3 11 9 }

/-- The step that follows step k: the next record that is no block; none after the last (R385,
AT_RCP_CFG.last). -/
def Dev.nextStep (d : Dev) (r k : Nat) : Option Nat :=
  ((List.range (d.fld (R.AT_RCP_CFG.last r) + 1)).filter (fun i => decide (k < i))).find?
    (fun i => ! (d.stepRec r i).block)

/-- The resolved duration or timeout of a step, 0 for no timeout (R386). -/
def Dev.stepDur (d : Dev) (x : StepRec) : Nat :=
  if x.onCond ∧ x.durUs = 0 then 0 else d.ticksOfUs x.durUs

/-! ## The checks of a recipe (R390) -/

/-- An action record lies in the ranges of R387. -/
def Dev.actOk (d : Dev) (x : StepRec) (w : List Word) : Bool :=
  let w0 := nthW w 0
  let idx := bits w0 15 0
  let a2 := (nthW w 2).toNat
  match bits w0 31 28 with
  | 1 =>
    let c := d.stCfg? (bits w0 23 16) d.sched
    decide (idx < 256) && decide (1 ≤ a2) && decide (a2 ≤ 3) &&
    (match c with | some c => c.has 4 && c.has 5 | none => false) &&
    (x.block || x.onCond || decide ((nthW w 1).toNat < d.stepDur x * d.time.tickNs))
  | 2 => decide (a2 ≤ 1)
  | 3 => decide (a2 < 65536)
  | 4 => decide (idx < 384) && decide (a2 < 65536)
  | 5 => decide (idx < 384) && (a2 == 1 || a2 == 2)
  | 6 => decide (idx < 128) && decide (a2 ≤ 1)
  | 7 => decide (idx < 128)
  | 8 => decide (idx < 128)
  | 9 => decide (idx < 16) && decide (a2 ≤ 1)
  | 10 => decide (idx < 32) && decide (a2 ≤ 1)
  | 11 => decide (idx < 4096)
  | 12 => decide (idx < 4) && decide (a2 ≤ 1)
  | _ => false

/-- A condition term lies in the ranges of R388. -/
def termOk (w : List Word) : Bool :=
  let w0 := nthW w 0
  let idx := bits w0 15 0
  decide (bits w0 27 24 ≤ 5) &&
  (match bits w0 31 28 with
   | 1 | 2 | 9 => true
   | 3 | 4 => decide (idx < 384)
   | 5 | 6 => decide (idx < 128)
   | 7 => decide (idx < 32)
   | 8 => decide (idx < 4)
   | _ => false)

/-- A block index is none or names a block that exists. -/
def Dev.blockOk (d : Dev) (r k : Nat) : Bool :=
  k == 0xFFF || (decide (k ≤ d.fld (R.AT_RCP_CFG.last r)) && (d.stepRec r k).block)

/-- The actions of a block pass. -/
def Dev.blockActs (d : Dev) (r k : Nat) : Bool :=
  let b := d.stepRec r k
  decide (b.act + b.nact ≤ 131072) &&
    (List.range b.nact).all (fun i => d.actOk b (d.recWords (b.act + i)))

/-- A step or block record passes R390. -/
def Dev.stepOk (d : Dev) (r k : Nat) : Bool :=
  let x := d.stepRec r k
  decide (x.act + x.nact ≤ 131072) &&
  (List.range x.nact).all (fun i => d.actOk x (d.recWords (x.act + i))) &&
  (x.block ||
    (decide (x.ng ≤ 4) && decide (x.ne ≤ 4) && (! x.onCond || decide (1 ≤ x.ne)) &&
     decide (x.cond + x.ng + x.ne ≤ 131072) &&
     (List.range (x.ng + x.ne)).all (fun i => termOk (d.recWords (x.cond + i))) &&
     d.blockOk r x.comp && (x.comp == 0xFFF || d.blockActs r x.comp) &&
     (x.gfail != 3 || (decide (x.jmp ≤ d.fld (R.AT_RCP_CFG.last r)) && ! (d.stepRec r x.jmp).block))))

/-- The lowest step that a recipe started at a step reaches through its jumps: every step from it on is
reached. -/
def Dev.lowestStep (d : Dev) (r : Nat) : Nat → Nat → Nat
  | 0, m => m
  | n + 1, m =>
    let m' := ((List.range (d.fld (R.AT_RCP_CFG.last r) + 1)).filter (fun k => decide (m ≤ k))).foldl
      (fun a k =>
        let x := d.stepRec r k
        if ! x.block ∧ x.gfail = 3 then min a x.jmp else a) m
    if m' = m then m else d.lowestStep r n m'

/-- Every record that the recipe reaches from a step passes (R390). -/
def Dev.rcpValid (d : Dev) (r step : Nat) : Bool :=
  let last := d.fld (R.AT_RCP_CFG.last r)
  let h := d.rcpHdr r
  let m := d.lowestStep r 4096 step
  decide (step ≤ last) && ! (d.stepRec r step).block &&
  d.blockOk r (bits (nthW h 5) 27 16) && d.blockOk r (bits (nthW h 5) 11 0) &&
  ((List.range (last + 1)).filter (fun k => decide (m ≤ k) || (d.stepRec r k).block)).all (fun k =>
    d.stepOk r k)

/-! ## Conditions (R388, R389) -/

/-- A comparison by its code (R388). -/
def compareOp (op : Nat) (x v : Int) : Bool :=
  match op with
  | 0 => x == v
  | 1 => x != v
  | 2 => decide (x < v)
  | 3 => decide (x ≤ v)
  | 4 => decide (v < x)
  | _ => decide (v ≤ x)

/-- The value that a term compares; none: of bad quality (R388, R389). -/
def Dev.termValue (d : Dev) (r : Nat) (w0 : Word) (elapsed : Nat) : Option Int :=
  let stn := bits w0 23 16
  let idx := bits w0 15 0
  match bits w0 31 28 with
  | 1 => if d.quality stn = 2 then none else (d.diPoint stn idx).map (fun b => (b2n b : Int))
  | 2 => if d.quality stn = 2 then none else d.aiChan stn idx
  | 3 => if (d.plInput idx).1 = 2 then none else some (d.sfld (R.PL_OUT.pv idx))
  | 4 => some (d.lstate idx)
  | 5 => some (d.astate idx)
  | 6 => some (d.fld (R.AX_PRF_STAT.phase idx))
  | 7 => some (b2n ((d.recipe r).flags.getLsbD idx))
  | 8 => some ((d.recipe r).cnts.getD idx 0)
  | _ => some elapsed

/-- A condition of n terms from a record on holds; a term of bad quality does not, and is recorded
(R388, R389). -/
def Dev.condHolds (d : Dev) (r first n elapsed : Nat) : Dev × Bool :=
  (List.range n).foldl (fun p i =>
    let w := p.1.recWords (first + i)
    match p.1.termValue r (nthW w 0) elapsed with
    | some x => (p.1, p.2 && compareOp (bits (nthW w 0) 27 24) x (sword (nthW w 1)))
    | none => (p.1.event 4 (R.AT_RCP_EVT.cond_bad r) r, false)) (d, true)

/-! ## Staging (R398 to R400, R405) -/

/-- The outcome codes of a staging record: 0 staged, 1 retracted, 2 Prevented, 3 Fired, 4 RETRACT_LATE
(R405; the codes are the model's). DESIGN CHOICE, log entry 30. -/
def Dev.toNote (d : Dev) (r outcome : Nat) (e : StagedTo) : Dev :=
  d.note 4 4 r [word r, word e.step, word e.id, word e.stn, word e.output, word e.fire, word outcome]

/-- An action ID is in use: staged, being retracted, or used within the last 64 ticks (R400). -/
def Dev.idUsed (d : Dev) (id : Nat) : Bool :=
  d.rcp.rcps.any (fun p => p.2.staged.any (fun e => e.id = id)) ||
  d.rcp.usedIds.any (fun p => p.1 = id && decide (d.tick < p.2 + 64))

/-- The next free action ID at or after one (R400). -/
def Dev.freeId (d : Dev) : Nat → Nat → Nat
  | 0, id => id
  | n + 1, id => if d.idUsed id then d.freeId n (if id = 0x6FFF then 1 else id + 1) else id

/-- The use of an ID is noted. -/
def Dev.useId (d : Dev) (id : Nat) : Dev :=
  { d with rcp := { d.rcp with
      usedIds := (id, d.tick) :: d.rcp.usedIds.filter (fun p => p.1 ≠ id && decide (d.tick < p.2 + 64)) } }

/-- AT_RCP_STAT.staged follows the staged actions. -/
def Dev.rcpShow (d : Dev) (r : Nat) : Dev :=
  d.set (R.AT_RCP_STAT.staged r) (satN 8 (d.recipe r).staged.length)

/-- A timed output of a recipe is staged under the next action ID (R398, R400, R405). -/
def Dev.stage (d : Dev) (r : Nat) (e : StagedTo) : Dev :=
  let id := d.freeId 0x6FFF d.rcp.nextId
  let e := { e with id := id }
  let d := { d with rcp := { d.rcp with nextId := if id = 0x6FFF then 1 else id + 1 } }
  let d := (d.useId id).updRecipe r (fun x => { x with staged := x.staged ++ [e] })
  (d.toNote r 0 e).rcpShow r

/-- Entries of recipes that a station's next command carries: staged, not being retracted, their fire time
after its apply deadline (R186). DEDUCED, log entry 29. -/
def Dev.rcpCarried (d : Dev) (s : Nat) : List StagedTo :=
  d.rcp.rcps.flatMap (fun p => p.2.staged.filter (fun e =>
    e.stn = s && ! e.retr && decide (d.applyDeadline s (d.tick + 1) < e.fire)))

/-- Entries sent and unfired at a station, of recipes and of compare lists (R185). -/
def Dev.outstandingTo (d : Dev) (s : Nat) : Nat :=
  (d.rcp.rcps.map (fun p => (p.2.staged.filter (fun e => e.stn = s && decide (d.now < e.fire))).length)).sum +
  (d.cmps.map (fun p => if d.fld (R.AX_CMP_CFG.stn p.1) = s
    then (p.2.staged.filter (fun e => decide (d.now < e.fire))).length else 0)).sum

/-- TO entries of a station's block that the compare lists reserve (R352). -/
def Dev.reservedTo (d : Dev) (s : Nat) : Nat :=
  ((List.range 16).map (fun l => if s ≠ 0 ∧ d.fld (R.AX_CMP_CFG.stn l) = s
    then d.fld (R.AX_CMP_CFG2.to_n l) else 0)).sum

/-- The words of a station's TO and RT blocks. -/
def Dev.blkLen (d : Dev) (s code : Nat) : Nat := ((d.stBlk s code).map (fun b => b.2.1)).getD 0

/-- One more recipe entry fits a station's command (R185, R352, R398). -/
def Dev.roomTo (d : Dev) (s : Nat) : Bool :=
  decide ((d.rcpCarried s).length + d.reservedTo s < d.blkLen s 4 / 2) &&
  decide (d.outstandingTo s < 2 * d.blkLen s 5)

/-! ## Actions (R387, R395 to R397) -/

/-- The TO entry of an action record with a fire base. -/
def toEntry (step rec_ : Nat) (w : List Word) (base : Nat) : StagedTo :=
  let w0 := nthW w 0
  { step := step, act := rec_, stn := bits w0 23 16, output := bits w0 7 0,
    kind := (nthW w 2).toNat % 4, fire := base + (nthW w 1).toNat, ofs := (nthW w 1).toNat }

/-- A setpoint action: at once, or a ramp; either ends a ramp that runs on the loop (R396). -/
def Dev.actSp (d : Dev) (r loop rampUs target : Nat) : Dev :=
  let d := { d with rcp := { d.rcp with rcps := d.rcp.rcps.map (fun (p : Nat × RcpSt) =>
    (p.1, { p.2 with ramps := p.2.ramps.filter (fun x => x.loop ≠ loop) })) } }
  if rampUs = 0 then d.set (R.PL_SP.sp loop) target
  else d.updRecipe r (fun x => { x with ramps := x.ramps ++
    [{ loop := loop, sp0 := d.sfld (R.PL_SP.sp loop), target := signed 16 target, m := 0,
       total := d.ticksOfUs rampUs }] })

/-- A recipe flag (R387). -/
def Dev.actFlag (d : Dev) (r i : Nat) (on : Bool) : Dev :=
  d.updRecipe r (fun x => { x with
    flags := if on then x.flags ||| (1#32 <<< i) else x.flags &&& ~~~ (1#32 <<< i) })

/-- A recipe counter set or added to, modulo 2^32 (R387). -/
def Dev.actCnt (d : Dev) (r i : Nat) (v : Int) (add : Bool) : Dev :=
  d.updRecipe r (fun x => { x with
    cnts := setNth x.cnts i (if add then (BitVec.ofInt 32 (x.cnts.getD i 0 + v)).toInt else v) })

/-- A profile command of a recipe: rejected by BUSY, Q_FULL, NOT_READY or INVALID (R397). -/
def Dev.actPrf (d : Dev) (a op : Nat) (tgt : Int) : Dev × Bool :=
  let p := d.prfCmd a op tgt
  (p.1, decide (p.2 < 2))

/-- The result of a control as an action takes it: not rejected. -/
def WrRes.accepted : WrRes → Bool
  | .ok _ => true
  | _ => false

/-- The index of an action record names something that exists (R387). -/
def actInRange (w : List Word) : Bool :=
  let idx := bits (nthW w 0) 15 0
  match bits (nthW w 0) 31 28 with
  | 4 | 5 => decide (idx < 384)
  | 6 | 7 | 8 => decide (idx < 128)
  | 9 => decide (idx < 16)
  | 10 => decide (idx < 32)
  | 11 => decide (idx < 4096)
  | 12 => decide (idx < 4)
  | _ => true

/-- A non-timed action takes effect; false where it is rejected (R387, R397). A record that no recipe can have
been started with has none (R390). DEDUCED, log entry 70. -/
def Dev.runAction (d : Dev) (r : Nat) (w : List Word) : Dev × Bool :=
  let w0 := nthW w 0
  let stn := bits w0 23 16
  let idx := bits w0 15 0
  let a1 := nthW w 1
  let a2 := (nthW w 2).toNat
  if ! actInRange w then (d, true)
  else match bits w0 31 28 with
  | 2 => (d.setDo stn idx (a2 != 0), true)
  | 3 => (d.setChan 2 stn idx (BitVec.ofNat 16 a2), true)
  | 4 => (d.actSp r idx a1.toNat a2, true)
  | 5 =>
    let p := d.plCtl idx (if a2 = 1 then .auto else .manual)
    (p.1, p.2.accepted)
  | 6 => d.actPrf idx (if a2 = 0 then 1 else 2) (sword a1)
  | 7 => d.actPrf idx 3 0
  | 8 => (d.wr (R.AX_SPD_CMD.adr idx) a1, true)
  | 9 =>
    let p := d.cmpArm idx (a2 != 0)
    (p.1, p.2.accepted)
  | 10 => (d.actFlag r idx (a2 != 0), true)
  | 11 => (d.signalCnt idx 1 0, true)
  | 12 => (d.actCnt r idx (sword a1) (a2 != 0), true)
  | _ => (d, true)

/-- A rejected action is recorded with its record (R397). -/
def Dev.actRejected (d : Dev) (r rec_ : Nat) (w : List Word) : Dev :=
  d.event 4 (R.AT_RCP_EVT.act_rej r) r (word rec_ :: w)

/-- The non-timed actions of a step or block in record order; false where one is rejected (R395). -/
def Dev.runActions (d : Dev) (r : Nat) (x : StepRec) : Dev × Bool :=
  (List.range x.nact).foldl (fun p i =>
    let w := p.1.recWords (x.act + i)
    if bits (nthW w 0) 31 28 = 1 then p
    else
      let q := p.1.runAction r w
      if q.2 then (q.1, p.2) else (q.1.actRejected r (x.act + i) w, false)) (d, true)

/-- A block runs: its non-timed actions belong to the present tick j, its timed outputs fire at
T(j + 2) plus their offset (R385, R395). -/
def Dev.runBlock (d : Dev) (r k : Nat) : Dev × Bool :=
  if k = 0xFFF then (d, true)
  else
    let x := d.stepRec r k
    let p := d.runActions r x
    ((List.range x.nact).foldl (fun d i =>
      let w := d.recWords (x.act + i)
      if bits (nthW w 0) 31 28 = 1 then
        d.stage r (toEntry k (x.act + i) w ((d.tick + 2) * d.time.tickNs))
      else d) p.1, p.2)

/-! ## States (R391) -/

/-- IDLE (R391). -/
def sIdle : Nat := 0
/-- RUN (R391). -/
def sRun : Nat := 1
/-- WAIT (R391). -/
def sWait : Nat := 2
/-- HOLDING (R391). -/
def sHolding : Nat := 3
/-- HELD (R391). -/
def sHeld : Nat := 4
/-- ABORTING (R391). -/
def sAborting : Nat := 5
/-- ABORTED (R391). -/
def sAborted : Nat := 6
/-- DONE (R391). -/
def sDone : Nat := 7

/-- The state of a recipe. -/
def Dev.rstate (d : Dev) (r : Nat) : Nat := d.fld (R.AT_RCP_STAT.state r)

/-- A recipe enters a state; event tasks may wait for it (R413). -/
def Dev.rcpEnter (d : Dev) (r st : Nat) : Dev :=
  let d := d.set (R.AT_RCP_STAT.state r) st
  { d with rcp := { d.rcp with triggers := d.rcp.triggers ++ [(3, r)] } }

/-- The journal entry of a recipe at a boundary, its sequence number and CRC to be filled in when it is
written (R418). -/
def Dev.jnlEntry (d : Dev) (r type step tick : Nat) : JnlEntry :=
  let x := d.recipe r
  let h := d.rcpHdr r
  let t := d.epochTime
  let jax := (List.range 8).map (fun k =>
    let b := bits (nthW h (k / 4)) (8 * (k % 4) + 7) (8 * (k % 4))
    if 128 ≤ b then d.rd (R.AX_FB_POS.adr (b % 128)) else 0)
  let jpl := (List.range 4).map (fun k =>
    let w := nthW h (2 + k / 2)
    let en := bit w (16 * (k % 2) + 15)
    let i := bits w (16 * (k % 2) + 8) (16 * (k % 2))
    if en then word (2 ^ 31 + i * 65536 + d.fld (R.PL_SP.sp i)) else 0)
  { words := [word (type * 2 ^ 24 + r * 65536 + step), 0, t.extractLsb' 0 32, t.extractLsb' 32 32,
      word tick, d.rd (R.AT_RCP_LAYER.adr r), x.flags, word (d.unitId * 256 + d.fld R.TW_STAT.epoch)] ++
      (List.range 4).map (fun k => wordI (x.cnts.getD k 0)) ++ [0, 0, 0, 0] ++ jax ++ jpl ++ [0, 0, 0, 0] }

/-- The recipe of a journal entry. -/
def JnlEntry.recipe (e : JnlEntry) : Nat := bits (nthW e.words 0) 23 16

/-- An entry joins the queue, in the place of an uncommitted entry of its recipe where there is one
(R419). -/
def Dev.journal (d : Dev) (r type step tick : Nat) : Dev :=
  let e := d.jnlEntry r type step tick
  if d.rcp.queue.any (fun q => q.recipe = r) then
    { (d.setB R.AT_EVT.jnl_skip true) with rcp := { d.rcp with
        queue := d.rcp.queue.map (fun q => if q.recipe = r then e else q) } }
  else { d with rcp := { d.rcp with queue := d.rcp.queue ++ [e] } }

/-- A retraction is still to be judged. -/
def RcpSt.retracting (x : RcpSt) : Bool := x.staged.any (·.retr)

/-- HOLDING ends in HELD and ABORTING in ABORTED once the last retraction has been judged (R406, R407,
R419). -/
def Dev.rcpSettle (d : Dev) (r : Nat) : Dev :=
  if (d.recipe r).retracting then d
  else if d.rstate r = sHolding then
    (d.rcpEnter r sHeld).journal r 3 (d.fld (R.AT_RCP_STAT.step r)) d.tick
  else if d.rstate r = sAborting then
    (d.rcpEnter r sAborted).journal r 4 (d.fld (R.AT_RCP_STAT.step r)) d.tick
  else d

/-- Staged actions that meet a condition are retracted (R402, R405). -/
def Dev.retractTo (d : Dev) (r : Nat) (p comp : StagedTo → Bool) : Dev :=
  let sel := fun (e : StagedTo) => ! e.retr && p e
  let hit := (d.recipe r).staged.filter sel
  let d := d.updRecipe r (fun x => { x with
    staged := x.staged.map (fun e => if sel e then { e with retr := true, comp := e.comp || comp e } else e) })
  hit.foldl (fun d e => d.toNote r 1 e) d

/-- The step that runs, as planned. -/
def RcpSt.running (x : RcpSt) : Option Planned := x.plan.find? (·.on)

/-- Whole ticks gone by in the running step. -/
def Dev.elapsed (d : Dev) (r : Nat) : Nat :=
  match (d.recipe r).running with
  | some p => d.tick - p.start
  | none => 0

/-- The recipe leaves RUN or WAIT for a hold or abort: staging stops, everything staged is retracted,
ramps end (R406, R407). -/
def Dev.rcpStop (d : Dev) (r : Nat) : Dev :=
  (d.retractTo r (fun _ => true) (fun _ => false)).updRecipe r (fun x => { x with
    plan := [], waitFor := none, ramps := [], prevented := [] })

/-- A hold, with a cause and the step that will be held: the running one, or one that has not started
(R394, R406). -/
def Dev.rcpHoldAt (d : Dev) (r cause : Nat) (step : Option Nat) : Dev :=
  let run := (d.recipe r).running
  let held := match step with
    | some k => k
    | none => ((run.map (·.step)).getD (((d.recipe r).plan.head?.map (·.step)).getD
        (((d.recipe r).waitFor).getD (d.fld (R.AT_RCP_STAT.step r)))))
  let started := step.isNone && run.isSome
  let elap := if started then d.elapsed r else 0
  let d := d.rcpStop r
  let d := (d.set (R.AT_RCP_STAT.cause r) cause).set (R.AT_RCP_STAT.step r) held
  let d := (d.setB (R.AT_RCP_STAT.started r) started).wr (R.AT_RCP_ELAP.adr r) (word elap)
  let d := (d.rcpEnter r sHolding).event 4 (R.AT_RCP_EVT.hold r) r [word cause]
  let d := (d.runBlock r (bits (nthW (d.rcpHdr r) 5) 11 0)).1
  (d.rcpShow r).rcpSettle r

/-- A hold of a recipe in RUN or WAIT (R406); in another state it has no place (R391). -/
def Dev.rcpHold (d : Dev) (r cause : Nat) : Dev :=
  if d.rstate r = sRun ∨ d.rstate r = sWait then d.rcpHoldAt r cause none else d

/-- Every recipe in RUN or WAIT is held with cause 5 (R410, R485, R584, R585). -/
def Dev.holdRecipes (d : Dev) : Dev := (List.range 64).foldl (fun d r => d.rcpHold r 5) d

/-- An abort from RUN, WAIT, HOLDING or HELD (R407). -/
def Dev.rcpAbort (d : Dev) (r cause : Nat) : Dev :=
  let st := d.rstate r
  if st = sRun ∨ st = sWait ∨ st = sHolding ∨ st = sHeld then
    let k := ((d.recipe r).running.map (·.step)).getD (d.fld (R.AT_RCP_STAT.step r))
    let d := ((d.rcpStop r).set (R.AT_RCP_STAT.cause r) cause).set (R.AT_RCP_STAT.step r) k
    let d := (d.rcpEnter r sAborting).event 4 (R.AT_RCP_EVT.abort r) r [word cause]
    let d := (d.runBlock r (bits (nthW (d.rcpHdr r) 5) 27 16)).1
    (d.rcpShow r).rcpSettle r
  else d

/-- A rejected action holds the recipe with cause 4 (R397). -/
def Dev.rcpAfter (p : Dev × Bool) (r : Nat) : Dev := if p.2 then p.1 else p.1.rcpHold r 4

/-! ## Guards, cancellation and planning (R392 to R394) -/

/-- The guard of a step holds (R393). -/
def Dev.guard (d : Dev) (r k : Nat) : Dev × Bool :=
  let x := d.stepRec r k
  d.condHolds r x.cond x.ng (d.elapsed r)

/-- A plan entry for a step. -/
def Dev.planned (d : Dev) (r k start : Nat) : Planned :=
  { step := k, start := start, dur := d.stepDur (d.stepRec r k), known := d.tick,
    decided := decide (start ≤ d.tick + 2) }

/-- The step at a place of the plan is cancelled in the present tick, and its gfail applies (R394). -/
def Dev.cancelStep (d : Dev) (r i : Nat) (p : Planned) : Dev :=
  let x := d.stepRec r p.step
  let later := ((d.recipe r).plan.drop i).map (·.step)
  let d := d.event 4 (R.AT_RCP_EVT.guard_fail r) r [word p.step]
  let d := d.retractTo r (fun e => later.contains e.step && decide (p.start * d.time.tickNs ≤ e.fire))
    (fun e => e.step == p.step)
  let d := d.updRecipe r (fun y => { y with plan := y.plan.take i, comps := y.comps.filter (· ≠ p.step) })
  match x.gfail with
  | 0 => ((d.updRecipe r (fun y => { y with waitFor := some p.step })).rcpEnter r sWait)
  | 1 => d.rcpHoldAt r 2 (some p.step)
  | 2 => d.rcpAbort r 2
  | _ =>
    let b := max p.start (d.tick + 2)
    if b = d.tick + 2 then
      let g := d.guard r x.jmp
      if g.2 then g.1.updRecipe r (fun y => { y with plan := y.plan ++ [g.1.planned r x.jmp b] })
      else (g.1.event 4 (R.AT_RCP_EVT.guard_fail r) r [word x.jmp]).rcpHoldAt r 2 (some x.jmp)
    else d.updRecipe r (fun y => { y with plan := y.plan ++ [d.planned r x.jmp b] })

/-- A step is planned for two ticks on, its guard decided now (R392, R393). -/
def Dev.planNow (d : Dev) (r k : Nat) : Dev :=
  let g := d.guard r k
  let p := g.1.planned r k (g.1.tick + 2)
  let i := (g.1.recipe r).plan.length
  let d := g.1.updRecipe r (fun y => { y with plan := y.plan ++ [p] })
  if g.2 then d else d.cancelStep r i p

/-- The recipe has reached its end (R407, R419). -/
def Dev.rcpDone (d : Dev) (r : Nat) : Dev :=
  let k := ((d.recipe r).running.map (·.step)).getD (d.fld (R.AT_RCP_STAT.step r))
  let d := if (d.stepRec r k).layer then d.wr (R.AT_RCP_LAYER.adr r) (d.rd (R.AT_RCP_LAYER.adr r) + 1) else d
  let d := (d.updRecipe r (fun y => { y with plan := [], waitFor := none })).rcpEnter r sDone
  ((d.setB (R.AT_RCP_EVT.done r) true).set (R.AT_RCP_STAT.step r) k).journal r 5 k d.tick

/-- The plan is extended by every step whose start is known and near enough to matter (R392, R393,
R398). -/
def Dev.extendPlan (d : Dev) (r : Nat) : Nat → Dev
  | 0 => d
  | n + 1 =>
    match (d.recipe r).plan.getLast? with
    | some p =>
      let b := p.start + p.dur
      if (d.stepRec r p.step).onCond ∨ d.tick + d.fld R.AT_CFG.horizon + 2 < b then d
      else
        match d.nextStep r p.step with
        | some k =>
          (d.updRecipe r (fun y => { y with plan := y.plan ++
            [{ (d.planned r k b) with known := p.known, decided := false }] })).extendPlan r n
        | none => d
    | none => d

/-- The guards that the present tick decides or watches, in the order of the plan; the first that fails
cancels its step (R393, R394). -/
def Dev.decideGuards (d : Dev) (r : Nat) : Nat → Nat → Dev
  | 0, _ => d
  | n + 1, i =>
    match (d.recipe r).plan[i]? with
    | none => d
    | some p =>
      if p.on ∨ p.decided then d.decideGuards r n (i + 1)
      else
        let last := decide (p.start ≤ d.tick + 2)
        let watch := (d.stepRec r p.step).watch &&
          decide (max (p.start - d.fld R.AT_CFG.horizon - 1) p.known ≤ d.tick)
        if last ∨ watch then
          let g := d.guard r p.step
          if g.2 then
            (g.1.updRecipe r (fun y => { y with plan := y.plan.modify i (fun q =>
              { q with decided := q.decided || last }) })).decideGuards r n (i + 1)
          else g.1.cancelStep r i p
        else d.decideGuards r n (i + 1)

/-- The end of the running step: on its condition, on its timeout, or of the last step (R392, R407). -/
def Dev.decideEnd (d : Dev) (r : Nat) : Dev :=
  match (d.recipe r).running with
  | none => d
  | some p =>
    if (d.recipe r).plan.length > 1 then d
    else
      let x := d.stepRec r p.step
      if x.onCond then
        let c := d.condHolds r (x.cond + x.ng) x.ne (d.elapsed r)
        if c.2 then
          match c.1.nextStep r p.step with
          | some k => c.1.planNow r k
          | none => c.1.rcpDone r
        else if p.dur ≠ 0 ∧ p.start + p.dur ≤ d.tick then c.1.rcpHold r 3
        else c.1
      else if p.start + p.dur ≤ d.tick ∧ (d.nextStep r p.step).isNone then d.rcpDone r
      else d

/-- A recipe that waits evaluates the guard in every tick (R394). -/
def Dev.decideWait (d : Dev) (r : Nat) : Dev :=
  match (d.recipe r).waitFor with
  | none => d
  | some k =>
    let g := d.guard r k
    if g.2 then
      (g.1.updRecipe r (fun y => { y with
        waitFor := none, plan := y.plan ++ [g.1.planned r k (g.1.tick + 2)] })).rcpEnter r sRun
    else g.1

/-- The non-timed actions of a step that starts at the next tick (R395, R397). -/
def Dev.dueActions (d : Dev) (r : Nat) : Dev :=
  match (d.recipe r).plan.find? (fun p => ! p.acted && p.start ≤ d.tick + 1) with
  | some p =>
    let d := d.updRecipe r (fun y => { y with plan := y.plan.map (fun q =>
      if q.step = p.step ∧ q.start = p.start then { q with acted := true } else q) })
    Dev.rcpAfter (d.runActions r (d.stepRec r p.step)) r
  | none => d

/-- The pool records that the firmware reads for a recipe in a tick: its header, its planned steps, the one it
waits for and the one that follows, with their actions and terms (R384 to R388). -/
def Dev.rcpRecs (d : Dev) (r : Nat) : List Nat :=
  let h := d.fld (R.AT_RCP_CFG.hdr r)
  let ks := (d.recipe r).plan.map (·.step) ++ (d.recipe r).waitFor.toList
  let ks := ks ++ ((ks.getLast?).bind (d.nextStep r)).toList
  [h, h + 1] ++ ks.flatMap (fun k =>
    let x := d.stepRec r k
    (h + 2 + k) :: (List.range x.nact).map (x.act + ·) ++ (List.range (x.ng + x.ne)).map (x.cond + ·))

/-- The firmware reads the records of a recipe; false where one of them cannot be read (R523). DEDUCED, log entry 64. -/
def Dev.rcpReads (d : Dev) (r : Nat) : Dev × Bool :=
  (d.rcpRecs r).foldl (fun (p : Dev × Bool) i =>
    let (d, b) := p.1.readBytes reqAtelier (p.1.recCode i) 16
    (d, p.2 && b.isSome)) (d, true)

/-- What the recipe firmware decides for one recipe in the present tick; one whose records cannot be read holds
with cause 6 (R392 to R395, R409, R523). -/
def Dev.rcpEval (d : Dev) (r : Nat) : Dev :=
  let st := d.rstate r
  if st = sRun ∨ st = sWait then
    let p := d.rcpReads r
    let d := p.1
    if ! p.2 then d.rcpHold r 6
    else
    let d := if (d.recipe r).running.isSome then d.wr (R.AT_RCP_ELAP.adr r) (word (d.elapsed r)) else d
    let d := d.decideWait r
    let d := if d.rstate r = sRun then d.decideEnd r else d
    let d := if d.rstate r = sRun then (d.extendPlan r 64).decideGuards r 128 0 else d
    if d.rstate r = sRun ∨ d.rstate r = sWait then d.dueActions r else d
  else d.rcpSettle r

/-- The timed outputs of a recipe that the present tick may stage, with the place of their step in the
plan: of every step with a known start (R398). -/
def Dev.stageable (d : Dev) (r : Nat) : List (Nat × Nat × StagedTo) :=
  ((d.recipe r).plan.mapIdx (fun i p =>
    let x := d.stepRec r p.step
    (List.range x.nact).filterMap (fun k =>
      let w := d.recWords (x.act + k)
      if bits (nthW w 0) 31 28 = 1 ∧ ! p.done.contains k then
        let e := toEntry p.step (x.act + k) w (p.start * d.time.tickNs)
        if e.fire ≤ (d.tick + 1 + d.fld R.AT_CFG.horizon) * d.time.tickNs then some (i, k, e) else none
      else none))).flatten

/-- Sorted by fire time, equal ones in their order. -/
def byFire (l : List (Nat × Nat × Nat × StagedTo)) : List (Nat × Nat × Nat × StagedTo) :=
  l.foldl (fun acc x =>
    acc.takeWhile (fun y => decide (y.2.2.2.fire ≤ x.2.2.2.fire)) ++ x ::
    acc.dropWhile (fun y => decide (y.2.2.2.fire ≤ x.2.2.2.fire))) []

/-- One timed output is staged where it fits, its fire time moved where the station's deadline has
passed (R398, R399). -/
def Dev.stageOne (d : Dev) (r i k : Nat) (e : StagedTo) : Dev :=
  if ! d.roomTo e.stn then d
  else
    let d := d.updRecipe r (fun y => { y with plan := y.plan.modify i (fun p => { p with done := p.done ++ [k] }) })
    if d.applyDeadline e.stn (d.tick + 1) < e.fire then d.stage r e
    else
      let f := d.applyTime e.stn (d.tick + 1)
      let d := (d.setB R.AT_EVT.stage_late true).event 4 (R.AT_RCP_EVT.stage_late r) r [word (f - e.fire)]
      d.stage r { e with fire := f }

/-- The staging of the present tick, over all recipes, in order of fire time; a recipe that holds or
aborts stages nothing (R398, R406). -/
def Dev.stageAll (d : Dev) : Dev :=
  let l := (List.range 64).flatMap (fun r =>
    if d.rstate r = sRun ∨ d.rstate r = sWait then
      (d.stageable r).map (fun x => (r, x.1, x.2.1, x.2.2))
    else [])
  (byFire l).foldl (fun d x => d.stageOne x.1 x.2.1 x.2.2.1 x.2.2.2) d

/-- Actions whose fire time has passed without a retraction leave the staged ones. -/
def Dev.dropFired (d : Dev) (r : Nat) : Dev :=
  let old := (d.recipe r).staged.filter (fun e => ! e.retr && decide (e.fire ≤ d.now))
  if old.isEmpty then d
  else
    (old.foldl (fun d e => d.useId e.id) (d.updRecipe r (fun x => { x with
      staged := x.staged.filter (fun e => e.retr || decide (d.now < e.fire)) }))).rcpShow r

/-! ## Controls (R390 to R392, R406 to R410, R421, R422) -/

/-- A control is refused: no effect but ctrl_rej and the cause (R422). -/
def Dev.rcpReject (d : Dev) (r cause : Nat) : Dev × WrRes :=
  ((d.event 4 (R.AT_RCP_EVT.ctrl_rej r) r [word cause]).set (R.AT_RCP_STAT.cause r) cause,
   .rejected cause)

/-- AT_RCP_CTRL.start (R390 to R392, R410). -/
def Dev.rcpStart (d : Dev) (r step : Nat) : Dev × WrRes :=
  if d.rmode ≠ mRun ∨ d.rstate r ≠ sIdle then d.rcpReject r 8
  else if ! d.rcpValid r step then d.rcpReject r 6
  else
    let d := (d.set (R.AT_RCP_STAT.step r) step).setB (R.AT_RCP_STAT.started r) false
    let d := (d.updRecipe r (fun y => { y with plan := [], comps := [], prevented := [] })).wr
      (R.AT_RCP_ELAP.adr r) 0
    ((d.rcpEnter r sRun).planNow r step, .ok 0)

/-- AT_RCP_CTRL.hold (R406, R422). -/
def Dev.rcpHoldCtl (d : Dev) (r : Nat) : Dev × WrRes :=
  if d.rstate r = sRun ∨ d.rstate r = sWait then (d.rcpHold r 1, .ok 0) else d.rcpReject r 8

/-- AT_RCP_CTRL.abort (R407, R422). -/
def Dev.rcpAbortCtl (d : Dev) (r : Nat) : Dev × WrRes :=
  let st := d.rstate r
  if st = sRun ∨ st = sWait ∨ st = sHolding ∨ st = sHeld then (d.rcpAbort r 1, .ok 0)
  else d.rcpReject r 8

/-- AT_RCP_CTRL.reset (R407). -/
def Dev.rcpReset (d : Dev) (r : Nat) : Dev × WrRes :=
  if d.rstate r = sDone ∨ d.rstate r = sAborted then (d.rcpEnter r sIdle, .ok 0)
  else d.rcpReject r 8

/-- AT_RCP_CTRL.resume: the held step's guard is decided, then the step restarts or continues (R408,
R410). -/
def Dev.rcpResume (d : Dev) (r : Nat) : Dev × WrRes :=
  if d.rmode ≠ mRun ∨ d.rstate r ≠ sHeld then d.rcpReject r 8
  else
    let k := d.fld (R.AT_RCP_STAT.step r)
    let x := d.stepRec r k
    let elap := (d.rd (R.AT_RCP_ELAP.adr r)).toNat
    let started := d.flag (R.AT_RCP_STAT.started r)
    let prev := (d.recipe r).prevented
    let d := d.rcpEnter r sRun
    if started ∧ x.reHold then
      let g := d.guard r k
      let b := g.1.tick + 2 - elap
      let done := (List.range x.nact).filter (fun i =>
        ! (prev.contains (x.act + i) &&
          decide ((g.1.tick + 2) * g.1.time.tickNs <
            b * g.1.time.tickNs + (nthW (g.1.recWords (x.act + i)) 1).toNat)))
      let p : Planned := { g.1.planned r k b with acted := true, on := true, done := done, decided := true }
      if g.2 then (g.1.updRecipe r (fun y => { y with plan := [p] }), .ok 0)
      else (g.1.cancelStep r 0 { p with start := g.1.tick + 2 }, .ok 0)
    else (d.planNow r k, .ok 0)

/-- The journaled position of every journal axis is kept, each of them Enabled (R421): none where an
axis is not Enabled, else whether every position lies within pos_tol. -/
def Dev.jnlPosition (d : Dev) (r : Nat) (ws : List Word) : Option Bool :=
  let h := d.rcpHdr r
  let l := (List.range 8).filterMap (fun k =>
    let b := bits (nthW h (k / 4)) (8 * (k % 4) + 7) (8 * (k % 4))
    if 128 ≤ b then some (b % 128, nthW ws (16 + k)) else none)
  if l.all (fun p => d.astate p.1 == aEnabled) then
    some (l.all (fun p =>
      decide ((d.sfld (R.AX_FB_POS.p p.1) - sword p.2).natAbs ≤ (nthW h 4).toNat)))
  else none

/-- AT_RCP_CTRL.resume_jnl (R421). -/
def Dev.rcpResumeJnl (d : Dev) (r : Nat) : Dev × WrRes :=
  let ws := d.peekWords (d.recCode (130560 + 8 * r)) 32
  let k := bits (nthW ws 0) 11 0
  if d.rmode ≠ mRun ∨ d.rstate r ≠ sIdle ∨ ! d.flag (R.AT_RCP_STAT.jnl_valid r) then d.rcpReject r 8
  else if ! d.rcpValid r k then d.rcpReject r 6
  else
    match d.jnlPosition r ws with
    | none => d.rcpReject r 8
    | some false => d.rcpReject r 7
    | some true =>
      let d := d.updRecipe r (fun y => { y with
        flags := nthW ws 6, cnts := (List.range 4).map (fun i => sword (nthW ws (8 + i))),
        plan := [], waitFor := none, prevented := [] })
      let d := d.wr (R.AT_RCP_LAYER.adr r) (nthW ws 5)
      let d := (List.range 4).foldl (fun d i =>
        let w := nthW ws (24 + i)
        if bit w 31 then d.set (R.PL_SP.sp (bits w 24 16)) (bits w 15 0) else d) d
      let d := ((d.set (R.AT_RCP_STAT.step r) k).setB (R.AT_RCP_STAT.started r) false).wr
        (R.AT_RCP_ELAP.adr r) 0
      (d.rcpEnter r sHeld, .ok 0)

/-- RECIPE_START (R392). -/
def execRecipeStart (r : Fin 64) (step : Fin 4096) (s : State) : Host.Outcome State Fault Refusal :=
  s.onDev (fun d => (d.rcpStart r step).1)

/-- RECIPE_HOLD (R406). -/
def execRecipeHold (r : Fin 64) (s : State) : Host.Outcome State Fault Refusal :=
  s.onDev (fun d => (d.rcpHoldCtl r).1)

/-- RECIPE_RESUME (R408). -/
def execRecipeResume (r : Fin 64) (s : State) : Host.Outcome State Fault Refusal :=
  s.onDev (fun d => (d.rcpResume r).1)

/-- RECIPE_ABORT (R407). -/
def execRecipeAbort (r : Fin 64) (s : State) : Host.Outcome State Fault Refusal :=
  s.onDev (fun d => (d.rcpAbortCtl r).1)

/-- RECIPE_RESET (R407). -/
def execRecipeReset (r : Fin 64) (s : State) : Host.Outcome State Fault Refusal :=
  s.onDev (fun d => (d.rcpReset r).1)

/-- RESUME_JNL (R421). -/
def execResumeJnl (r : Fin 64) (s : State) : Host.Outcome State Fault Refusal :=
  s.onDev (fun d => (d.rcpResumeJnl r).1)

/-! ## Steps and ramps (R392, R395, R396, R419) -/

/-- The step planned for this tick starts: the step before ends, closing its layer where it does, and a
journal entry is queued (R392, R395, R419). -/
def Dev.stepStart (d : Dev) (r : Nat) : Dev :=
  match (d.recipe r).plan.find? (fun p => ! p.on && decide (p.start ≤ d.tick)) with
  | none => d
  | some p =>
    if d.rstate r ≠ sRun then d
    else
      let layer := match (d.recipe r).running with
        | some q => (d.stepRec r q.step).layer
        | none => false
      let d := if layer then d.wr (R.AT_RCP_LAYER.adr r) (d.rd (R.AT_RCP_LAYER.adr r) + 1) else d
      let late := ! p.acted
      let d := d.updRecipe r (fun y => { y with plan :=
        { p with on := true, acted := true } ::
          (y.plan.dropWhile (fun q => q.on || decide (q.start < p.start))).drop 1 })
      let d := (d.set (R.AT_RCP_STAT.step r) p.step).setB (R.AT_RCP_STAT.started r) true
      let d := (d.wr (R.AT_RCP_ELAP.adr r) (word (d.tick - p.start))).event 4 (R.AT_RCP_EVT.step r) r
        [word p.step]
      let d := { d with rcp := { d.rcp with triggers := d.rcp.triggers ++ [(2, r)] } }
      let d := d.journal r (if layer then 2 else 1) p.step p.start
      if late then Dev.rcpAfter (d.runActions r (d.stepRec r p.step)) r else d

/-- STEP_START (R392). -/
def execStepStart (r : Fin 64) (s : State) : Host.Outcome State Fault Refusal :=
  s.onDev (fun d => d.stepStart r)

/-- Each running ramp of a recipe writes its next setpoint (R396). -/
def Dev.rampStep (d : Dev) (r : Nat) : Dev :=
  let l := (d.recipe r).ramps
  let d := l.foldl (fun d x =>
    let m : Int := x.m + 1
    d.setI (R.PL_SP.sp x.loop) (x.sp0 + (x.target - x.sp0) * m / x.total)) d
  d.updRecipe r (fun y => { y with
    ramps := (l.map (fun x => { x with m := x.m + 1 })).filter (fun x => decide (x.m < x.total)) })

/-- SP_RAMP_STEP (R396). -/
def execSpRampStep (r : Fin 64) (s : State) : Host.Outcome State Fault Refusal :=
  s.onDev (fun d => d.rampStep r)

/-! ## The action rows (R387) -/

/-- An action of a recipe taken by itself: where it is rejected the recipe holds (R397). -/
def Dev.actionRow (d : Dev) (r : Nat) (w : List Word) : Dev :=
  let p := d.runAction r w
  if p.2 then p.1 else (p.1.event 4 (R.AT_RCP_EVT.act_rej r) r w).rcpHold r 4

/-- Word 0 of an action record. -/
def actWord (op stn idx : Nat) : Word := word (op * 2 ^ 28 + stn * 65536 + idx)

/-- ACTION_TO: staged with the start of the recipe's next planned step, or of its running step, or two
ticks on as for a block (R387, R395, R398). -/
def execActionTo (r : Fin 64) (stn : Fin 256) (output : Fin 256) (ofsNs : Word) (act : Fin 4) (s : State) :
    Host.Outcome State Fault Refusal :=
  s.onDev (fun d =>
    let x := d.recipe r
    let base := match x.plan.find? (fun p => ! p.on), x.running with
      | some p, _ => (p.step, p.start)
      | none, some p => (p.step, p.start)
      | none, none => (d.fld (R.AT_RCP_STAT.step r), d.tick + 2)
    if act.val = 0 then d
    else d.stage r { step := base.1, act := 131072, stn := stn, output := output, kind := act,
                     fire := base.2 * d.time.tickNs + ofsNs.toNat, ofs := ofsNs.toNat })

/-- ACTION_DO (R387). -/
def execActionDo (r : Fin 64) (stn : Fin 256) (point : BitVec 16) (on : Bool) (s : State) :
    Host.Outcome State Fault Refusal :=
  s.onDev (fun d => d.actionRow r [actWord 2 stn point.toNat, 0, word (b2n on), 0])

/-- ACTION_AO (R387). -/
def execActionAo (r : Fin 64) (stn : Fin 256) (chan : BitVec 16) (v : BitVec 16) (s : State) :
    Host.Outcome State Fault Refusal :=
  s.onDev (fun d => d.actionRow r [actWord 3 stn chan.toNat, 0, word v.toNat, 0])

/-- ACTION_SP (R396). -/
def execActionSp (r : Fin 64) (loop : Fin 384) (rampUs : Word) (target : BitVec 16) (s : State) :
    Host.Outcome State Fault Refusal :=
  s.onDev (fun d => d.actionRow r [actWord 4 0 loop, rampUs, word target.toNat, 0])

/-- ACTION_LOOP (R387). -/
def execActionLoop (r : Fin 64) (loop : Fin 384) (auto : Bool) (s : State) :
    Host.Outcome State Fault Refusal :=
  s.onDev (fun d => d.actionRow r [actWord 5 0 loop, 0, (if auto then 1 else 2), 0])

/-- ACTION_MOVE (R387). -/
def execActionMove (r : Fin 64) (a : Fin 128) (target : Word) (rel : Bool) (s : State) :
    Host.Outcome State Fault Refusal :=
  s.onDev (fun d => d.actionRow r [actWord 6 0 a, target, word (b2n rel), 0])

/-- ACTION_STOP (R387). -/
def execActionStop (r : Fin 64) (a : Fin 128) (s : State) : Host.Outcome State Fault Refusal :=
  s.onDev (fun d => d.actionRow r [actWord 7 0 a, 0, 0, 0])

/-- ACTION_SPD (R387). -/
def execActionSpd (r : Fin 64) (a : Fin 128) (v : Word) (s : State) : Host.Outcome State Fault Refusal :=
  s.onDev (fun d => d.actionRow r [actWord 8 0 a, v, 0, 0])

/-- ACTION_ARM (R387). -/
def execActionArm (r : Fin 64) (l : Fin 16) (arm : Bool) (s : State) : Host.Outcome State Fault Refusal :=
  s.onDev (fun d => d.actionRow r [actWord 9 0 l, 0, word (b2n arm), 0])

/-- ACTION_FLAG (R387). -/
def execActionFlag (r : Fin 64) (flag : Fin 32) (on : Bool) (s : State) :
    Host.Outcome State Fault Refusal :=
  s.onDev (fun d => d.actionRow r [actWord 10 0 flag, 0, word (b2n on), 0])

/-- ACTION_SIG (R387). -/
def execActionSig (r : Fin 64) (cnt : Fin 4096) (s : State) : Host.Outcome State Fault Refusal :=
  s.onDev (fun d => d.actionRow r [actWord 11 0 cnt, 0, 0, 0])

/-- ACTION_CNT (R387). -/
def execActionCnt (r : Fin 64) (c : Fin 4) (v : Word) (add : Bool) (s : State) :
    Host.Outcome State Fault Refusal :=
  s.onDev (fun d => d.actionRow r [actWord 12 0 c, v, word (b2n add), 0])

/-! ## Judgement of a retraction (R403 to R405) -/

/-- A retracted action is judged against the acknowledgements seen, with its compensation and the end of
a hold or abort (R403 to R406). -/
def Dev.judgeRetraction (d : Dev) (r id : Nat) : Dev :=
  match (d.recipe r).staged.find? (fun e => e.retr && e.id = id) with
  | none => d
  | some e =>
    let d := (d.updRecipe r (fun x => { x with staged := x.staged.filter (fun y => ! (y.retr && y.id = id)) })).useId id
    let d := match e.ack with
      | some false => (d.updRecipe r (fun x => { x with prevented := x.prevented ++ [e.act] })).toNote r 2 e
      | some true => d.toNote r 3 e
      | none =>
        ((d.setB R.AT_EVT.retract_late true).event 4 (R.AT_RCP_EVT.retract_late r) r
          [word e.stn, word e.id]).toNote r 4 e
    let k := (d.stepRec r e.step).comp
    let d := if e.ack ≠ some false ∧ e.comp ∧ k ≠ 0xFFF ∧ ! (d.recipe r).comps.contains e.step then
        let d := (d.updRecipe r (fun x => { x with comps := x.comps ++ [e.step] })).setB (R.AT_RCP_EVT.comp r) true
        Dev.rcpAfter (d.runBlock r k) r
      else d
    (d.rcpShow r).rcpSettle r

/-- RETRACTION_JUDGEMENT (R403). -/
def execRetractionJudgement (r : Fin 64) (id : Fin 32768) (s : State) : Host.Outcome State Fault Refusal :=
  s.onDev (fun d => d.judgeRetraction r id)

/-- An RA acknowledgement of a station is noted on what it retracts (R184, R356, R403). -/
def Dev.raAck (d : Dev) (s id : Nat) (fired : Bool) : Dev :=
  let d := { d with rcp := { d.rcp with rcps := d.rcp.rcps.map (fun (p : Nat × RcpSt) => (p.1, { p.2 with
    staged := p.2.staged.map (fun (e : StagedTo) =>
      if e.stn = s ∧ e.id = id ∧ e.retr ∧ e.ack.isNone then { e with ack := some fired } else e) })) } }
  { d with cmps := d.cmps.map (fun (p : Nat × CmpSt) =>
      if d.fld (R.AX_CMP_CFG.stn p.1) = s then (p.1, { p.2 with
        staged := p.2.staged.map (fun (e : CmpEntry) =>
          if e.id = id ∧ e.retr ∧ e.ack.isNone then { e with ack := some fired } else e) })
      else p) }

/-! ## The journal in MRAM (R418, R419) -/

/-- JOURNAL_COMMIT: the oldest queued entry is written with the next sequence number and its CRC; a
failure is recorded and the entry is given up (R419). -/
def execJournalCommit (ok : Bool) (s : State) : Host.Outcome State Fault Refusal :=
  s.onDev (fun d =>
    match d.rcp.queue with
    | [] => d
    | e :: t =>
      let d := { d with rcp := { d.rcp with queue := t } }
      if ok then
        let seq := d.nv.jnlSeq + 1
        let ws := (setNth e.words 1 seq).take 31
        let e : JnlEntry := { words := ws ++ [crc32 (wordsBytes ws)] }
        ({ d with nv := { d.nv with
            jnlSeq := seq, journal := Sparse.insert d.nv.journal (seq.toNat % 4096) e } }).wr
          R.AT_JNL_SEQ.adr seq
      else (d.event 2 R.AT_EVT.jnl_err e.recipe).logErr 5 reqAtelier 0)

end Sys2Proof.Machine
end

