-- ==== Sys2Proof/Machine/Feedback.lean ====
section
/-! DEFINITION. The decoders of the axes: quadrature position and speed, Hall decoding, and the angles
and speeds that they deliver (chapter 10, R279). -/

namespace Sys2Proof.Machine

/-! ## Quotients and angles -/

/-- A quotient whose divisor may be 0, where the rule that forms it states no result: a free value.
DESIGN CHOICE, log entry 8. -/
def quot (rule : Nat) (x y : Rat) : Rat :=
  if y = 0 then ((Config.openValue rule [x.num, x.den]) : Rat) else x / y

/-- An angle brought into one turn of 65,536. -/
def turn (x : Rat) : Rat := x - ((x / 65536).floor * 65536 : Int)

/-- A difference of angles brought into the range from -32,768 to below 32,768 (R284). -/
def wrapA (x : Rat) : Rat := turn (x + 32768) - 32768

/-- The cosine of an angle of 65,536 to the turn. -/
def cosA (x : Rat) : Rat := Config.cos (turn x / 65536)

/-- The sine of an angle of 65,536 to the turn. -/
def sinA (x : Rat) : Rat := Config.sin (turn x / 65536)

/-- The size of a number. -/
def absR (x : Rat) : Rat := if x < 0 then -x else x

/-- The smaller of two numbers. -/
def minR (x y : Rat) : Rat := if x < y then x else y

/-- The larger of two numbers. -/
def maxR (x y : Rat) : Rat := if x < y then y else x

/-- A number confined to a symmetric range. -/
def clampR (lim x : Rat) : Rat := if lim < x then lim else if x < -lim then -lim else x

/-- The sign of a number. -/
def sgnR (x : Rat) : Rat := if 0 < x then 1 else if x < 0 then -1 else 0

/-! ## The slot -/

/-- The options of an axis's slot in the mode in force: axopt (R156). -/
def Dev.axopt (d : Dev) (a : Nat) : Nat :=
  let k := d.fld (R.AX_CFG.slot a)
  match d.stCfg? (d.fld (R.AX_CFG.stn a)) d.sched with
  | some c => c.f 2 (8 * k + 7) (8 * k)
  | none => 0

/-- The slot has quadrature fitted (R156). -/
def Dev.quadFitted (d : Dev) (a : Nat) : Bool := d.axopt a / 4 % 2 == 1

/-- The slot has Hall sensors fitted (R156). -/
def Dev.hallFitted (d : Dev) (a : Nat) : Bool := d.axopt a / 8 % 2 == 1

/-- TIM_TICK in seconds. -/
def Dev.tickSec (d : Dev) : Rat := (d.time.tickNs : Rat) / 1000000000

/-! ## Quadrature (R333 to R336) -/

/-- A fresh quadrature sample is decoded (R333, R335). Before a second sample there is no increment, and
the speeds stay as they are. -/
def Dev.quadSample (d : Dev) (a : Nat) : Dev :=
  let x := d.dec a
  let pos := d.axPos a
  match x.fresh with
  | none => d.updDec a (fun x => { x with pos := pos, cnt := pos.toInt })
  | some m =>
    let df := (pos - x.pos).toInt
    let raw := (df : Rat) / (((d.tick - m : Nat) : Rat) * d.tickSec)
    let vf := x.vf + (raw - x.vf) / (2 ^ d.fldT (R.AX_FB_CFG.spd_flt a) : Nat)
    d.updDec a (fun x => { x with pos := pos, cnt := (BitVec.ofInt 64 (x.cnt + df)).toInt, vraw := raw, vf := vf })

/-- The illegal transitions of a servo cell since the last fresh sample; true where they declare
ROTOR_LOST for the encoder in use (R336). -/
def Dev.illSample (d : Dev) (a : Nat) : Dev × Bool :=
  let ill := bits (nthW (d.axFb a) 3) 23 16
  let x := d.dec a
  let di := if x.fresh.isSome then (ill + 256 - x.ill) % 256 else 0
  let lim := d.fldT (R.AX_FB_CFG.ill_lim a)
  let d := d.updDec a (fun x => { x with ill := ill })
  if di = 0 then (d, false)
  else
    ((d.bump (R.AX_FB_STAT.ill_tot a) di).setB (R.AX_FB_EVT.ill a) true,
     lim != 0 && decide (lim ≤ di) && d.fld (R.AX_STATE.ang_use a) == 1)

/-! ## Hall decoding (R337 to R341) -/

/-- The sector of a Hall code; none: invalid (R337). -/
def hallSector (h : Nat) : Option Nat :=
  match h with
  | 1 => some 0 | 3 => some 1 | 2 => some 2 | 6 => some 3 | 4 => some 4 | 5 => some 5
  | _ => none

/-- Boundary B_k, not reduced to one turn; B_6 is B_0 + 65,536 (R337). -/
def Dev.hallBound (d : Dev) (a k : Nat) : Nat := d.fldT (R.AX_FB_CFG.hall_ofs a) + k * 65536 / 6

/-- An edge is counted: its time is the midpoint of the interval since the last fresh sample, and two
edges in one direction give the speed (R338, R340). -/
def DecSt.edge (x : DecSt) (now : Rat) (n m tickNs k : Nat) (dir : Int) : DecSt :=
  let te := now - ((n - m : Nat) : Rat) * tickNs / 2
  let iv := match x.edgeAt with
    | some t => if x.edgeDir = dir ∧ t < te then some (te - t) else none
    | none => none
  { x with
    sector := some k, hcnt := x.hcnt + dir, edgeAt := some te, edgeIv := iv, edgeDir := dir, edgeTick := n,
    wh := match iv with
      | some v => (dir : Rat) * 65536 / 6 * 1000000000 / v
      | none => 0 }

/-- A fresh Hall code: what changed since the last valid one, the flags, and whether eight invalid codes in
a row declare ROTOR_LOST for the Hall angle in use (R337 to R339). -/
def Dev.hallSample (d : Dev) (a : Nat) : Dev × Bool :=
  let h := bits (nthW (d.axFb a) 3) 11 9
  let d := d.set (R.AX_FB_STAT.hall a) h
  match hallSector h with
  | none =>
    let d := (d.setB (R.AX_FB_EVT.h_inv a) true).setB (R.AX_FB_STAT.h_valid a) false
    let run := min 8 ((d.dec a).invRun + 1)
    (d.updDec a (fun x => { x with invRun := run }), run == 8 && d.fld (R.AX_STATE.ang_use a) == 2)
  | some k =>
    let d := ((d.setB (R.AX_FB_STAT.h_valid a) true).set (R.AX_FB_STAT.sector a) k).updDec a (fun x =>
      { x with invRun := 0 })
    let x := d.dec a
    let m := x.fresh.getD d.tick
    match x.sector with
    | none => (d.updDec a (fun x => { x with sector := some k }), false)
    | some o =>
      if k = o then (d, false)
      else if k = (o + 1) % 6 then (d.updDec a (fun x => x.edge d.now d.tick m d.time.tickNs k 1), false)
      else if o = (k + 1) % 6 then (d.updDec a (fun x => x.edge d.now d.tick m d.time.tickNs k (-1)), false)
      else
        ((d.setB (R.AX_FB_EVT.h_ill a) true).updDec a (fun x => { x with
          sector := some k, edgeAt := none, edgeIv := none, edgeDir := 0, wh := 0 }), false)

/-- The Hall speed as time passes without an edge (R340). -/
def Dev.hallDecay (d : Dev) (a : Nat) : Dev :=
  let d := d.updDec a (fun x =>
    match x.edgeAt with
    | none => x
    | some t =>
      let dt := (d.now : Rat) - t
      if x.edgeTick + 64 ≤ d.tick then { x with wh := 0 }
      else
        match x.edgeIv with
        | some iv => if iv < dt then { x with wh := sgnR x.wh * 65536 / 6 * 1000000000 / dt } else x
        | none => x)
  d.set (R.AX_FB_STAT.edge_age a)
    (match (d.dec a).edgeAt with
     | some _ => satN 8 (d.tick - (d.dec a).edgeTick)
     | none => if (d.dec a).edgeTick = 0 then 255 else satN 8 (d.tick - (d.dec a).edgeTick))

/-- The Hall angle at tick n (R341). -/
def Dev.hallAngle (d : Dev) (a n : Nat) : Rat :=
  let x := d.dec a
  let k := x.sector.getD 0
  let b0 : Rat := d.hallBound a k
  let b1 : Rat := d.hallBound a (k + 1)
  if x.wh = 0 then turn (b0 + 5461)
  else
    let dt := ((n * d.time.tickNs : Nat) - x.edgeAt.getD 0) / 1000000000
    if 0 < x.wh then turn (minR b1 (b0 + x.wh * dt)) else turn (maxR b0 (b1 + x.wh * dt))

/-! ## Angle, speed and position by source -/

/-- The encoder angle (R279). -/
def Dev.encAngle (d : Dev) (a : Nat) : Rat :=
  let cpr : Int := d.fldT (R.AX_ENC_CPR.cpr a)
  let pp : Int := d.fld (R.AX_CFG.pp a)
  let e := (quot 279 ((pp * ((d.dec a).cnt % cpr) * 65536 : Int) : Rat) (cpr : Rat)).floor
  (((d.fldT (R.AX_ENC_OFS.ofs a) : Int) + e) % 65536 : Int)

/-- The encoder speed in rpm (R335). DEDUCED, log entry 20. -/
def Dev.encSpeed (d : Dev) (a : Nat) : Rat :=
  quot 335 ((d.dec a).vf * 60) ((d.fldT (R.AX_ENC_CPR.cpr a) : Nat) : Rat)

/-- An electrical speed of 65,536 to the turn a second, in mechanical rpm (R341). -/
def Dev.mechRpm (d : Dev) (a : Nat) (w : Rat) : Rat :=
  quot 341 (w * 60 / 65536) ((d.fld (R.AX_CFG.pp a) : Nat) : Rat)

/-- The electrical speed in rad/s of a mechanical speed in rpm (R265). -/
def Dev.elecRad (d : Dev) (a : Nat) (rpm : Rat) : Rat :=
  rpm / 60 * 2 * Config.pi * (d.fld (R.AX_CFG.pp a) : Nat)

/-- The position of a fresh sample in pu: from the extended count with quadrature fitted, from the Hall
count without (R334, R341). -/
def Dev.decPos (d : Dev) (a : Nat) : Int :=
  let x := d.dec a
  let pofs := d.sfldT (R.AX_FB_POFS.pofs a)
  if d.quadFitted a then
    (quot 334 (x.cnt * 65536 : Int) ((d.fldT (R.AX_ENC_CPR.cpr a) : Nat) : Rat)).floor + pofs
  else (quot 341 (x.hcnt * 65536 : Int) ((6 * d.fld (R.AX_CFG.pp a) : Nat) : Rat)).floor + pofs

/-- What one tick of decoding brought. -/
structure Decoded where
  /-- The device with the decoder moved on. -/
  dev : Dev
  /-- The encoder in use has lost the rotor (R336). -/
  encLost : Bool
  /-- The Hall sensors in use have lost the rotor (R339). -/
  hallLost : Bool
  deriving DecidableEq, Repr

/-- The decoder of an axis in the present tick: a fresh sample is decoded once; on an aged slot the
position advances with the filtered speed (R333 to R341). DEDUCED, log entry 20. -/
def Dev.decode (d : Dev) (a : Nat) : Decoded :=
  let servo := d.akind a == 1
  if d.effAge (d.fld (R.AX_CFG.stn a)) = 0 then
    if (d.dec a).fresh = some d.tick then ⟨d, false, false⟩
    else
      let d := if d.quadFitted a then d.quadSample a else d
      let (d, encLost) := if servo then d.illSample a else (d, false)
      let edges := (d.dec a).hcnt
      let (d, hallLost) := if servo ∧ d.hallFitted a then d.hallSample a else (d, false)
      let d := if servo ∧ d.hallFitted a then d.hallDecay a else d
      let seen := ((d.dec a).hcnt - edges).natAbs
      let d := d.updDec a (fun x => { x with fresh := some d.tick })
      let p := d.decPos a
      ⟨d.updAx a (fun x => { x with hyPos := p, hallEdges := min 2 (x.hallEdges + seen) }), encLost, hallLost⟩
  else
    let adv := if d.quadFitted a ∧ (d.dec a).fresh.isSome then
        quot 334 ((d.dec a).vf * 65536) ((d.fldT (R.AX_ENC_CPR.cpr a) : Nat) : Rat) * d.tickSec
      else 0
    ⟨d.updAx a (fun x => { x with hyPos := x.hyPos + adv }), false, false⟩

end Sys2Proof.Machine
end

