-- ==== Sys2Proof/Machine/Servo.lean ====
section
/-! DEFINITION. The servo job: angle sources and their estimators, plausibility, current, speed and
position loops, modulation, and the transitions that the job finds (chapter 8). -/

namespace Sys2Proof.Machine

/-- A number brought to Q15 of a base by rounding toward minus infinity, saturated (R230). -/
def q15Of (x base : Rat) : Int := satI 16 (quot 265 (x * 32768) base).floor

/-- A class-4 event whose bit was not set before: what a cell reports in tick after tick is one event. -/
def Dev.eventOnce (d : Dev) (f : Fld) (idx : Nat) : Dev := if d.flag f then d else d.event 4 f idx

/-! ## Bases and parameters (R265) -/

/-- Full scale of the phase current, A. -/
def Dev.axIfs (d : Dev) (a : Nat) : Rat :=
  (bits (nthW (d.head (d.fld (R.AX_CFG.stn a))).ident 7) 15 0 : Rat) / 100

/-- Full scale of the DC-link voltage, V. -/
def Dev.axUdcFs (d : Dev) (a : Nat) : Rat :=
  (bits (nthW (d.head (d.fld (R.AX_CFG.stn a))).ident 7) 31 16 : Rat) / 10

/-- The cell's dead time, ns. -/
def Dev.axDead (d : Dev) (a : Nat) : Rat := (bits (nthW (d.head (d.fld (R.AX_CFG.stn a))).ident 8) 15 0 : Rat)

/-- Voltage base, V. -/
def Dev.axVb (d : Dev) (a : Nat) : Rat := (d.fldT (R.AX_BASE.v_base a) : Rat) / 10

/-- Speed base, rpm. -/
def Dev.axNb (d : Dev) (a : Nat) : Rat := (d.fldT (R.AX_BASE.n_base a) : Rat)

/-- Phase resistance, ohm. -/
def Dev.axRs (d : Dev) (a : Nat) : Rat := (d.fldT (R.AX_MOT_R.r_mohm a) : Rat) / 1000

/-- Magnet flux linkage, Vs. -/
def Dev.axPsi (d : Dev) (a : Nat) : Rat := (d.fldT (R.AX_MOT_R.psi a) : Rat) / 100000

/-- L_d, H. -/
def Dev.axLd (d : Dev) (a : Nat) : Rat := (d.fldT (R.AX_MOT_L.ld_uh a) : Rat) / 1000000

/-- L_q, H. -/
def Dev.axLq (d : Dev) (a : Nat) : Rat := (d.fldT (R.AX_MOT_L.lq_uh a) : Rat) / 1000000

/-- The speed limit, rpm. -/
def Dev.axNlim (d : Dev) (a : Nat) : Rat :=
  ((d.fldT (R.AX_LIM.n_lim a) % 32768 : Nat) : Rat) / 32768 * d.axNb a

/-- The apply offset of the frame of a tick on the axis's line, ns. -/
def Dev.axApply (d : Dev) (a n : Nat) : Rat := (d.applyAt (d.stLine (d.fld (R.AX_CFG.stn a))) n : Rat)

/-- The PWM period, ns (R173). -/
def Dev.axPwm (d : Dev) (a : Nat) : Rat :=
  let half := match d.stCfg? (d.fld (R.AX_CFG.stn a)) d.cmdMode with
    | some c => c.f 1 0 0 == 1
    | none => false
  if half then (d.time.tickNs : Rat) / 2 else (d.time.tickNs : Rat)

/-! ## Two-component quantities -/

/-- A vector turned into the frame of an angle: d and q components (R267). -/
def park (x : Rat × Rat) (th : Rat) : Rat × Rat :=
  (x.1 * cosA th + x.2 * sinA th, -(x.1 * sinA th) + x.2 * cosA th)

/-- A vector of a frame at an angle turned back to alpha and beta (R272). -/
def unpark (x : Rat × Rat) (th : Rat) : Rat × Rat :=
  (x.1 * cosA th - x.2 * sinA th, x.1 * sinA th + x.2 * cosA th)

/-- The measured currents in A, alpha and beta (R267). -/
def Dev.axCurrents (d : Dev) (a : Nat) : Rat × Rat :=
  let w := d.axFb a
  let q := fun (v : Nat) => ((signed 16 v : Int) : Rat) / 32768 * d.axIfs a
  let iu := q (bits (nthW w 0) 15 0)
  let iv := q (bits (nthW w 0) 31 16)
  let iw := q (bits (nthW w 1) 15 0)
  ((2 * iu - iv - iw) / 3, (iv - iw) / Config.sqrt 3)

/-- The DC-link voltage, V (R163). -/
def Dev.axUdc (d : Dev) (a : Nat) : Rat := (bits (nthW (d.axFb a) 1) 31 16 : Rat) / 65536 * d.axUdcFs a

/-- The mean voltage between T(n - 1) and T(n), alpha and beta (R285). -/
def Dev.vBar (d : Dev) (a : Nat) (c : AxCtl) : Rat × Rat :=
  let w := d.axApply a d.tick / d.time.tickNs
  let v3 := c.volts.getD 2 {}
  let v2 := c.volts.getD 1 {}
  (w * v3.alpha + (1 - w) * v2.alpha, w * v3.beta + (1 - w) * v2.beta)

/-! ## The sensorless estimators (R281 to R284) -/

/-- Crossover speed and half-width of the blend, in units of 65,536 electrical turns a second. -/
def Dev.axCross (d : Dev) (a : Nat) : Rat × Rat :=
  let k : Rat := (d.fld (R.AX_CFG.pp a) : Rat) * 65536 / 60
  ((d.fldT (R.AX_SL.x_spd a) : Rat) * k, (d.fldT (R.AX_SL.band a) : Rat) * k)

/-- The weight of the observer angle (R284); during a catch the method in use stands alone (R290). -/
def Dev.blend (d : Dev) (a : Nat) (wHat : Rat) : Rat :=
  if d.astate a = aCatching then (if (d.ax a).catchInj then 0 else 1)
  else
    let (x, b) := d.axCross a
    let w := if b = 0 then (if x ≤ absR wHat then 1 else 0) else (absR wHat - (x - b)) / (2 * b)
    maxR 0 (minR 1 w)

/-- The filter lag of the observer, as an angle (R283). -/
def Dev.obsLag (d : Dev) (a : Nat) (wHat : Rat) : Rat :=
  wrapA (Config.atan2 (wHat * 2 * Config.pi / 65536)
    (2 * Config.pi * (d.fldT (R.AX_OBS.obs_bw a) : Rat)) * 65536)

/-- One tick of the estimators on a fresh sample, with the error that drove them; on repeated feedback the
angles go on with the speed (R281, R283, R297). -/
def Dev.estimate (d : Dev) (a : Nat) (c : AxCtl) (i v : Rat × Rat) (fresh : Bool) : AxCtl × Rat :=
  let t := d.tickSec
  let u := 65536 / (2 * Config.pi)
  let thO := turn (c.thO + c.wHat * t)
  let thH := turn (c.thH + c.wHat * t)
  if ! fresh then ({ c with thO := thO, thH := thH }, c.epsLast)
  else
    let rs := d.axRs a
    let lq := d.axLq a
    let ld := d.axLd a
    let g := 1 - Config.exp (-(2 * Config.pi * (d.fldT (R.AX_OBS.obs_bw a) : Rat) * t))
    let e := fun (e v i i0 : Rat) => e + g * (v - rs * i - lq * (i - i0) / t - e)
    let eA := e c.eA v.1 i.1 c.iaPrev
    let eB := e c.eB v.2 i.2 c.ibPrev
    let epsO := quot 283 (-(eA * cosA thO) - eB * sinA thO) (Config.sqrt (eA * eA + eB * eB))
    let m := if d.axApply a d.tick * 2 ≤ d.time.tickNs then 1 else 2
    let inj := (c.volts.getD m {}).inj
    let vInj := ((d.sfldT (R.AX_HFI.v_inj a) : Int) : Rat) / 32768 * d.axVb a
    let kh := quot 281 (vInj * t * (lq - ld)) (2 * ld * lq)
    let epsH := if inj = 0 then 0
      else quot 281 ((inj : Rat) * ((park i thH).2 - (park (c.iaPrev, c.ibPrev) c.thH).2)) kh
    let w := d.blend a c.wHat
    let eps := epsH + w * (epsO - epsH)
    let wp := 2 * Config.pi * (d.fldT (R.AX_OBS.pll_bw a) : Rat)
    let kp := 2 * wp * t
    let ki := wp * wp * t * t
    let wHat := c.wHat + ki * eps * u
    let thO' := turn (c.thO + wHat * t + kp * epsO * u)
    ({ c with
        eA := eA, eB := eB, wHat := wHat, thO := thO',
        thH := if inj = 0 then turn (thO' + d.obsLag a wHat) else turn (c.thH + wHat * t + kp * epsH * u),
        epsLast := eps }, eps)

/-! ## Angle and speed of a source (R279 to R284, R297) -/

/-- Angle and speed in rpm that a source gives in the present tick: 1 encoder, 2 Hall, 3 sensorless. On aged
feedback the angle has advanced with the speed. -/
def Dev.srcRead (d : Dev) (a : Nat) (c : AxCtl) (src : Nat) : Rat × Rat :=
  let n := (d.dec a).fresh.getD d.tick
  let adv := fun (rpm : Rat) => rpm / 60 * (d.fld (R.AX_CFG.pp a) : Nat) * 65536 * ((d.tick - n : Nat) : Rat) * d.tickSec
  if src = 1 then let v := d.encSpeed a; (turn (d.encAngle a + adv v), v)
  else if src = 2 then let v := d.mechRpm a (d.dec a).wh; (turn (d.hallAngle a n + adv v), v)
  else if src = 3 then
    (turn (c.thH + d.blend a c.wHat * wrapA (c.thO + d.obsLag a c.wHat - c.thH)), d.mechRpm a c.wHat)
  else (0, 0)

/-- A source is fitted (R286). -/
def Dev.srcFitted (d : Dev) (a src : Nat) : Bool :=
  (src == 1 && d.quadFitted a) || (src == 2 && d.hallFitted a) || src == 3

/-- The plausibility residual of a source, in A: the currents against those predicted from the last tick in
the frame of the source's last angle (R285). -/
def Dev.residual (d : Dev) (a : Nat) (c : AxCtl) (i v : Rat × Rat) (th th0 we0 : Rat) : Rat :=
  let now := park i th
  let old := park (c.iaPrev, c.ibPrev) th0
  let vb := park v th0
  let rs := d.axRs a
  let ld := d.axLd a
  let lq := d.axLq a
  let idp := old.1 + quot 285 d.tickSec ld * (vb.1 - rs * old.1 + we0 * lq * old.2)
  let iqp := old.2 + quot 285 d.tickSec lq * (vb.2 - rs * old.2 - we0 * (ld * old.1 + d.axPsi a))
  maxR (absR (now.1 - idp)) (absR (now.2 - iqp))

/-! ## What the cell reports (R294, R299) -/

/-- The faults of a servo cell's report. -/
def servoFaults (w3 : Word) : List StFault :=
  (if bit w3 2 then [.oc] else []) ++ (if bit w3 3 then [.ov] else []) ++ (if bit w3 5 then [.ot] else []) ++
  (if bit w3 4 then [.uv] else []) ++ (if bit w3 8 then [.enc] else []) ++ (if bit w3 6 then [.wd] else [])

/-- A fault that the axis takes as its cell's: Fault from Catching to Coasting (R299). -/
def StFault.trips (f : StFault) : Bool := f == .oc || f == .ov || f == .ot || f == .wd

/-- The report of a fresh sample: noted for resets, shown, and acted on (R174, R294, R299, R330). -/
def Dev.cellReport (d : Dev) (a : Nat) (faults : List StFault) (sto trip : Bool) : Dev :=
  let d := d.updAx a (fun x => { x with cell := faults, cellSto := sto })
  let d := if trip ∨ faults.contains .uv then d.eventOnce (R.AX_EVT.cell a) a else d
  let d := if sto then d.axSafeOff a else d
  if trip ∧ aCatching ≤ d.astate a ∧ d.astate a ≤ aCoasting then d.axFault a else d

/-! ## ROTOR_LOST (R285 to R289) -/

/-- ROTOR_LOST is declared: the fallback source is taken where it is usable, else a sensorless axis coasts and
another takes Fault. The control state is turned with the angle. -/
def Dev.rotorLost (d : Dev) (a : Nat) (c : AxCtl) (th thFb : Rat) (fbOk : Bool) : Dev × AxCtl :=
  let d := (d.event 4 (R.AX_EVT.rotor_lost a) a).bump (R.AX_CNT.losses a)
  let d := d.updAx a (fun x => { x with plaus := 0, goodTicks := 0 })
  if ! d.flag (R.AX_STATE.fb_used a) ∧ fbOk then
    let df := th - thFb
    let x := unpark ((c.accD : Rat), (c.accQ : Rat)) df
    ((d.set (R.AX_STATE.ang_use a) (d.fld (R.AX_CFG.ang_fb a))).setB (R.AX_STATE.fb_used a) true,
     { c with accD := satI 40 x.1.floor, accQ := satI 40 x.2.floor })
  else if d.fld (R.AX_STATE.ang_use a) = 3 then (d.axEnter a aCoasting, c)
  else (d.axFault a, c)

/-! ## Catching (R282, R290, R291) -/

/-- The polarity test after its eighth and sixteenth tick; the test is over at a count of 17 (R282). -/
def Dev.polarity (d : Dev) (a : Nat) (c : AxCtl) (id : Rat) : Dev × AxCtl :=
  let x := d.ax a
  if ! x.catchInj ∨ x.polTick = 17 then (d, c)
  else if x.polTick = 0 then (d.updAx a (fun x => { x with polTick := 1, polStart := id }), c)
  else
    let k := x.polTick + 1
    let d := d.updAx a (fun x => { x with polTick := k })
    if k = 9 then (d.updAx a (fun x => { x with polRise := id - x.polStart, polStart := id }), c)
    else if k = 17 ∧ absR x.polRise < absR (id - x.polStart) then
      (d, { c with thH := turn (c.thH + 32768), thO := turn (c.thO + 32768) })
    else (d, c)

/-- One tick of a catch: the condition of its source (R290). -/
def Dev.catchTick (d : Dev) (a : Nat) (c : AxCtl) (eps id : Rat) (fresh : Bool) : Dev × AxCtl × Bool :=
  let x := d.ax a
  let src := d.fld (R.AX_STATE.ang_use a)
  let gone := d.tick - x.stateTick
  if src = 1 then (d, c, fresh)
  else if src = 2 then
    (d, c, decide (2 ≤ x.hallEdges) ||
      (decide (64 ≤ gone) && decide (64 ≤ d.tick - max x.stateTick (d.dec a).edgeTick)))
  else
    let d := if 64 ≤ gone ∧ ! x.catchInj ∧ absR c.wHat < (d.axCross a).1 then
        d.updAx a (fun x => { x with catchInj := true, epsGood := 0 })
      else d
    let testing := (d.ax a).catchInj && (d.ax a).polTick != 17
    let (d, c) := d.polarity a c id
    let good := if absR eps ≤ 1 / 20 ∧ ! testing ∧ fresh then min 32 ((d.ax a).epsGood + 1) else 0
    (d.updAx a (fun x => { x with epsGood := good }), c, good == 32)

/-! ## References (R273 to R277, R319, R586) -/

/-- One tick of the ramp toward a target; a ramp that reaches zero on its way ends the tick there (R273).
DEDUCED, log entry 19. -/
def ramp (wr wt acc dec : Rat) : Rat :=
  if wr * wt < 0 ∨ absR wt < absR wr then
    let stop := if wr * wt < 0 then 0 else wt
    if stop < wr then maxR stop (wr - dec) else minR stop (wr + dec)
  else if wr < wt then minR wt (wr + acc) else maxR wt (wr - acc)

/-- The target of the external reference, rpm (R277). -/
def Dev.extTarget (d : Dev) (a : Nat) : Rat :=
  let x : Rat := ((signed 16 (bits (nthW (d.axFb a) 4) 15 0) : Int) : Rat) / 32768
  let b : Rat := (d.fldT (R.AX_EXT.db a) : Rat) / 32768
  if absR x ≤ b then 0
  else clampR (d.axNlim a) (sgnR x * (d.fldT (R.AX_EXT.n_fs a) : Rat) * quot 277 (absR x - b) (1 - b))

/-- The profile step that an axis job of the present tick uses, in pu and rev/s, with the count of missing
steps (R302, R319). -/
def Dev.stepUsed (d : Dev) (a : Nat) : Dev × Rat × Rat × Rat :=
  let p := d.prf a
  match p.cur with
  | some s => (d.updAx a (fun x => { x with lostRun := 0 }), (s.pref : Rat), (s.vref : Rat) / 2 ^ 32, (s.aref : Rat) / 2 ^ 32)
  | none =>
    let d := (d.setB (R.AX_PRF_EVT.late a) true).updAx a (fun x => { x with lostRun := min 15 (x.lostRun + 1) })
    match p.last with
    | some s =>
      let v : Rat := (s.vref : Rat) / 2 ^ 32
      (d, s.pref + ((d.tick - s.tick : Nat) : Rat) * v * 65536 * d.tickSec, v, 0)
    | none => (d, (d.ax a).hyPos, 0, 0)

/-- The speed reference of a tick in which the axis is driven (R273, R275, R276, R291, R292, R586). -/
def Dev.speedRef (d : Dev) (a : Nat) (c : AxCtl) (caught : Bool) (rpm : Rat) : Dev × Rat :=
  let st := d.astate a
  let k : Rat := (d.time.tickNs : Rat) / 1000000
  let acc := (d.fldT (R.AX_RAMP.acc a) : Rat) * k
  let dec := (d.fldT (R.AX_RAMP.dec a) : Rat) * k
  let src := d.fldT (R.AX_REF.src a)
  if caught then (d, rpm)
  else if st = aReleasing ∨ st = aStopping then (d, ramp c.wr 0 acc dec)
  else if src = 0 then
    let (d, pref, vref, _) := d.stepUsed a
    let kpp : Rat := (d.fldT (R.AX_POS_KP.kpp a) : Rat) / 100
    let kv : Rat := (d.fldT (R.AX_LOOP.kv_ff a) : Rat) / 32768
    (d, clampR (d.axNlim a) ((kpp * (pref - (d.ax a).hyPos) / 65536 + kv * vref) * 60))
  else
    let t := if d.rmode = mHold then 0
      else if src = 1 then clampR (d.axNlim a) (((d.sfldT (R.AX_SPD_CMD.cmd a) : Int) : Rat) / 1000)
      else d.extTarget a
    (d, ramp c.wr t acc dec)

/-! ## The loops (R267 to R272, R274) -/

/-- Full scale of an accumulator in its quarter scale: what a voltage of v_base is as Q9.30 (R268). -/
def quarterRaw (v vb : Rat) : Rat := quot 268 (v * 2 ^ 28) vb

/-- The current reference of the speed loop and the integrator after it, and whether the limit acted (R270,
R274). Values are Q15. -/
def Dev.speedLoop (d : Dev) (a : Nat) (c : AxCtl) (wr rpm : Rat) (idRef : Int) (hold : Bool) :
    Int × AxCtl × Bool :=
  let e := q15Of (wr - rpm) (d.axNb a)
  let kp := d.sfldT (R.AX_SPD_PI.kp a)
  let ki := d.sfldT (R.AX_SPD_PI.ki a)
  let u := (kp * e + c.accW) * 2 ^ d.fldT (R.AX_LOOP.spd_sh a) / 32768
  let il : Int := (d.fldT (R.AX_LIM.i_lim a) % 32768 : Nat)
  let lim := (Config.sqrt (max 0 (il * il - idRef * idRef) : Int)).floor
  let iq := clampI (-lim) lim u
  let past := decide (iq ≠ u)
  let stay := hold || (past && ((decide (lim < u) && decide (0 < e)) || (decide (u < -lim) && decide (e < 0))))
  (iq, { c with accW := if stay then c.accW else c.accW + ki * e, eW := (1000 * (wr - rpm)).floor }, past)

/-- What the current loop gives: voltages in V and the integrators; whether a component was clamped (R267 to
R269). -/
def Dev.currentLoop (d : Dev) (a : Nat) (c : AxCtl) (i : Rat × Rat) (idRef iqRef : Int) (we : Rat) (hold : Bool) :
    (Rat × Rat) × AxCtl × Bool :=
  let vb := d.axVb a
  let ifs := d.axIfs a
  let one := fun (ref : Int) (x : Rat) (acc kp ki : Int) =>
    let e := satI 16 (ref - q15Of x ifs)
    let acc' := if hold then acc else acc + ki * e
    let v := satI 16 ((acc' + kp * e) * 4 / 32768)
    (e, acc', (v : Rat) / 32768 * vb)
  let kpd := d.sfldT (R.AX_CUR_KP.kp_d a)
  let kpq := d.sfldT (R.AX_CUR_KP.kp_q a)
  let (ed, accD, vd0) := one idRef i.1 c.accD kpd (d.sfldT (R.AX_CUR_KI.ki_d a))
  let (eq, accQ, vq0) := one iqRef i.2 c.accQ kpq (d.sfldT (R.AX_CUR_KI.ki_q a))
  let vdff := -(we * d.axLq a * i.2)
  let vqff := we * (d.axLd a * i.1 + d.axPsi a)
  let vmax := (d.fldT (R.AX_PWM.m_lim a) : Rat) / 65536 * d.axUdc a / Config.sqrt 3
  let vd := clampR vmax (vd0 + vdff)
  let vq := clampR (Config.sqrt (maxR 0 (vmax * vmax - vd * vd))) (vq0 + vqff)
  let back := fun (v ff : Rat) (kp e : Int) => satI 40 ((quarterRaw (v - ff) vb).floor - kp * e)
  let cd := decide (vd ≠ vd0 + vdff)
  let cq := decide (vq ≠ vq0 + vqff)
  ((vd, vq),
   { c with
      eD := ed, eQ := eq,
      accD := if cd ∧ ! hold then back vd vdff kpd ed else accD,
      accQ := if cq ∧ ! hold then back vq vqff kpq eq else accQ }, cd || cq)

/-- The switching times of the three phases from a voltage, as command words 1 to 3 (R271, R272). -/
def Dev.modulate (d : Dev) (a : Nat) (v : Rat × Rat) (iRef : Rat × Rat) : List Word :=
  let h3 := Config.sqrt 3 / 2
  let phases := fun (x : Rat × Rat) => [x.1, -(x.1 / 2) + h3 * x.2, -(x.1 / 2) - h3 * x.2]
  let vs := phases v
  let is_ := phases iRef
  let top := vs.foldl maxR v.1
  let low := vs.foldl minR v.1
  let udc := d.axUdc a
  let p := d.axPwm a
  let band := (d.fldT (R.AX_PWM.dtc_band a) : Rat) / 32768 * d.axIfs a
  (vs.zip is_).map (fun (x : Rat × Rat) =>
    let duty := 1 / 2 + quot 272 (x.1 - (top + low) / 2) udc
    let cmp := if d.flagT (R.AX_PWM.dtc_en a) then
        sgnR x.2 * (d.axDead a / 2) * (if absR x.2 < band then absR x.2 / band else 1)
      else 0
    let h := clampI 0 (p / 2).floor (duty * p / 2 + cmp).floor
    word (h.toNat * 65536 + h.toNat))

/-! ## The job (R266, R292, R297) -/

/-- Where an axis's command words stand in its station's command payload. -/
def Dev.axCmdCode? (d : Dev) (a : Nat) : Option Nat :=
  let n := if d.akind a = 1 then 4 else 3
  d.cmdCode? (d.fld (R.AX_CFG.stn a)) (1 + n * d.fld (R.AX_CFG.slot a))

/-- Words to post from a memory code of the Canvas on. -/
def postsAt (code : Nat) (ws : List Word) : List Posted :=
  ws.zipIdx.map (fun (p : Word × Nat) => { addr := code + 4 * p.2, bytes := wordBytes p.1 })

/-- The command words of a state without a switching bridge (R292). -/
def Dev.idleWords (d : Dev) (a : Nat) : List Word := [word (4 + 2 * b2n (d.ax a).brakeRel), 0, 0, 0]

/-- What the job of a driven axis computes after the angle: references, loops and switching times. -/
def Dev.servoDrive (d : Dev) (a : Nat) (c : AxCtl) (i : Rat × Rat) (th rpm : Rat) (hold caught : Bool) :
    Dev × AxCtl × List (Nat × Word) :=
  let st := d.astate a
  let x := d.ax a
  let we := d.elecRad a rpm
  let catching := st == aCatching
  let pol := d.sfldT (R.AX_HFI.i_pol a)
  let idRef : Int := if ! catching ∨ ! x.catchInj ∨ x.polTick = 0 ∨ x.polTick = 17 then 0
    else if x.polTick < 9 then pol else -pol
  let (d, wr) := if catching then (d, c.wr) else d.speedRef a c caught rpm
  let c := { c with wr := wr, accW := if caught then 0 else c.accW }
  let (iqRef, c, iLim) := if catching then (0, c, false) else d.speedLoop a c wr rpm idRef hold
  let d := if iLim then d.eventOnce (R.AX_EVT.i_lim a) a else d
  let idq := park i th
  let (v, c, vLim) := d.currentLoop a c idq idRef iqRef we hold
  let d := if vLim then d.eventOnce (R.AX_EVT.v_lim a) a else d
  let (xs, b) := d.axCross a
  let inj := d.fld (R.AX_STATE.ang_use a) == 3 && (! catching || x.catchInj) && decide (absR c.wHat < xs + b)
  let s : Int := if inj then (if d.tick % 2 = 0 then 1 else -1) else 0
  let vInj := ((d.sfldT (R.AX_HFI.v_inj a) : Int) : Rat) / 32768 * d.axVb a
  let d := d.setB (R.AX_STATE.inj a) inj
  let adv := (3 * (d.time.tickNs : Rat) / 2 + d.axApply a (d.tick + 1)) / 1000000000
  let thA := turn (th + rpm / 60 * (d.fld (R.AX_CFG.pp a) : Nat) * 65536 * adv)
  let vab := unpark (v.1 + (s : Rat) * vInj, v.2) thA
  let ifs := d.axIfs a
  let iRef := unpark ((idRef : Rat) / 32768 * ifs, (iqRef : Rat) / 32768 * ifs) thA
  let w0 := word (1 + 2 * b2n x.brakeRel + 4 * b2n x.fltClr)
  let c := { c with
    words := w0 :: d.modulate a vab iRef,
    volts := ({ alpha := vab.1, beta := vab.2, pwm := true, inj := s } :: c.volts).take 4 }
  (d, c, [(R.AX_I_FB.adr a, halves (q15Of idq.2 ifs) (q15Of idq.1 ifs)),
          (R.AX_V_OUT.adr a, halves (q15Of v.2 (d.axVb a)) (q15Of v.1 (d.axVb a))),
          (R.AX_I_REF.adr a, halves iqRef idRef)])

/-- Standstill while Stopping: the count of ticks, then the brake (R293). -/
def Dev.stopTick (d : Dev) (a : Nat) (still : Bool) (need : Nat) : Dev :=
  if d.astate a ≠ aStopping then d
  else
    let k := if still then (d.ax a).zeroTicks + 1 else 0
    let d := d.updAx a (fun x => { x with zeroTicks := k })
    if need ≤ k ∧ d.flag (R.AX_BRAKE.fitted a) ∧ (d.ax a).engTick.isNone then
      d.updAx a (fun x => { x with engTick := some d.tick, brakeRel := false })
    else d

/-- The servo job of an axis (R266): decoding, angle, supervision, then the loops while the axis is driven;
what it computes waits for its commit.
DEDUCED, log entry 7. DEDUCED, log entry 18. DEDUCED, log entry 19. DEDUCED, log entry 21. -/
def Dev.servoJob (d : Dev) (a : Nat) : Dev × LibCommit :=
  let stn := d.fld (R.AX_CFG.stn a)
  let age := d.effAge stn
  let fresh := age == 0
  let d := d.setB (R.AX_STATE.aged a) (! fresh)
  let r := d.decode a
  let d := r.dev
  let w3 := nthW (d.axFb a) 3
  let faults := servoFaults w3
  let d := if fresh then
      let d := if bit w3 13 then d.eventOnce (R.AX_EVT.clamp a) a else d
      d.cellReport a faults (bit w3 12) (faults.any StFault.trips)
    else d
  let c0 := (d.ax a).ctl
  let i := d.axCurrents a
  let v := d.vBar a c0
  let pri := d.fld (R.AX_CFG.ang_pri a)
  let fb := d.fld (R.AX_CFG.ang_fb a)
  let (c, eps) := if pri = 3 ∨ fb = 3 then d.estimate a c0 i v fresh else (c0, 0)
  let use := d.fld (R.AX_STATE.ang_use a)
  let (th, rpm) := d.srcRead a c use
  let (thF, rpmF) := d.srcRead a c fb
  let res := d.residual a c0 i v th c0.thPrev c0.wePrev
  let resF := d.residual a c0 i v thF c0.thFb c0.weFb
  let win := (d.fldT (R.AX_PLAUS.win a) : Rat) / 65536 * d.axIfs a
  let drv := fun (d : Dev) => decide (aCatching ≤ d.astate a) && decide (d.astate a ≤ aStopping)
  let counts := drv d && (c0.volts.getD 1 {}).pwm && (c0.volts.getD 2 {}).pwm
  let plaus := if ! counts then 0 else if ! fresh then (d.ax a).plaus
    else if win < res then satN 8 ((d.ax a).plaus + 1) else 0
  let d := d.updAx a (fun x => { x with plaus := plaus })
  let lost := drv d && (decide (d.fldT (R.AX_PLAUS.n a) ≤ plaus) || r.encLost || r.hallLost ||
    (fresh && use == 1 && bit w3 8))
  let (d, c) := if lost then d.rotorLost a c th thF (d.srcFitted a fb && decide (resF ≤ win)) else (d, c)
  let use := d.fld (R.AX_STATE.ang_use a)
  let (th, rpm) := if lost then d.srcRead a c use else (th, rpm)
  let idq := park i th
  let (d, c, done) := if d.astate a = aCatching then d.catchTick a c eps idq.1 fresh else (d, c, false)
  let d := if done then d.caught a else d
  let st := d.astate a
  let d := if st = aEnabled ∧ ! lost then
      d.updAx a (fun x => { x with goodTicks := min 1024 (x.goodTicks + 1) }) else d
  let nz := (d.fldT (R.AX_ZERO.n_zero a) : Rat) / 10
  let d := d.stopTick a (absR rpm ≤ nz) (d.fldT (R.AX_ZERO.t_zero a))
  let (d, c, regs) := if drv d then d.servoDrive a c i th rpm (! fresh) done
    else (d.setB (R.AX_STATE.inj a) false,
          { c with words := d.idleWords a, volts := (({} : VCmd) :: c.volts).take 4 }, [])
  let ifs := d.axIfs a
  let c := { c with
    iaPrev := i.1, ibPrev := i.2, thPrev := th, wePrev := d.elecRad a rpm, thFb := thF, weFb := d.elecRad a rpmF,
    resid := q15Of res ifs }
  let thP := (d.srcRead a c pri).1
  let diff := if fb = 0 then 0 else (wrapA (thP - thF)).floor
  let regs := regs ++
    [(R.AX_ANGLE.adr a, halves th.floor diff),
     (R.AX_FB_POS.adr a, wordI (d.ax a).hyPos.floor),
     (R.AX_FB_SPD.adr a, wordI (1000 * rpm).floor)]
  let past := fun (x : Int) => decide (satI 40 x ≠ x)
  let posts := match d.axCmdCode? a with
    | some k => postsAt k c.words
    | none => []
  (d, { axis := some (a, c), axSt := st, aov := past c.accD || past c.accQ || past c.accW,
        posts := posts, regs := regs })

end Sys2Proof.Machine
end

