-- ==== Sys2Proof/Machine/Profile.lean ====
section
/-! DEFINITION. The profile generator: plans of constant acceleration, their steps, the move queue,
stops and return motions (chapter 9, R302 to R318, R630). -/

namespace Sys2Proof.Machine

/-! ## Plans (R303, R311 to R315, R630) -/

/-- Phases (AX_PRF_STAT). -/
def fIdle : Nat := 0
/-- ACCEL. -/
def fAccel : Nat := 1
/-- CRUISE. -/
def fCruise : Nat := 2
/-- DECEL. -/
def fDecel : Nat := 3
/-- STOPPING. -/
def fStopping : Nat := 4
/-- RETURN. -/
def fReturn : Nat := 5

/-- The largest r below 2^k whose square does not exceed n. -/
def isqrt (n : Nat) : Nat → Nat → Nat
  | 0, r => r
  | k + 1, r => if (r + 2 ^ k) * (r + 2 ^ k) ≤ n then isqrt n k (r + 2 ^ k) else isqrt n k r

/-- The square root of a number as the generator keeps speeds: in steps of 2^-32 (R303). -/
def sqrtR (x : Rat) : Rat := ((isqrt (x * 2 ^ 64).floor.toNat 64 0 : Nat) : Rat) / 2 ^ 32

/-- What a plan does besides moving: R313 acts, or the profile will pass its target (R313, R314). -/
structure PPlan where
  /-- The stretches. -/
  segs : List PSeg
  /-- R313 acts. -/
  ovr : Bool := false
  /-- The target will be passed (R314). -/
  pass : Bool := false
  deriving DecidableEq, Repr

/-- A stretch that brings a speed to rest. -/
def brakeSeg (v d : Rat) (phase : Nat) : PSeg := { dur := some (v / d), acc := -d, phase := phase }

/-- The plan of a move from speed v toward a target s ahead (R311 to R314, R630). -/
def movePlan (s v a d vmax dlim : Rat) (decel : Bool) : PPlan :=
  if s = 0 ∧ v = 0 then { segs := [] }
  else if 2 * d * s < v * v then
    let past := decide (s ≤ 0) || decide (2 * dlim * s < v * v)
    { segs := [brakeSeg v (if past then dlim else v * v / (2 * s)) fDecel], ovr := true, pass := past }
  else if decel then
    if v = 0 then { segs := [] }
    else { segs := [{ dur := some ((s - v * v / (2 * d)) / v), acc := 0, phase := fDecel }, brakeSeg v d fDecel] }
  else
    let v1 := if vmax < v then vmax
      else if a = 0 then v
      else maxR v (minR vmax (sqrtR ((2 * a * d * s + d * v * v) / (a + d))))
    let one : PSeg := if vmax < v then { dur := some ((v - vmax) / d), acc := -d, phase := fAccel }
      else { dur := some (if a = 0 then 0 else (v1 - v) / a), acc := a, phase := fAccel }
    let s1 := (v + v1) / 2 * one.dur.getD 0
    let rest := maxR 0 (s - s1 - v1 * v1 / (2 * d))
    { segs := one :: (if v1 = 0 then [{ dur := none, acc := 0, phase := fCruise }]
        else [{ dur := some (rest / v1), acc := 0, phase := fCruise }, brakeSeg v1 d fDecel]) }

/-- A plan followed for a time: the way made, the speed reached, and whether the plan has ended. -/
def runSegs : List PSeg → Rat → Rat → Rat × Rat × Bool
  | [], _, v => (0, v, true)
  | g :: r, t, v =>
    match g.dur with
    | none => (v * t, v, false)
    | some u =>
      if u ≤ t then
        let (x, v', e) := runSegs r (t - u) (v + g.acc * u)
        (v * u + g.acc * u * u / 2 + x, v', e)
      else (v * t + g.acc * t * t / 2, v + g.acc * t, false)

/-- What is left of a plan after a time. -/
def dropSegs : List PSeg → Rat → List PSeg
  | [], _ => []
  | g :: r, t =>
    match g.dur with
    | none => g :: r
    | some u => if u ≤ t then dropSegs r (t - u) else { g with dur := some (u - t) } :: r

/-- The stretch that a plan is in: the first that lasts. -/
def nowSeg (l : List PSeg) : Option PSeg := l.find? (fun g => g.dur ≠ some 0)

/-- The direction of motion of a profile: of its speed, at rest toward its target. -/
def PrfSt.dir (p : PrfSt) : Int :=
  if 0 < p.v then 1 else if p.v < 0 then -1 else if p.p ≤ p.target * 65536 then 1 else -1

/-- Speed in rev/s, with its sign. -/
def PrfSt.speed (p : PrfSt) : Rat := (p.v : Rat) / 2 ^ 32

/-- The way left to the target along the direction of motion, rev. -/
def PrfSt.ahead (p : PrfSt) : Rat := ((p.target * 65536 - p.p) * p.dir : Int) / 2 ^ 32

/-- 10 rpm/s as rev/s². -/
def accRev (x : Nat) : Rat := (x : Rat) / 6

/-- The deceleration in force: the effective one, or the last one that was not 0 (R630). -/
def PrfSt.decNow (p : PrfSt) : Nat := if p.dEff = 0 then p.decUsed else p.dEff

/-- The plan of what runs, formed from the position and speed that the profile holds (R304). DEDUCED, log entry 17. -/
def PrfSt.plan (p : PrfSt) : PPlan :=
  let v := absR p.speed
  let d := accRev p.decNow
  if ! p.moving then { segs := [] }
  else if p.stopping then { segs := [brakeSeg v (accRev (max p.decNow p.stopDec)) fStopping] }
  else movePlan p.ahead v (accRev p.aEff) d (p.vEff / 60000) (accRev (if p.lEff = 0 then p.decUsed else p.lEff)) p.decel

/-- The stretch that the plan in force is in after its ticks. -/
def PrfSt.seg (p : PrfSt) (t : Rat) : Option PSeg := nowSeg (dropSegs p.segs ((p.ticks : Rat) * t))

/-- The position reference: rounded toward the start of the motion to whole pu (R303). -/
def PrfSt.pref (p : PrfSt) : Int :=
  if p.start * 65536 ≤ p.p then p.p / 65536 else -((-p.p) / 65536)

/-! ## One step (R302 to R308, R314, R315) -/

/-- The plan in force followed to the next tick instant; position and speed are kept in steps of 2^-32,
rounded toward less motion (R303). The second value: the plan has ended. DEDUCED, log entry 17. -/
def PrfSt.follow (p : PrfSt) (t : Rat) : PrfSt × Bool :=
  if ! p.moving then (p, false)
  else
    let dir := p.dir
    let (x, v, e) := runSegs p.segs (((p.ticks + 1 : Nat) : Rat) * t) (absR ((p.v0 : Rat) / 2 ^ 32))
    ({ p with p := p.p0 + dir * (x * 2 ^ 32).floor, v := if e then 0 else dir * (v * 2 ^ 32).floor,
              ticks := p.ticks + 1 }, e)

/-- A move starts at rest where the profile stands. -/
def PrfSt.startMove (p : PrfSt) (t : Int) : PrfSt :=
  { p with start := p.pref, target := t, v := 0, moving := true, stopping := false, returning := false,
           decel := false, passing := false, stopDec := 0 }

/-- What runs has ended: a stop rests where it is, a passed target is returned to, a move is at its target
(R305, R314, R315). -/
def Dev.prfEnded (d : Dev) (a : Nat) (p : PrfSt) : Dev × PrfSt :=
  if p.stopping then (d, { p with moving := false, stopping := false, stopDec := 0, start := p.pref })
  else if p.passing then
    (d.event 4 (R.AX_PRF_EVT.overshoot a) a [wordI (p.pref - p.target)],
     { p with passing := false, decel := false, returning := true, start := p.pref })
  else
    (d.event 4 (R.AX_PRF_EVT.done a) a,
     { p with p := p.target * 65536, v := 0, moving := false, returning := false, decel := false, start := p.target })

/-- The first queued move that is valid starts; those before it are dropped (R306 to R308). -/
def Dev.prfPop (d : Dev) (a : Nat) (p : PrfSt) : List PrfMove → Nat → Dev × PrfSt
  | [], _ => (d, { p with queue := [] })
  | m :: r, k =>
    let t := m.target.getD (p.pref + m.dist)
    if puOk t ∧ ! d.prfZero a then
      (d.event 4 (R.AX_PRF_EVT.started a) a, { (p.startMove t) with queue := r })
    else ((d.set (R.AX_PRF_STAT.res a) 5).event 4 (R.AX_PRF_EVT.rej a) a [5, word k]).prfPop a p r (k + 1)

/-- The step for the next tick is posted. -/
def Dev.prfPost (d : Dev) (a : Nat) (p : PrfSt) (pref : Int) (vref acc : Int) (phase : Nat) : Dev :=
  d.updPrf a (fun _ => { p with
    step := some { tick := d.tick + 1, pref := pref, vref := vref, aref := acc, phase := phase } })

/-- The profile at rest on a position (R317, R322). -/
def PrfSt.rest (p : PrfSt) (pu : Int) : PrfSt :=
  { p with p := pu * 65536, v := 0, start := pu, target := pu, moving := false, stopping := false,
           returning := false, decel := false, passing := false, queue := [], stopDec := 0 }

/-- The position that the profile holds while its axis is not Enabled: the axis's own, or the stored commanded
position of a stepper axis (R317, R322). -/
def Dev.prfHeld (d : Dev) (a : Nat) : Int :=
  if d.akind a = 2 then (d.ax a).ctl.pc.floor else (d.ax a).hyPos.floor

/-- A new plan begins where the profile stands (R304). -/
def PrfSt.replan (p : PrfSt) : PrfSt :=
  let pl := p.plan
  { p with segs := pl.segs, p0 := p.p, v0 := p.v, ticks := 0,
           passing := p.moving && ! p.stopping && pl.pass }

/-- The plan that governs from the next tick on, with its phase and acceleration, posted: a new one where
something has started or ended, or where a value that the phase heeds has changed (R304, R309, R311 to R313,
R630). DEDUCED, log entry 17. -/
def Dev.prfGoverns (d : Dev) (a : Nat) (p : PrfSt) (fresh : Bool) : Dev :=
  let e := d.prfEff a
  let lim := d.fld (R.AX_PRF_LIM.dec_lim a)
  let q := { p with vEff := e.1, aEff := e.2.1, dEff := e.2.2, lEff := lim,
                    decUsed := if e.2.2 = 0 then p.decUsed else e.2.2 }
  let changed := q.decNow != p.decNow || q.lEff != p.lEff ||
    (! p.decel && ! p.stopping && (q.vEff != p.vEff || q.aEff != p.aEff))
  let p := if fresh ∨ changed then q.replan else q
  let d := if (fresh ∨ changed) ∧ p.moving ∧ p.plan.ovr then d.eventOnce (R.AX_PRF_EVT.acc_ovr a) a else d
  let d := if changed ∧ p.moving then d.cmpReplan a else d
  let g := p.seg d.tickSec
  let ph := if ! p.moving then fIdle else if p.returning then fReturn else ((g.map PSeg.phase).getD fCruise)
  let p := { p with decel := p.moving && ! p.stopping && (p.decel || (g.map PSeg.phase) == some fDecel) }
  let acc := (((g.map PSeg.acc).getD 0) * 2 ^ 32 * p.dir).floor
  d.prfPost a p p.pref p.v acc ph

/-- A target that depends on a stop's rest point is fixed once the stop has come to rest (R306). -/
def PrfSt.fixMove (p : PrfSt) (m : PrfMove) : PrfMove :=
  match m.target with
  | some _ => m
  | none => if p.moving then m else { target := some (p.pref + m.dist) }

/-- The step of a profile that an Enabled axis follows (R302, R304 to R308, R310). The step that finds the
profile at rest beyond its target still shows DECEL (R314). -/
def Dev.prfFollow (d : Dev) (a : Nat) : Dev :=
  let view := (d.prfJudge a).1
  let old := d.prf a
  let (p, ended) := old.follow d.tickSec
  let passed := ended && p.passing && ! p.stopping
  let (d, p) := if ended then d.prfEnded a p else (d, p)
  let d := if view.stopReq ∧ p.moving then d.cmpReplan a else d
  let p := if view.stopReq ∧ p.moving then
      { p with stopping := true, returning := false, decel := false, passing := false,
               stopDec := if old.stopping then max p.decNow p.stopDec else 0 }
    else p
  let p := { p with queue := view.queue.map (p.fixMove) }
  let (d, p) := match view.start with
    | some t => if p.moving then (d, p) else (d.event 4 (R.AX_PRF_EVT.started a) a, p.startMove t)
    | none => (d, p)
  let (d, p) := if p.moving then (d, p) else d.prfPop a p p.queue 0
  let fresh := ended || view.stopReq || ! old.moving
  let d := (d.set (R.AX_PRF_STAT.queued a) p.queue.length).prfGoverns a p fresh
  if passed then
    d.updPrf a (fun q => { q with step := q.step.map (fun (s : PrfStep) => { s with phase := fDecel, aref := 0 }) })
  else d

/-- The first step of an axis that has entered Enabled: a servo axis starts from its position and speed and
stops; a stepper axis rests on its commanded position (R318, R322). -/
def Dev.prfFirst (d : Dev) (a : Nat) : Dev :=
  let d := d.updAx a (fun x => { x with prfSeen := true })
  let p := (d.prf a).rest (d.prfHeld a)
  let rpm := (d.srcRead a (d.ax a).ctl (d.fld (R.AX_STATE.ang_use a))).2
  let v := if d.akind a = 2 then 0 else (rpm / 60 * 2 ^ 32).floor
  d.prfGoverns a (if v = 0 then p else { p with v := v, moving := true, stopping := true }) true

/-- The step of the next tick of an axis whose reference source is the profile (R302, R317, R318). -/
def Dev.prfNext (d : Dev) (a : Nat) : Dev :=
  if d.fld (R.AX_REF.src a) ≠ 0 then
    (d.updPrf a (fun p => { p with step := none, last := none })).updAx a (fun x => { x with prfSeen := false })
  else if d.astate a ≠ aEnabled then
    let p := (d.prf a).rest (d.prfHeld a)
    d.prfPost a p p.start 0 0 fIdle
  else if (d.ax a).prfSeen then d.prfFollow a
  else d.prfFirst a

/-- PROFILE_STEP: the step is computed, and the commands that it has read are done with (R302, R304, R307).
DEDUCED, log entry 16. -/
def Dev.prfStep (d : Dev) (a : Nat) : Dev := (d.prfNext a).updPrf a (fun p => { p with cmds := [] })

/-- The profile steps of a tick (R302). -/
def Dev.prfSteps (d : Dev) : Dev := d.axesUsed.foldl Dev.prfStep d

/-- At a tick instant the posted step becomes the present one, and the registers show it (R302, AX_PRF_POS, AX_PRF_VEL,
AX_PRF_STAT). -/
def Dev.prfTick (d : Dev) (a : Nat) : Dev :=
  let p := d.prf a
  let cur := match p.step with
    | some s => if s.tick = d.tick then some s else none
    | none => none
  let d := d.updPrf a (fun p => { p with
    cur := cur, step := none, last := match cur with | some s => some s | none => p.last })
  match cur with
  | some s =>
    ((d.setI (R.AX_PRF_POS.p_ref a) s.pref).setI (R.AX_PRF_VEL.v_ref a)
      (((s.vref : Rat) * 60000 / 2 ^ 32).floor)).set (R.AX_PRF_STAT.phase a) s.phase
  | none => d

end Sys2Proof.Machine
end

