-- ==== Sys2Proof/Machine/Stepper.lean ====
section
/-! DEFINITION. The stepper job: commanded position, microstep tables, coil current, load angle, deviation and
stall (chapter 9, R320 to R331). -/

namespace Sys2Proof.Machine

/-! ## Positions (R322, R323, R326, R327) -/

/-- The encoder position of a stepper axis; without quadrature the commanded position stands in (R327, R334).
DESIGN CHOICE, log entry 8. -/
def Dev.stpEnc (d : Dev) (a : Nat) (pref : Int) : Int :=
  if d.quadFitted a then
    (quot 327 ((d.dec a).cnt * 65536 : Int) ((d.fldT (R.AX_ENC_CPR.cpr a) : Nat) : Rat)).floor + (d.ax a).ctl.encOfs
  else pref

/-- The electrical angle of a position in pu, of 65,536 to the electrical turn (R323). -/
def Dev.stpPhi (d : Dev) (a : Nat) (p : Rat) : Rat := turn (p * (d.fld (R.AX_STP_CFG.ecyc a) : Nat))

/-- The load angle of two positions, of 65,536 to the electrical turn (R326). -/
def Dev.loadAngle (d : Dev) (a : Nat) (pref enc : Int) : Int :=
  (wrapA (d.stpPhi a pref - d.stpPhi a enc)).floor

/-- The deviation of two positions, in 1/256 full step (R327). -/
def Dev.stpDev (d : Dev) (a : Nat) (pref enc : Int) : Int :=
  (pref - enc) * (d.fld (R.AX_STP_CFG.ecyc a) : Nat) * 1024 / 65536

/-- T[k] of the microstep table in use; of a table that the image does not load, an open value (R324).
DESIGN CHOICE, log entry 26. -/
def Dev.ustep (d : Dev) (a k : Nat) : Int :=
  let t := d.fld (R.AX_STP_CFG.tbl a)
  match d.mode.tables.find? (fun x => x.1 = t) with
  | some x => (x.2.getD k 0).toInt
  | none => satI 16 (Config.openValue 324 [t, k])

/-- The reference point of a commanded position and a coil current, as a command word (R323). -/
def Dev.stpPoint (d : Dev) (a : Nat) (p : Rat) (iCoil : Int) : Word :=
  let step := 16384 / 2 ^ min 8 (d.fld (R.AX_STP_CFG.ustep_log2 a))
  let phi := (d.stpPhi a p).floor.toNat / step * step
  let q := phi / 16384
  let r := phi % 16384 / 64
  let x := d.ustep a r
  let y := d.ustep a (256 - r)
  let (s, c) := match q with
    | 0 => (x, y)
    | 1 => (y, -x)
    | 2 => (-x, -y)
    | _ => (-y, x)
  halves (iCoil * s / 32768) (iCoil * c / 32768)

/-! ## Coil current (R325, R326) -/

/-- The coil current of a tick from the load angle in 1/65,536 of an electrical turn (R325, R326). -/
def Dev.stpCurrent (d : Dev) (a : Nat) (delta : Int) (hold : Bool) (was : Int) : Int :=
  let base := if hold ∧ d.astate a ≠ aCatching then d.sfldT (R.AX_STP_I.i_hold a) else d.sfldT (R.AX_STP_I.i_run a)
  let il : Int := (d.fldT (R.AX_LIM.i_lim a) % 32768 : Nat)
  let fs : Rat := absR delta / 16384
  let past := maxR 0 (fs - (d.fldT (R.AX_STP_LA.d0 a) : Nat) / 256)
  let add := if d.flag (R.AX_STP_CFG.la_en a) then (((d.sfldT (R.AX_STP_LA.k_la a) : Int) : Rat) * past).floor else 0
  let t := min il (base + add)
  if was ≤ t then t else max t (was - 4 * (d.fldT (R.AX_STP_LA.fall a) : Nat))

/-! ## Stall and resynchronisation (R328) -/

/-- The axis's trajectory is moved by a distance in pu, its target with it (R328). -/
def Dev.prfShift (d : Dev) (a : Nat) (x : Int) : Dev :=
  d.updPrf a (fun p => { p with
    p := p.p + x * 65536, p0 := p.p0 + x * 65536, start := p.start + x, target := p.target + x })

/-- A STALL is declared, with what stall_act makes of it; the distance is what a resynchronisation moves the
commanded position by (R328). -/
def Dev.stall (d : Dev) (a : Nat) (lost : Int) : Dev :=
  let d := d.event 4 (R.AX_STP_EVT.stall a) a
  match d.fld (R.AX_STP_CFG.stall_act a) with
  | 1 => d.axFault a
  | 2 => (d.event 4 (R.AX_STP_EVT.resync a) a [wordI lost]).prfShift a lost
  | _ => d

/-- The deviation window in a tick of fresh feedback; true where the axis resynchronises (R328).
DEDUCED, log entry 27. -/
def Dev.stallTick (d : Dev) (a : Nat) (dev lost : Int) (illegal : Bool) : Dev × Bool :=
  if ! d.flag (R.AX_STP_CFG.stall_en a) then (d, false)
  else
    let d := if illegal then d.eventOnce (R.AX_STP_EVT.enc a) a else d
    let n := d.fldT (R.AX_STP_STALL.n_stall a)
    let k := (d.ax a).stallRun
    let follows := decide (aReleasing ≤ d.astate a) && decide (d.astate a ≤ aStopping)
    if ! follows then (d, false)
    else if ! illegal ∧ dev.natAbs ≤ d.fldT (R.AX_STP_STALL.win a) then
      (d.updAx a (fun x => { x with stallRun := 0 }), false)
    else
      let d := d.updAx a (fun x => { x with stallRun := min n (k + 1) })
      if k < n ∧ n ≤ k + 1 then (d.stall a lost, d.fld (R.AX_STP_CFG.stall_act a) = 2) else (d, false)

/-! ## Commanded position (R322) -/

/-- A speed brought toward zero by at most a step. -/
def toZero (v step : Rat) : Rat := if 0 < v then maxR 0 (v - step) else minR 0 (v + step)

/-- What a stepper axis commands at T(n): position in pu, speed in pu/s, acceleration in pu/s² and ω_r in rpm. -/
structure StpRef where
  /-- Position at T(n), pu. -/
  p : Rat
  /-- Speed at T(n), pu/s. -/
  v : Rat := 0
  /-- Acceleration, pu/s². -/
  acc : Rat := 0
  /-- ω_r, rpm (R273). -/
  wr : Rat := 0
  deriving DecidableEq, Repr

/-- The deceleration of a stepper axis in Stopping, pu/s² (R309, R322, R630). -/
def Dev.stpDecel (d : Dev) (a : Nat) : Rat :=
  let e := d.prfEff a
  accRev (if e.2.2 = 0 then (d.prf a).decUsed else e.2.2) * 65536

/-- The commanded motion of the present tick (R273, R276, R319, R322, R586). DEDUCED, log entry 27. -/
def Dev.stpRef (d : Dev) (a : Nat) (c : AxCtl) : Dev × StpRef :=
  let st := d.astate a
  let on := c.pc + c.vc * d.tickSec
  if st = aEnabled then
    if d.fldT (R.AX_REF.src a) = 0 then
      let (d, p, v, acc) := d.stepUsed a
      (d, { p := p, v := v * 65536, acc := acc * 65536, wr := v * 60 })
    else
      let k : Rat := (d.time.tickNs : Rat) / 1000000
      let t := if d.rmode = mHold then 0
        else clampR (d.axNlim a) (((d.sfldT (R.AX_SPD_CMD.cmd a) : Int) : Rat) / 1000)
      let wr := ramp c.wr t ((d.fldT (R.AX_RAMP.acc a) : Nat) * k) ((d.fldT (R.AX_RAMP.dec a) : Nat) * k)
      (d, { p := on, v := wr / 60 * 65536, wr := wr })
  else if st = aStopping then
    let v := toZero c.vc (d.stpDecel a * d.tickSec)
    (d, { p := on, v := v, wr := v * 60 / 65536 })
  else (d, { p := c.pc })

/-! ## The job (R321, R330, R331) -/

/-- The faults of a stepper cell's report (R165). -/
def stepperFaults (w2 : Word) : List StFault :=
  (if bit w2 1 then [.oc] else []) ++ (if bit w2 2 then [.ov] else []) ++ (if bit w2 3 then [.ot] else []) ++
  (if bit w2 4 then [.wd] else []) ++ (if bit w2 5 then [.openA] else []) ++ (if bit w2 6 then [.openB] else [])

/-- Axis command word 0 of a stepper axis (R164, AX_STP_CHOP). -/
def Dev.stpWord0 (d : Dev) (a : Nat) (en clr : Bool) : Word :=
  (d.rdT (R.AX_STP_CHOP.adr a) &&& 0xFFFFFF00#32) ||| word (2 * b2n clr + b2n en)

/-- What the job of a driven stepper axis computes: current, commanded position and reference points. -/
def Dev.stepperDrive (d : Dev) (a : Nat) (c : AxCtl) (r : StpRef) (delta : Int) (fresh : Bool) : AxCtl :=
  let still := r.v == 0
  let hold := c.holdI && still && d.fldT (R.AX_STP_CFG.t_hold a) != 0
  let i := if fresh then d.stpCurrent a delta hold c.iCoil else c.iCoil
  let ta := d.tickSec + d.axApply a (d.tick + 1) / 1000000000
  let tb := ta + d.tickSec / 2
  let at_ := fun (t : Rat) => r.p + r.v * t + r.acc * t * t / 2
  let pb := d.stpPoint a (at_ tb) i
  { c with
    iCoil := i, holdI := hold, spdZero := if still then c.spdZero + 1 else 0, pc := r.p, vc := r.v, wr := r.wr,
    words := [d.stpWord0 a true (d.ax a).fltClr, d.stpPoint a (at_ ta) i, pb], pointB := pb }

/-- The stepper job of an axis (R321). -/
def Dev.stepperJob (d : Dev) (a : Nat) : Dev × LibCommit :=
  let fresh := d.effAge (d.fld (R.AX_CFG.stn a)) == 0
  let d := (d.setB (R.AX_STATE.aged a) (! fresh))
  let d := (d.decode a).dev
  let w2 := nthW (d.axFb a) 2
  let faults := stepperFaults w2
  let d := if fresh then
      let d := if bit w2 5 ∨ bit w2 6 then d.eventOnce (R.AX_STP_EVT.open_ a) a else d
      d.cellReport a faults false (! faults.isEmpty)
    else d
  let c := (d.ax a).ctl
  let (d, r) := d.stpRef a c
  let pref := r.p.floor
  let enc := d.stpEnc a pref
  let delta := d.loadAngle a pref enc
  let dev := d.stpDev a pref enc
  let (d, resync) := if fresh then d.stallTick a dev (enc - pref) (bit w2 7) else (d, false)
  let r := if resync then { r with p := enc } else r
  let d := d.stopTick a (r.v = 0) 1
  let st := d.astate a
  let c := if aCatching ≤ st ∧ st ≤ aStopping then d.stepperDrive a c r delta fresh
    else { c with words := d.stpWord0 a false true :: c.words.drop 1 }
  let posts := match d.axCmdCode? a with
    | some k => postsAt k (if aCatching ≤ st ∧ st ≤ aStopping then c.words else c.words.take 1)
    | none => []
  (d, { axis := some (a, c), axSt := st, posts := posts,
        regs := [(R.AX_STP_STAT.adr a, halves c.iCoil (delta / 64)), (R.AX_STP_DEV.adr a, wordI dev),
                 (R.AX_FB_POS.adr a, wordI enc)] ++
          (if d.quadFitted a then [(R.AX_FB_SPD.adr a, wordI (1000 * d.encSpeed a).floor)] else []) })

end Sys2Proof.Machine
end

