-- ==== Sys2Proof/Machine/Compare.lean ====
section
/-! DEFINITION. Predictive position compare and encoder emulation (chapter 10, R342 to R359). -/

namespace Sys2Proof.Machine

/-! ## The predicted course (R349, R354) -/

/-- A stretch of the predicted course of an axis: from an instant in ns, to one where it ends, position in pu,
speed in pu/ns and acceleration in pu/ns². -/
structure Course where
  /-- Its first instant, ns. -/
  t0 : Rat
  /-- Its last instant, ns; none: without end. -/
  t1 : Option Rat := none
  /-- Position at its first instant, pu. -/
  p : Rat
  /-- Speed at its first instant, pu/ns. -/
  v : Rat := 0
  /-- Acceleration, pu/ns². -/
  acc : Rat := 0
  deriving DecidableEq, Repr

/-- The position at an instant of a stretch. -/
def Course.pos (c : Course) (t : Rat) : Rat := c.p + c.v * (t - c.t0) + c.acc * (t - c.t0) * (t - c.t0) / 2

/-- The stretches of a plan that began at an instant with a position and a speed along a direction. -/
def courseOf (dir : Rat) : List PSeg → Rat → Rat → Rat → List Course
  | [], t, p, _ => [{ t0 := t, p := p }]
  | g :: r, t, p, v =>
    let k : Rat := 65536 / 1000000000
    let c : Course := { t0 := t, p := p, v := dir * v * k, acc := dir * g.acc * k / 1000000000 }
    match g.dur with
    | none => [c]
    | some u =>
      let e := t + u * 1000000000
      { c with t1 := some e } :: courseOf dir r e (c.pos e) (v + g.acc * u)

/-- The course of a profile as it stands at a tick instant. -/
def PrfSt.course (p : PrfSt) (n tickNs : Nat) : List Course :=
  if ! p.moving then [{ t0 := ((n * tickNs : Nat) : Rat), p := (p.p : Rat) / 65536 }]
  else courseOf (p.dir : Rat) p.segs (((n : Rat) - (p.ticks : Nat)) * (tickNs : Nat)) ((p.p0 : Rat) / 65536)
    (absR ((p.v0 : Rat) / 2 ^ 32))

/-- A course up to an instant, followed by another from it on. -/
def joinCourse (a : List Course) (t : Rat) (b : List Course) : List Course :=
  (a.filter (fun c => decide (c.t0 < t))).map (fun c =>
    { c with t1 := some (match c.t1 with | some e => minR e t | none => t) }) ++
  (b.filter (fun c => match c.t1 with | some e => decide (t < e) | none => true)).map (fun c =>
    if c.t0 < t then { c with t0 := t, p := c.pos t, v := c.v + c.acc * (t - c.t0) } else c)

/-- The reference course of an axis in the present tick: the plan in force up to T(n + 1), from there the plan
of the profile step of that tick (R302, R354). -/
def Dev.refCourse (d : Dev) (a : Nat) : List Course :=
  joinCourse ((d.prf a).course d.tick d.time.tickNs) (((d.tick + 1) * d.time.tickNs : Nat) : Rat)
    (((d.prfStep a).prf a).course (d.tick + 1) d.time.tickNs)

/-- The measured course of an axis, predicted from its position and raw speed (R354). Without quadrature the
Hall speed stands for the raw speed. -/
def Dev.measCourse (d : Dev) (a : Nat) : List Course :=
  let p : Rat := if d.akind a = 2 then (d.stpEnc a (d.ax a).ctl.pc.floor : Int) else (d.ax a).hyPos.floor
  let acc : Rat := if d.fld (R.AX_REF.src a) = 0 then
      (((d.prf a).cur.map (fun (s : PrfStep) => s.aref)).getD 0 : Rat) / 65536 else 0
  let raw := if d.quadFitted a then
      quot 354 ((d.dec a).vraw * 65536) ((d.fldT (R.AX_ENC_CPR.cpr a) : Nat) : Rat)
    else d.mechRpm a (d.dec a).wh / 60 * 65536
  let v := raw + acc * d.tickSec / 2
  [{ t0 := (d.now : Rat), p := p, v := v / 1000000000, acc := acc / 1000000000 / 1000000000 }]

/-- The stretch of a course before its first, at the speed with which the course begins. -/
def backCourse (l : List Course) (t : Rat) : List Course :=
  match l with
  | c :: _ => if t < c.t0 then { t0 := t, t1 := some c.t0, p := c.pos t - c.acc * (t - c.t0) * (t - c.t0) / 2, v := c.v } :: l
    else l
  | [] => []

/-- A stretch within bounds, cut where its motion turns: the pieces on which position is monotone, as first and
last instant. -/
def Course.pieces (c : Course) (s e : Rat) : List (Course × Rat × Rat) :=
  let a := maxR c.t0 s
  let b := match c.t1 with | some x => minR x e | none => e
  if b ≤ a then []
  else
    let turn := if c.acc = 0 then a else c.t0 - c.v / c.acc
    if a < turn ∧ turn < b then [(c, a, turn), (c, turn, b)] else [(c, a, b)]

/-- The first whole instant after one, up to another, at which the position has left a side of x: by halving. -/
def bisect (c : Course) (x : Int) (side : Rat) (last : Rat) : Nat → Int → Int → Int
  | 0, _, hi => hi
  | k + 1, lo, hi =>
    if hi - lo ≤ 1 then hi
    else
      let m := (lo + hi) / 2
      if sgnR (c.pos (minR m last) - x) = side then bisect c x side last k m hi else bisect c x side last k lo m

/-- The first crossing of x on monotone pieces: the instant rounded up to whole ns, and whether it is in positive
direction (R349). The side is that on which the axis was; 0: it rests on x. -/
def crossOn (x : Int) : List (Course × Rat × Rat) → Rat → Option (Int × Bool)
  | [], _ => none
  | (c, a, b) :: r, side =>
    let now := sgnR (c.pos b - x)
    if side = 0 then crossOn x r now
    else if now = side then crossOn x r side
    else some (bisect c x side b 64 a.floor b.ceil, decide (side < 0))

/-- The first crossing of x after one instant and up to another. -/
def firstCross (l : List Course) (x : Int) (s e : Rat) : Option (Int × Bool) :=
  let ps := (backCourse l s).flatMap (fun c => c.pieces s e)
  match ps with
  | [] => none
  | p :: _ => crossOn x ps (sgnR (p.1.pos s - x))

/-- An entry's dir admits a direction (R348, R350). -/
def dirAdmits (dir : Nat) (up : Bool) : Bool := dir == 0 || (dir == 1 && up) || (dir == 2 && ! up)

/-- The first crossing of x in an admitted direction after one instant and up to another. -/
def admitted (l : List Course) (x : Int) (dir : Nat) (e : Int) : Nat → Int → Option Int
  | 0, _ => none
  | k + 1, s =>
    match firstCross l x s e with
    | none => none
    | some (t, up) => if dirAdmits dir up then some t else admitted l x dir e k t

/-! ## The evaluation of a list (R350 to R353, R356, R359) -/

/-- The apply offset A of the windows of a list in the present tick (R351). -/
def Dev.cmpOfs (d : Dev) (l : Nat) : Nat := d.applyAt (d.stLine (d.fld (R.AX_CMP_CFG.stn l))) (d.tick + 1)

/-- The list's entries carried by the next command (R186, R351). -/
def Dev.cmpCarried (d : Dev) (l n : Nat) : List CmpEntry :=
  (d.cmp l).staged.filter (fun e => ! e.retr && decide (d.applyDeadline (d.fld (R.AX_CMP_CFG.stn l)) n < e.fire))

/-- The list may stage one more entry (R185, R352). -/
def Dev.cmpRoom (d : Dev) (l : Nat) : Bool :=
  let s := d.fld (R.AX_CMP_CFG.stn l)
  decide ((d.cmpCarried l (d.tick + 1)).length < d.fld (R.AX_CMP_CFG2.to_n l)) &&
  decide (d.outstandingTo s < 2 * d.blkLen s 5)

/-- The list goes on to the entry after one (R350). -/
def Dev.cmpAdvance (d : Dev) (l i : Nat) : Dev :=
  if i < d.fld (R.AX_CMP_SPAN.len_m1 l) then d.set (R.AX_CMP_STAT.next l) (i + 1)
  else if d.flag (R.AX_CMP_CFG.cyc l) then d.set (R.AX_CMP_STAT.next l) 0
  else (d.updCmp l (fun c => { c with done := true })).event 4 (R.AX_CMP_EVT.done l) l

/-- An entry is crossed at an instant: missed before the window or without room, recorded alone where it has no
output, staged otherwise (R348, R351, R352). -/
def Dev.cmpCrossed (d : Dev) (l i : Nat) (w1 : Word) (t : Nat) : Dev :=
  let tag := bits w1 15 0
  let act := bits w1 29 28
  let d := d.cmpAdvance l i
  if t ≤ (d.tick + 1) * d.time.tickNs + d.cmpOfs l ∨ (act ≠ 0 ∧ ! d.cmpRoom l) then
    (d.bump (R.AX_CMP_CNT.missed l)).event 4 (R.AX_CMP_EVT.miss l) l [word l, word i, word tag, 0, word t]
  else if act = 0 then d.cmpNote l { idx := i, tag := tag, fire := t }
  else
    let e : CmpEntry := { idx := i, tag := tag, act := act, fire := t, at_ := d.tick,
                          id := 0x7000 + 0x100 * l + (d.cmp l).seq % 256 }
    ((d.updCmp l (fun c => { c with seq := c.seq + 1, staged := c.staged ++ [e] })).cmpNote l e).set
      (R.AX_CMP_LAST.fire l) t

/-- The list followed over a course from one instant to another: every crossing of its next entry, in order
(R350). An entry with dir 3 ends the evaluation (R348). -/
def Dev.cmpWalk (d : Dev) (l : Nat) (course : List Course) (e : Int) : Nat → Int → Dev
  | 0, _ => d
  | k + 1, s =>
    if (d.cmp l).done then d
    else
      let i := d.fld (R.AX_CMP_STAT.next l)
      let w := d.cmpEntry l i
      let w1 := nthW w 1
      if bits w1 31 30 = 3 then d.setB (R.AX_CMP_EVT.cfg_rej l) true
      else
        match firstCross course (sword (nthW w 0)) s e with
        | none => d
        | some (t, up) =>
          (if dirAdmits (bits w1 31 30) up then d.cmpCrossed l i w1 t.toNat else d).cmpWalk l course e k t

/-- A staged entry is predicted anew: it stands while a crossing lies within the tolerance of its fire time and
within the windows up to W(n) (R356). -/
def Dev.cmpStands (d : Dev) (l : Nat) (course : List Course) (e : Int) (x : CmpEntry) : Bool :=
  let w := d.cmpEntry l x.idx
  let tol : Int := d.fld (R.AX_CMP_CFG2.tol_ns l)
  let s := max (d.now : Int) (x.fire - tol - 1)
  (admitted course (sword (nthW w 0)) (bits (nthW w 1) 31 30) (min e (x.fire + tol)) (2 * tol.toNat + 2) s).isSome

/-- COMPARE_EVALUATION of a list in the present tick: once, for an armed list whose axis is Enabled, and for a
measured list on a fresh sample that has been decoded (R350 to R356). -/
def Dev.cmpEval (d : Dev) (l : Nat) : Dev :=
  let a := d.fld (R.AX_CMP_CFG.axis l)
  let c := d.cmp l
  if ! d.flag (R.AX_CMP_CFG.arm l) ∨ c.evalTick = some d.tick ∨ d.easel.closed ∨ d.astate a ≠ aEnabled then d
  else if d.flag (R.AX_CMP_CFG.src l) ∧ (d.dec a).fresh ≠ some d.tick then d
  else
    let course := if d.flag (R.AX_CMP_CFG.src l) then d.measCourse a else d.refCourse a
    let open_ : Int := ((d.tick + 1) * d.time.tickNs + d.cmpOfs l : Nat)
    let e : Int := open_ + d.time.tickNs
    let d := d.cmpRetract l true (fun x => ! d.cmpStands l course e x)
    let s := match c.from_ with | some t => t.floor | none => open_
    let d := d.cmpWalk l course e ((e - s).toNat + 1) s
    (d.updCmp l (fun c => { c with evalTick := some d.tick, from_ := some (e : Rat) })).cmpShow l

/-- The entries that an evaluation has read: the staged ones, and those from the next one on up to the one the
list then waits for. DEDUCED, log entry 64. -/
def Dev.cmpRead (d after : Dev) (l : Nat) : List Nat :=
  let i := d.fld (R.AX_CMP_STAT.next l)
  let j := after.fld (R.AX_CMP_STAT.next l)
  let all := List.range (d.fld (R.AX_CMP_SPAN.len_m1 l) + 1)
  (d.cmp l).staged.map (·.idx) ++ (if i ≤ j then all.filter (fun k => decide (i ≤ k) && decide (k ≤ j)) else all)

/-- An evaluation that meets an entry which cannot be read does not post, so W(n) has none (R353, R523). -/
def Dev.cmpEvalEcc (d : Dev) (l : Nat) : Dev :=
  let after := d.cmpEval l
  let codes := (d.cmpRead after l).map (d.cmpCode l)
  if codes.any (fun c => d.anyBad c 8) then codes.foldl (fun (d : Dev) c => (d.readBytes reqAtelier c 8).1) d
  else after

/-- COMPARE_EVALUATION (R353). -/
def execCompareEvaluation (l : Fin 16) (s : State) : Host.Outcome State Fault Refusal :=
  s.onDev (fun d => d.cmpEvalEcc l)

/-! ## What becomes of staged entries (R356) -/

/-- A staged entry leaves its list: fired, or prevented and re-armed. -/
def Dev.cmpSettle (d : Dev) (l : Nat) (e : CmpEntry) : Dev :=
  let d := (d.updCmp l (fun c => { c with staged := c.staged.filter (fun x => x.id ≠ e.id) })).cmpNote l e
  match e.ack with
  | some false =>
    if e.rearm ∧ d.flag (R.AX_CMP_CFG.arm l) then
      let next := d.fld (R.AX_CMP_STAT.next l)
      let back := d.flag (R.AX_CMP_CFG.cyc l) || (d.cmp l).done || decide (e.idx < next)
      (if back then d.set (R.AX_CMP_STAT.next l) e.idx else d).updCmp l (fun c => { c with done := false })
    else d
  | some true => d.bump (R.AX_CMP_CNT.fired l)
  | none =>
    let d := if e.retr then
        d.event 4 (R.AX_CMP_EVT.late l) l [word (d.fld (R.AX_CMP_CFG.stn l)), word e.id] else d
    d.bump (R.AX_CMP_CNT.fired l)

/-- At a tick instant the entries of a list that are acknowledged, or whose fire time has passed, are settled;
the entry staged first last, so that the list continues from it (R356). DEDUCED, log entry 28. -/
def Dev.cmpTick (d : Dev) (l : Nat) : Dev :=
  let out := (d.cmp l).staged.filter (fun e => e.ack.isSome || decide (e.fire ≤ d.now))
  if out.isEmpty then d else (out.reverse.foldl (fun d e => d.cmpSettle l e) d).cmpShow l

/-! ## Encoder emulation (R342 to R345) -/

/-- The position that is emulated: measured, or the reference of the step for the next tick (R342). -/
def Dev.emuPos (d : Dev) (a : Nat) : Int :=
  if d.flagT (R.AX_EMU_CFG.src a) then ((d.prf a).step.map (fun (s : PrfStep) => s.pref)).getD 0
  else if d.akind a = 2 then d.stpEnc a (d.ax a).ctl.pc.floor
  else (d.ax a).hyPos.floor

/-- The counts of the emulated output for the command of the next tick (R342 to R345). While a write to
AX_FB_POFS has not taken effect the reference stays open. -/
def Dev.emuTick (d : Dev) (a : Nat) : Dev :=
  if ! d.flagT (R.AX_EMU_CFG.en a) then d.updDec a (fun x => { x with emuE := none, emuCarry := 0, emuSent := 0, emuPrev := 0 })
  else
    let s := d.fldT (R.AX_EMU_CFG.stn a)
    let x := d.dec a
    let e := d.emuPos a * (d.fldT (R.AX_EMU_RES.res a) : Nat) / 65536
    let missed := (d.head s).missTick == some d.tick
    let open_ := x.emuE.isNone
    let step := match x.emuE with | some p => e - p | none => 0
    let total := (if open_ then 0 else step + x.emuCarry) + (if missed then x.emuPrev else 0)
    let lost := decide (d.fld (R.ST_CFG.lost_lim s) < d.slotAge s)
    let sent := if lost then 0 else clampI (-32768) 32767 total
    let carry := total - sent
    let drop := decide (2 ^ 20 < carry.natAbs)
    let pend := d.fld (R.AX_FB_POFS.pofs a) != d.fldT (R.AX_FB_POFS.pofs a) ||
      d.fld (R.AX_EMU_RES.res a) != d.fldT (R.AX_EMU_RES.res a)
    let d := if missed ∧ x.emuPrev ≠ 0 then d.setB (R.AX_FB_EVT.emu_miss a) true else d
    let d := if ! lost ∧ carry ≠ 0 then d.setB (R.AX_FB_EVT.emu_sat a) true else d
    let d := if drop then d.setB (R.AX_FB_EVT.emu_lost a) true else d
    let d := d.updDec a (fun x => { x with
      emuE := if pend then none else some e, emuCarry := if drop then 0 else carry,
      emuPrev := x.emuSent, emuSent := sent })
    d.setChan 3 s (d.fldT (R.AX_EMU_CFG.out a)) (BitVec.ofInt 16 sent)

/-- The emulation of every axis in use (R342). -/
def Dev.emuTicks (d : Dev) : Dev := d.axesUsed.foldl Dev.emuTick d

/-- The reference of the emulation is set anew and its carry cleared (R345). -/
def Dev.emuReset (d : Dev) (a : Nat) : Dev := d.updDec a (fun x => { x with emuE := none, emuCarry := 0 })

/-- A write to AX_EMU_CFG (R345). -/
def Dev.emuCfgWr (d : Dev) (a : Nat) (v : Word) : Dev × WrRes :=
  if ! d.flag (R.AX_EMU_CFG.en a) ∨ d.loadOrService then
    let on := ! d.flag (R.AX_EMU_CFG.en a) && bit v 31
    let d := d.wr (R.AX_EMU_CFG.adr a) (v &&& 0xC0FF0007#32)
    (if on then d.emuReset a else d, .ok 0)
  else d.rejectAt (R.AX_EVT.cfg_rej a)

/-- A write to AX_EMU_RES (R345). -/
def Dev.emuResWr (d : Dev) (a : Nat) (v : Word) : Dev × WrRes :=
  if (! d.flag (R.AX_EMU_CFG.en a) ∨ d.loadOrService) ∧ 1 ≤ v.toNat ∧ v.toNat ≤ 2 ^ 31 then
    ((d.wr (R.AX_EMU_RES.adr a) v).emuReset a, .ok 0)
  else d.rejectAt (R.AX_EVT.cfg_rej a)

/-- A write to AX_FB_POFS, in Load and Service or in Off (R300, R345). -/
def Dev.fbPofsWr (d : Dev) (a : Nat) (v : Word) : Dev × WrRes :=
  if d.loadOrService ∨ d.astate a = aOff then ((d.wr (R.AX_FB_POFS.adr a) v).emuReset a, .ok 0)
  else d.rejectAt (R.AX_EVT.cfg_rej a)

/-- AX_EMU_CFG_WRITE: AX_EMU_CFG, or AX_EMU_RES (R345). DEDUCED, log entry 28. -/
def execAxEmuCfgWrite (a : Fin 128) (res : Bool) (v : Word) (s : State) : Host.Outcome State Fault Refusal :=
  s.onDev (fun d =>
    if res then (wroteBy (d.emuResWr a v) (R.AX_EMU_RES.adr a)).1
    else (wroteBy (d.emuCfgWr a v) (R.AX_EMU_CFG.adr a)).1)

/-- AX_FB_POFS_WRITE (R345). -/
def execAxFbPofsWrite (a : Fin 128) (v : Word) (s : State) : Host.Outcome State Fault Refusal :=
  s.onDev (fun d => (wroteBy (d.fbPofsWr a v) (R.AX_FB_POFS.adr a)).1)

end Sys2Proof.Machine
end

