-- ==== Sys2Proof/Machine/Crypto.lean ====
section
/-! DEFINITION. The cryptographic unit: SHA-256 (FIPS 180-4), HMAC-SHA-256 (FIPS 198-1), HKDF (RFC 5869) and
ECDSA P-256 verification (FIPS 186), which R540, R544 and R553 name. -/

namespace Sys2Proof.Machine

/-! ## SHA-256 -/

/-- The number that bytes spell, most significant first, as the cited standards order bytes. -/
def bytesNatBE (l : List Byte) : Nat := l.foldl (fun a b => a * 256 + b.toNat) 0

/-- n bytes of a number, most significant first. -/
def natBytesBE (n v : Nat) : List Byte := (natBytes n v).reverse

/-- Round constants of SHA-256, the first half. -/
def shaK0 : List Word := [
  0x428A2F98#32, 0x71374491#32, 0xB5C0FBCF#32, 0xE9B5DBA5#32, 0x3956C25B#32, 0x59F111F1#32, 0x923F82A4#32, 0xAB1C5ED5#32,
  0xD807AA98#32, 0x12835B01#32, 0x243185BE#32, 0x550C7DC3#32, 0x72BE5D74#32, 0x80DEB1FE#32, 0x9BDC06A7#32, 0xC19BF174#32,
  0xE49B69C1#32, 0xEFBE4786#32, 0x0FC19DC6#32, 0x240CA1CC#32, 0x2DE92C6F#32, 0x4A7484AA#32, 0x5CB0A9DC#32, 0x76F988DA#32,
  0x983E5152#32, 0xA831C66D#32, 0xB00327C8#32, 0xBF597FC7#32, 0xC6E00BF3#32, 0xD5A79147#32, 0x06CA6351#32, 0x14292967#32]

/-- Round constants of SHA-256, the second half. -/
def shaK1 : List Word := [
  0x27B70A85#32, 0x2E1B2138#32, 0x4D2C6DFC#32, 0x53380D13#32, 0x650A7354#32, 0x766A0ABB#32, 0x81C2C92E#32, 0x92722C85#32,
  0xA2BFE8A1#32, 0xA81A664B#32, 0xC24B8B70#32, 0xC76C51A3#32, 0xD192E819#32, 0xD6990624#32, 0xF40E3585#32, 0x106AA070#32,
  0x19A4C116#32, 0x1E376C08#32, 0x2748774C#32, 0x34B0BCB5#32, 0x391C0CB3#32, 0x4ED8AA4A#32, 0x5B9CCA4F#32, 0x682E6FF3#32,
  0x748F82EE#32, 0x78A5636F#32, 0x84C87814#32, 0x8CC70208#32, 0x90BEFFFA#32, 0xA4506CEB#32, 0xBEF9A3F7#32, 0xC67178F2#32]

/-- The initial hash value of SHA-256. -/
def shaH0 : List Word := [
  0x6A09E667#32, 0xBB67AE85#32, 0x3C6EF372#32, 0xA54FF53A#32, 0x510E527F#32, 0x9B05688C#32, 0x1F83D9AB#32, 0x5BE0CD19#32]

/-- Rotation to the right. -/
def rotr (n : Nat) (x : Word) : Word := (x >>> n) ||| (x <<< (32 - n))

/-- The message schedule extended by n words; the list is held latest first. -/
def shaExtend : Nat → List Word → List Word
  | 0, l => l
  | n + 1, l =>
    let a := nthW l 14
    let b := nthW l 1
    let s0 := rotr 7 a ^^^ rotr 18 a ^^^ (a >>> 3)
    let s1 := rotr 17 b ^^^ rotr 19 b ^^^ (b >>> 10)
    shaExtend n ((nthW l 15 + s0 + nthW l 6 + s1) :: l)

/-- The eight working variables. -/
structure ShaVars where
  /-- a to h. -/
  a : Word := 0
  /-- b. -/
  b : Word := 0
  /-- c. -/
  c : Word := 0
  /-- d. -/
  d : Word := 0
  /-- e. -/
  e : Word := 0
  /-- f. -/
  f : Word := 0
  /-- g. -/
  g : Word := 0
  /-- h. -/
  h : Word := 0
  deriving DecidableEq, Repr

/-- One round with a schedule word and a constant. -/
def ShaVars.round (v : ShaVars) (w k : Word) : ShaVars :=
  let t1 := v.h + (rotr 6 v.e ^^^ rotr 11 v.e ^^^ rotr 25 v.e) + ((v.e &&& v.f) ^^^ (~~~ v.e &&& v.g)) + k + w
  let t2 := (rotr 2 v.a ^^^ rotr 13 v.a ^^^ rotr 22 v.a) + ((v.a &&& v.b) ^^^ (v.a &&& v.c) ^^^ (v.b &&& v.c))
  { a := t1 + t2, b := v.a, c := v.b, d := v.c, e := v.d + t1, f := v.e, g := v.f, h := v.g }

/-- The compression of one block of 16 words into the hash value. -/
def ShaVars.block (v : ShaVars) (ws : List Word) : ShaVars :=
  let w := (shaExtend 48 ws.reverse).reverse
  let x := (w.zip (shaK0 ++ shaK1)).foldl (fun (x : ShaVars) (p : Word × Word) => x.round p.1 p.2) v
  { a := v.a + x.a, b := v.b + x.b, c := v.c + x.c, d := v.d + x.d, e := v.e + x.e, f := v.f + x.f,
    g := v.g + x.g, h := v.h + x.h }

/-- The padded message. -/
def shaPad (m : List Byte) : List Byte :=
  m ++ [0x80#8] ++ List.replicate ((119 - m.length % 64) % 64) 0 ++ natBytesBE 8 (8 * m.length)

/-- Words from bytes, most significant first. -/
def wordsBE : List Byte → List Word
  | a :: b :: c :: d :: t => word (bytesNatBE [a, b, c, d]) :: wordsBE t
  | _ => []

/-- The blocks of a padded message, n of them at most. -/
def shaBlocks : Nat → List Word → ShaVars → ShaVars
  | 0, _, v => v
  | n + 1, ws, v => if ws.isEmpty then v else shaBlocks n (ws.drop 16) (v.block (ws.take 16))

/-- SHA-256 of a message: 32 bytes. DEDUCED, log entry 49. -/
def sha256 (m : List Byte) : List Byte :=
  let i := shaH0
  let v : ShaVars := { a := nthW i 0, b := nthW i 1, c := nthW i 2, d := nthW i 3, e := nthW i 4, f := nthW i 5,
                       g := nthW i 6, h := nthW i 7 }
  let x := shaBlocks (m.length / 64 + 2) (wordsBE (shaPad m)) v
  [x.a, x.b, x.c, x.d, x.e, x.f, x.g, x.h].flatMap (fun (w : Word) => natBytesBE 4 w.toNat)

/-! ## HMAC and HKDF -/

/-- HMAC-SHA-256 of a key and a message: 32 bytes (R540). DEDUCED, log entry 49. -/
def hmac (key m : List Byte) : List Byte :=
  let k := if 64 < key.length then sha256 key else key
  let k := k ++ List.replicate (64 - k.length) 0
  sha256 (k.map (fun b => b ^^^ 0x5C#8) ++ sha256 (k.map (fun b => b ^^^ 0x36#8) ++ m))

/-- HKDF with SHA-256 of input keying material, salt and info, 96 bytes: three expansion steps (R544).
DEDUCED, log entry 49. -/
def hkdf (ikm salt info : List Byte) : List Byte :=
  let prk := hmac salt ikm
  let t1 := hmac prk (info ++ [1#8])
  let t2 := hmac prk (t1 ++ info ++ [2#8])
  t1 ++ t2 ++ hmac prk (t2 ++ info ++ [3#8])

/-! ## ECDSA P-256 -/

/-- The prime of the field of P-256. -/
def p256P : Nat := 0xFFFFFFFF00000001000000000000000000000000FFFFFFFFFFFFFFFFFFFFFFFF

/-- The order of its base point. -/
def p256N : Nat := 0xFFFFFFFF00000000FFFFFFFFFFFFFFFFBCE6FAADA7179E84F3B9CAC2FC632551

/-- The coefficient b of the curve y^2 = x^3 - 3x + b. -/
def p256B : Nat := 0x5AC635D8AA3A93E7B3EBBD55769886BC651D06B0CC53B0F63BCE3C3E27D2604B

/-- The base point. -/
def p256G : Nat × Nat :=
  (0x6B17D1F2E12C4247F8BCE6E563A440F277037D812DEB33A0F4A13945D898C296,
   0x4FE342E2FE1A7F9B8EE7EB4A7C0F9E162BCE33576B315ECECBB6406837BF51F5)

/-- x to the power e modulo m, over the k low bits of e, from the highest. -/
def powMod (m x e : Nat) : Nat → Nat
  | 0 => 1
  | k + 1 =>
    let y := powMod m x (e / 2) k
    let y := y * y % m
    if e % 2 = 1 then y * x % m else y

/-- The inverse modulo a prime. -/
def invMod (m x : Nat) : Nat := powMod m x (m - 2) 256

/-- A point of the curve in Jacobian coordinates; z = 0 is the point at infinity. -/
structure P256Point where
  /-- X. -/
  x : Nat := 1
  /-- Y. -/
  y : Nat := 1
  /-- Z. -/
  z : Nat := 0
  deriving DecidableEq, Repr

/-- A difference modulo the field's prime. -/
def subP (a b : Nat) : Nat := (a + p256P - b % p256P) % p256P

/-- The double of a point. -/
def P256Point.double (p : P256Point) : P256Point :=
  if p.z = 0 ∨ p.y = 0 then {}
  else
    let m := p256P
    let zz := p.z * p.z % m
    let yy := p.y * p.y % m
    let s := 4 * p.x * yy % m
    let t := 3 * (subP p.x zz) * (p.x + zz) % m
    let x := subP (t * t) (2 * s)
    { x := x, y := subP (t * subP s x) (8 * yy * yy), z := 2 * p.y * p.z % m }

/-- The sum of two points. -/
def P256Point.add (p q : P256Point) : P256Point :=
  if p.z = 0 then q
  else if q.z = 0 then p
  else
    let m := p256P
    let pz := p.z * p.z % m
    let qz := q.z * q.z % m
    let u1 := p.x * qz % m
    let u2 := q.x * pz % m
    let s1 := p.y * qz * q.z % m
    let s2 := q.y * pz * p.z % m
    if u1 = u2 then (if s1 = s2 then p.double else {})
    else
      let h := subP u2 u1
      let r := subP s2 s1
      let hh := h * h % m
      let v := u1 * hh % m
      let hhh := h * hh % m
      let x := subP (subP (r * r) hhh) (2 * v)
      { x := x, y := subP (r * subP v x) (s1 * hhh), z := h * p.z * q.z % m }

/-- A multiple of a point, over the k low bits of the factor. -/
def P256Point.mul (p : P256Point) (e : Nat) : Nat → P256Point
  | 0 => {}
  | k + 1 =>
    let d := (p.mul (e / 2) k).double
    if e % 2 = 1 then d.add p else d

/-- The affine x coordinate of a point. -/
def P256Point.affX (p : P256Point) : Nat :=
  let i := invMod p256P p.z
  p.x * (i * i % p256P) % p256P

/-- A pair of coordinates lies on the curve. -/
def onP256 (x y : Nat) : Bool :=
  decide (x < p256P) && decide (y < p256P) &&
    y * y % p256P == (x * x * x + p256B + 3 * (p256P - x)) % p256P

/-- ECDSA P-256 verification of a digest: the public key is x then y, the signature r then s, 32 bytes each, most
significant byte first (R552, R553). DEDUCED, log entry 49. -/
def ecdsaVerify (key digest sig : List Byte) : Bool :=
  let x := bytesNatBE (key.take 32)
  let y := bytesNatBE (key.drop 32)
  let r := bytesNatBE (sig.take 32)
  let s := bytesNatBE (sig.drop 32)
  let ok := key.length == 64 && sig.length == 64 && onP256 x y && decide (0 < r) && decide (r < p256N) &&
    decide (0 < s) && decide (s < p256N)
  if ! ok then false
  else
    let w := invMod p256N s
    let u1 := bytesNatBE digest * w % p256N
    let u2 := r * w % p256N
    let g : P256Point := { x := p256G.1, y := p256G.2, z := 1 }
    let q : P256Point := { x := x, y := y, z := 1 }
    let t := (g.mul u1 256).add (q.mul u2 256)
    t.z != 0 && t.affX % p256N == r

end Sys2Proof.Machine
end

