-- ==== Sys2Proof/Machine/Banks.lean ====
section
/-! DEFINITION. The MRAM banks: which one is in force, the registers they hold, and what the NV_, SEC_
and SF_ registers show of them (R554, R555, R557, R558). -/

namespace Sys2Proof.Machine

/-- A change of the MRAM. -/
def Dev.updNv (d : Dev) (g : NvSt → NvSt) : Dev := { d with nv := g d.nv }

/-- A change of STORE, COMMIT_LC and the staging. -/
def Dev.updStore (d : Dev) (g : StoreSt → StoreSt) : Dev := { d with store := g d.store }

/-! ## Registers by access code -/

/-- The addresses of the elements of a row. -/
def RegRow.addrs (r : RegRow) : List Nat :=
  ((List.range r.n1).drop r.first).flatMap (fun i => (List.range r.n2).map (fun j => r.base + r.s1 * i + r.s2 * j))

/-- The bits of a row's fields of an access code. -/
def RegRow.maskOf (r : RegRow) (a : Acc) : Nat :=
  r.fields.foldl (fun n f => if f.acc = a then n + (2 ^ (f.hi + 1 - f.lo) - 1) * 2 ^ f.lo else n) 0

/-- The row has a field of an access code. -/
def RegRow.has (r : RegRow) (a : Acc) : Bool := r.fields.any (fun f => f.acc == a)

/-- The regions that hold RWS fields: TIM, TW, ECC, HP with SEC (R556). -/
def rwsRegs : List Nat :=
  ((rows_tim ++ rows_tw ++ rows_ecc ++ rows_hp).filter (fun r => r.has .RWS)).flatMap RegRow.addrs

/-- The registers with RWL fields: SF_ and TW_PAIR (R558), ascending. -/
def rwlRegs : List Nat :=
  sortNat (((rows_sf ++ rows_tw).filter (fun r => r.has .RWL)).flatMap RegRow.addrs)

/-- The bits of an access code in the register at an address. -/
def accMask (addr : Nat) (a : Acc) : Word :=
  match locate addr with
  | some r => word (r.row.maskOf a)
  | none => 0

/-- A word with the bits of a mask taken from another. -/
def merge (old new mask : Word) : Word := (old &&& ~~~ mask) ||| (new &&& mask)

/-! ## The settings banks (R554 to R557) -/

/-- Of two banks, each with its validity and seq, the one in force; none: neither is valid (R555). -/
def inForce (v0 v1 : Bool) (s0 s1 : Word) : Option Nat :=
  match v0, v1 with
  | true, true => some (if laterWord s1 s0 then 1 else 0)
  | true, false => some 0
  | false, true => some 1
  | false, false => none

/-- The settings bank in force, by number (R555). -/
def NvSt.bankNo (n : NvSt) : Option Nat := inForce n.bank0.valid n.bank1.valid n.bank0.seq n.bank1.seq

/-- The settings bank in force, as NV_STAT shows it. -/
def Dev.settings? (d : Dev) : Option Bank :=
  if d.flag R.NV_STAT.none then none else some (if d.flag R.NV_STAT.bank then d.nv.bank1 else d.nv.bank0)

/-- The word that the settings bank in force holds for a register, else another word. -/
def Dev.stored (d : Dev) (addr : Nat) (w : Word) : Word :=
  match d.settings?.bind (fun b => Sparse.find? b.recs addr) with
  | some v => merge w v (accMask addr .RWS)
  | none => w

/-- NV_STAT shows the settings bank in force, its seq, or that none is valid (R557). -/
def Dev.showBank (d : Dev) : Dev :=
  match d.nv.bankNo with
  | some k => ((d.setB R.NV_STAT.none false).set R.NV_STAT.bank k).set R.NV_STAT.seq
      (if k = 1 then d.nv.bank1 else d.nv.bank0).seq.toNat
  | none => d.setB R.NV_STAT.none true

/-! ## The limited-change banks (R554, R558) -/

/-- The limited-change bank in force, by number: a device that never committed holds bank 0 as it was
made. DEDUCED, log entry 54. -/
def NvSt.lcNo (n : NvSt) : Nat := (inForce n.lc0.valid n.lc1.valid n.lc0.seq n.lc1.seq).getD 0

/-- The limited-change bank in force, as NV_STAT shows it. -/
def Dev.lc (d : Dev) : LcBank := if d.flag R.NV_STAT.lc_bank then d.nv.lc1 else d.nv.lc0

/-- A key slot of the bank in force. -/
def Dev.keySlot (d : Dev) (s : Nat) : KeySlot := d.lc.keys.getD s {}

/-- The word that the bank in force holds for a limited-change register: the Reset value where none was
ever committed (R575). -/
def Dev.lcWord (d : Dev) (addr : Nat) : Word := (Sparse.find? d.lc.regs addr).getD (resetWord addr)

/-- The setting that a limited-change register belongs to (R558). -/
def settingOf (addr : Nat) : Nat :=
  if addr = R.SF_ARCH.adr then 2 else if addr = R.TW_PAIR.adr then 3 else 1

/-- The changes left of a setting (R558). -/
def LcBank.left (b : LcBank) (setting : Nat) : Nat :=
  if setting = 1 then b.lifeSafety else if setting = 2 then b.lifeArch
  else if setting = 3 then b.lifePair else nth b.lifeKeys (setting - 16)

/-- One change of a setting is counted (R558, R560). -/
def LcBank.spend (b : LcBank) (setting : Nat) : LcBank :=
  if setting = 1 then { b with lifeSafety := b.lifeSafety - 1 }
  else if setting = 2 then { b with lifeArch := b.lifeArch - 1 }
  else if setting = 3 then { b with lifePair := b.lifePair - 1 }
  else { b with lifeKeys := setNth b.lifeKeys (setting - 16) (nth b.lifeKeys (setting - 16) - 1) }

/-- The bytes of an ASCII text. -/
def ascii (s : String) : List Byte := s.toList.map (fun c => BitVec.ofNat 8 c.toNat)

/-- The key check value: the first two bytes of an HMAC over "KCV" (SEC_KEY). DEDUCED, log entry 49. -/
def kcv (key : List Byte) : Nat := bytesNat ((hmac key (ascii "KCV")).take 2)

/-- SEC_KEY, NV_STAT.lc_bank, NV_LIFE and SF_LIFE show the limited-change bank in force. -/
def Dev.showLc (d : Dev) : Dev :=
  let d := d.set R.NV_STAT.lc_bank d.nv.lcNo
  let b := d.lc
  let d := (List.range 8).foldl (fun d s =>
    let k := b.keys.getD s {}
    let d := (d.set (R.SEC_KEY.kcv s) (if k.prov then kcv k.key else 0)).set (R.SEC_KEY.left s) (nth b.lifeKeys s)
    (d.set (R.SEC_KEY.priv s) (if s = 0 then 0 else k.priv)).setB (R.SEC_KEY.prov s) k.prov) d
  let d := (d.set R.NV_LIFE.pair_left b.lifePair).set R.NV_LIFE.clog_next d.nv.clog.length
  (d.set R.SF_LIFE.arch_left b.lifeArch).set R.SF_LIFE.set_left b.lifeSafety

/-- The stored pairing identity takes effect at an identity check (R498, R558). DEDUCED, log entry 60. -/
def Dev.takePair (d : Dev) : Dev := d.wr R.TW_PAIR.adr (d.lcWord R.TW_PAIR.adr)

end Sys2Proof.Machine
end

