-- ==== Sys2Proof/Machine/Shp.lean ====
section
/-! DEFINITION. SHP messages as the device forms and sends them, the sessions and what the HP_ registers
show of them (R536, R538 to R546). -/

namespace Sys2Proof.Machine

/-- A change of the host port. -/
def Dev.updHost (d : Dev) (g : HostSt → HostSt) : Dev := { d with host := g d.host }

/-- An open session. -/
def Dev.session? (d : Dev) (k : Nat) : Option Session := d.host.sessions.getD k none

/-- A change of an open session. -/
def Dev.updSession (d : Dev) (k : Nat) (g : Session → Session) : Dev :=
  d.updHost (fun h => { h with sessions := setNth h.sessions k ((h.sessions.getD k none).map g) })

/-- The 24 bytes of an SHP header (R538). -/
def shpHeader (type len : Nat) (sid : Word) (seq : Nat) (req : Word) (result : Nat) : List Byte :=
  natBytes 1 1 ++ natBytes 1 type ++ natBytes 2 len ++ wordBytes sid ++ natBytes 8 seq ++ wordBytes req ++
    natBytes 1 result ++ natBytes 3 0

/-- The tag of a message: the first 16 bytes of the HMAC over header and payload (R540). -/
def shpTag (key : List Byte) (type : Nat) (sid : Word) (seq : Nat) (req : Word) (result : Nat)
    (words : List Word) : List Byte :=
  (hmac key (shpHeader type (4 * words.length) sid seq req result ++ wordsBytes words)).take 16

/-- A message of a session goes out under its next seq (R538, R540). -/
def Dev.shpSend (d : Dev) (k type : Nat) (req : Word) (r : Response) (dst : Word) (port : BitVec 16) : Dev :=
  match d.session? k with
  | some x =>
    let q := x.seqOut + 1
    (d.updSession k (fun x => { x with seqOut := q })).emit
      (.shp x.sid type q req r.result r.words (shpTag x.kOut type x.sid q req r.result r.words) dst port)
  | none => d

/-- The response to a request: it goes to the source of the request, and it is kept for the last 16
distinct request identities (R536, R541). -/
def Dev.respond (d : Dev) (k : Nat) (req : Word) (r : Response) : Dev :=
  match d.session? k with
  | some x =>
    (d.shpSend k r.type req r x.srcAddr x.srcPort).updSession k (fun x => { x with
      kept := ((req, r) :: x.kept.filter (fun p => p.1 ≠ req)).take 16 })
  | none => d

/-- The response kept for a request of a session (R541). -/
def Dev.keptFor (d : Dev) (k : Nat) (req : Word) : Option Response :=
  (d.session? k).bind (fun x => (x.kept.find? (fun p => p.1 = req)).map (·.2))

/-- A request is a STORE or COMMIT_LC that still runs: its response is yet to come. -/
def Dev.stillRuns (d : Dev) (sid req : Word) : Bool := d.store.job.any (fun j => j.sid == sid && j.req == req)

/-- A request is executed, or where its response is kept that response is sent again under a new seq
(R541). DEDUCED, log entry 47. -/
def Dev.once (d : Dev) (k : Nat) (req : Word) (g : Dev → Dev) : Dev :=
  match d.session? k with
  | none => d
  | some x =>
    match d.keptFor k req with
    | some r => d.shpSend k r.type req r x.srcAddr x.srcPort
    | none => if d.stillRuns x.sid req then d else g d

/-- The registers that show the stream session follow it (HP_STAT). -/
def Dev.showStream (d : Dev) : Dev :=
  match d.host.stream with
  | some k => (d.setB R.HP_STAT.stm true).set R.HP_STAT.stm_sess k
  | none => (d.setB R.HP_STAT.stm false).set R.HP_STAT.stm_sess 0

/-- Seconds since the last valid message of a session (HP_SESS.idle). -/
def Dev.idleSec (d : Dev) (x : Session) : Nat := (d.time.clock - x.last) / 1000000000

/-- What HP_SESS shows of a session. -/
def Dev.sessWord (d : Dev) (k : Nat) : Word :=
  match d.session? k with
  | some x => word (satN 16 (d.idleSec x) * 65536 + x.priv * 256 + x.kind * 64 + x.slot * 8 + 1)
  | none => 0

/-- HP_STAT and HP_SESS show the sessions. -/
def Dev.showSessions (d : Dev) : Dev :=
  let d := d.set R.HP_STAT.sessions ((d.host.sessions.filter Option.isSome).length)
  ((List.range 4).foldl (fun d k => d.wr (R.HP_SESS.adr k) (d.sessWord k)) d).showStream

/-- A valid message of a session arrived (R543). -/
def Dev.touch (d : Dev) (k : Nat) : Dev := d.updSession k (fun x => { x with last := d.time.clock })

/-- The staged limited-change values are discarded (R559). -/
def Dev.discardStaging (d : Dev) : Dev :=
  (d.updStore (fun z => { z with stRegs := [], stKeys := [] })).setB R.NV_STAT.lc_stage false

/-- A session closes: its waiting messages and the stream end with it, and the staging with a session
that may stage (R543, R546, R559). -/
def Dev.closeSession (d : Dev) (k : Nat) : Dev :=
  match d.session? k with
  | none => d
  | some x =>
    let d := d.updHost (fun h => { h with
      sessions := setNth h.sessions k none, inbox := h.inbox.filter (fun m => m.sess ≠ k),
      stream := if h.stream = some k then none else h.stream })
    (if x.kind = 0 then d else d.discardStaging).showSessions

/-- Every session closes, the handshakes in progress too (R565, R570, R578). -/
def Dev.closeAll (d : Dev) : Dev :=
  ((List.range 4).foldl Dev.closeSession d).updHost (fun h => { h with challenges := [] })

/-- The limited-change session closes on leaving Service (R546, R587). -/
def Dev.closeLimited (d : Dev) : Dev :=
  (List.range 4).foldl (fun d k =>
    if (d.session? k).any (fun x => x.kind == 1) then d.closeSession k else d) d

end Sys2Proof.Machine
end

