-- ==== Sys2Proof/Machine/Modes.lean ====
section
/-! DEFINITION. The operating modes: what a transition does, the local output pair that follows the
mode, the device fault and the causes of one tick (chapter 18, R439, R451). -/

namespace Sys2Proof.Machine

/-- A change of the start-up state. -/
def Dev.updMode (d : Dev) (g : ModeSt → ModeSt) : Dev := { d with mode := g d.mode }

/-- A change of the safety state. -/
def Dev.updSaf (d : Dev) (g : SafSt → SafSt) : Dev := { d with saf := g d.saf }

/-- The level driven on ALARM_N: low in Lock-out and Alarm and while halted, not driven in Reset (R594). -/
def Dev.showAlarmN (d : Dev) : Dev :=
  d.setB R.DEV_STAT.alarm_n
    (d.omode != mReset && d.omode != mLockout && d.omode != mAlarm && ! d.flag R.DEV_STAT.halt)

/-- The condition of the local output pair: off in Reset, Self-test and Load and in lock-out, else on
while every zone of its mask grants permission (R439, R569). -/
def Dev.pairOn (d : Dev) : Bool :=
  d.omode != mReset && d.omode != mSelfTest && d.omode != mLoad && ! d.flag R.SF_STAT.lockout &&
  (List.range 16).all (fun z => ! bit (word (d.fld R.SF_OUT_CFG.zmask)) z || d.flag (R.SF_ZONE_STAT.perm z))

/-- The output pair follows its condition; a test does not go on with the pair off (R439, R441). -/
def Dev.outEval (d : Dev) : Dev :=
  let on := d.pairOn
  let d := if on then d else d.updSaf (fun z => { z with lsDue := false })
  (d.setB R.SF_OUT_STAT.cmd_hs on).setB R.SF_OUT_STAT.cmd_ls on

/-- The modes whose entry holds the recipes that run (R410). -/
def holdsRecipes (old new : Nat) : Bool :=
  new == mHold || new == mStop || new == mLockout || new == mAlarm || (old == mRun && new == mReady)

/-- Each motion group that has an axis in Catching, Releasing, Enabled, Stopping or Coasting, by its
axes (R585). -/
def Dev.movingGroups (d : Dev) : List Nat :=
  let moving := fun a => decide (aCatching ≤ d.astate a) && decide (d.astate a ≤ aCoasting)
  d.axesUsed.filter (fun a => (d.group (d.fld (R.AX_CFG.grp a))).any moving)

/-- What entering a mode does to recipes and axes (R410, R564, R584, R585, R586). -/
def Dev.modeActs (d : Dev) (old new : Nat) : Dev :=
  let d := if holdsRecipes old new then d.holdRecipes else d
  if new = mHold then d.axesUsed.foldl Dev.holdAxis d
  else if new = mStop then d.requestSs1 d.movingGroups
  else if new = mAlarm then d.requestSs1 d.axesUsed
  else d

/-- The mode carried on entry into a mode: equal to the mode outside Shadow; in Shadow the mode that a
demotion or handover found, or Ready on coming from Listen, Lock-out or Alarm without a demotion, until a
state copy brings another (R582, R592, R593). -/
def carriedOn (old new reason : Nat) : Nat :=
  if new ≠ mShadow then new
  else if reason = 5 ∨ reason = 6 then old
  else mReady

/-- A transition between operating modes, with its reason; leaving Service closes the limited-change
session (R546, R568, R581, R595). -/
def Dev.enterMode (d : Dev) (new reason : Nat) : Dev :=
  let old := d.omode
  if new = old then d
  else
    let d := (((d.set R.DEV_MODE.mode new).set R.DEV_MODE.prev old).set R.DEV_MODE.reason reason).set
      R.DEV_MODE.carried (carriedOn old new reason)
    let d := (d.setB R.DEV_EVT.mode true).bump R.DEV_CNT.trans
    let d := if new = mLockout then d.bump R.DEV_CNT.lockout else d
    let d := if new = mAlarm then d.bump R.DEV_CNT.alarm else d
    let d := d.note 0 7 0 [word old, word new, word reason]
    let d := d.updMode (fun z => { z with
      since := d.time.clock, cause := if reason = 1 then z.cause else some (new, reason) })
    let d := if old = mService then d.closeLimited else d
    ((d.modeActs old new).showAlarmN).outEval

/-- Ready, or Shadow for a standby, on leaving Lock-out or Alarm (R590, R591, R593). -/
def Dev.backToReady (d : Dev) (reason : Nat) : Dev :=
  d.enterMode (if d.isTwin ∧ ! d.isActive ∧ d.twin.roleKnown then mShadow else mReady) reason

/-- A zone state is entered: permission in RUN and SS1; the axes that a zone without permission covers
take Safe-off; LOCKED with its cause (R428, R429, R431). -/
def Dev.zoneEnter (d : Dev) (z st cause : Nat) : Dev :=
  let old := d.fld (R.SF_ZONE_STAT.zstate z)
  let perm := st == 1 || st == 2
  let d := ((d.set (R.SF_ZONE_STAT.zstate z) st).setB (R.SF_ZONE_STAT.perm z) perm).set
    (R.SF_ZONE_STAT.lock_cause z) (if st ≠ 4 then 0 else if old = 4 ∧ cause ≠ 1 then d.fld (R.SF_ZONE_STAT.lock_cause z) else cause)
  let d := d.updZone z (fun x => { x with sent := x.sent || perm, join := 0, fresh := x.fresh && ! perm })
  let d := if st = 2 then d else
    d.updSaf (fun x => { x with mons := x.mons.filter (fun m => m.zone ≠ some z) })
  let d := if st = 4 ∧ old ≠ 4 then d.event 0 R.SF_EVT.zone_lock z [word cause] else d
  let d := if perm then d else (d.axesUsed.filter (fun a => d.zoneCovers z a)).foldl Dev.axSafeOff d
  d.outEval

/-- The zones in use. -/
def Dev.zonesUsed (d : Dev) : List Nat := (List.range 16).filter (fun z => d.flag (R.SF_ZONE_CFG.en z))

/-- A device fault: the output pair off, every zone in use LOCKED with cause 1, lock-out with its cause,
and the mode Lock-out from Listen on (R451, R581). In a lock-out that stands, the first cause stays. -/
def Dev.deviceFault (d : Dev) (cause : Nat) : Dev :=
  let d := if d.flag R.SF_STAT.lockout then d
    else ((d.setB R.SF_STAT.lockout true).set R.SF_STAT.lo_cause cause).event 0 R.SF_EVT.lockout 0 [word cause]
  let d := d.updSaf (fun z => { z with retest := false, retested := false })
  let d := d.zonesUsed.foldl (fun d z => d.zoneEnter z 4 1) d
  let d := d.outEval
  if d.omode = mReset ∨ d.omode = mSelfTest ∨ d.omode = mLoad then d else d.enterMode mLockout 3

end Sys2Proof.Machine
end

