-- ==== Sys2Proof/Machine/Ecc.lean ====
section
/-! DEFINITION. The scrubber, the error log, error injection and the retirement list (chapter 16). -/

namespace Sys2Proof.Machine

/-! ## Scrubbing (R522, R525) -/

/-- The scrubber reads one byte: a corrected byte is written back, an uncorrectable one is counted and
logged as found by scrub and left as it is; one of the safety core's memory is a device fault (R451,
R524, R525). -/
def Dev.scrubByte (d : Dev) (code : Nat) : Dev :=
  let fl := d.flipAt code
  if fl = 0 then d
  else
    let r := storedBits (d.byteAt code) ^^^ fl
    match eccCheck r with
    | .clean _ => d
    | .corrected b => d.eccCorrected reqScrub code b r
    | .bad =>
      let d := ((d.bump R.ECC_CNT.scrub_unc).wr R.ECC_LAST_ADDR.adr (word code)).setB R.ECC_EVT.scrub_unc true
      let d := d.logErr 3 0 code ((d.pageCnt (code / 4096)).cor) r
      if memId code = 15 ∧ ! d.flag R.SF_STAT.lockout then d.deviceFault 5 else d

/-- A completed pass: ECC_SCRUB shows it, and the corrections of the next pass are counted anew (R522,
R525). -/
def Dev.scrubPass (d : Dev) : Dev :=
  let ms := (d.time.clock - d.ecc.passStart) / 1000000
  let d := (d.bumpMod R.ECC_SCRUB.passes).set R.ECC_SCRUB.last_ms (satN 16 ms)
  { d with ecc := { d.ecc with pages := [], passStart := d.time.clock } }

/-- One scrub access: 32 bytes, then the next ones; the last bytes of the last memory end the pass
(R525). -/
def Dev.scrubAccess (d : Dev) : Dev :=
  let p := d.ecc.scrubPos
  let d := (List.range 32).foldl (fun (d : Dev) k => d.scrubByte (p + k)) d
  if memOfs p + 32 < memSize (memId p) then { d with ecc := { d.ecc with scrubPos := p + 32 } }
  else if memId p < 15 then { d with ecc := { d.ecc with scrubPos := memCode (memId p + 1) 0 } }
  else ({ d with ecc := { d.ecc with scrubPos := 0 } }).scrubPass

/-- SCRUB_ACCESS (R525). -/
def execScrubAccess (s : State) : Host.Outcome State Fault Refusal := s.onDev Dev.scrubAccess

/-! ## The error log (R530) -/

/-- The words of an error-log entry with a sequence number (R530). -/
def LogEnt.words (e : LogEnt) (seq : Word) : List Word :=
  let ws := [word (e.type * 2 ^ 24 + e.lost % 256 * 2 ^ 16 + e.req.toNat), seq,
    word e.time.toNat, word (e.time.toNat / 2 ^ 32), word e.tick, e.code,
    word (e.count * 2 ^ 16 + e.bits.toNat)]
  ws ++ [crc32 (wordsBytes ws)]

/-- The oldest queued entry is written to MRAM, in rotation (R530). -/
def Dev.errorLogCommit (d : Dev) : Dev :=
  match d.ecc.queue with
  | [] => d
  | e :: t =>
    let seq := d.nv.logSeq + 1
    let i := d.nv.logNext % 1024
    let next := (i + 1) % 1024
    let d := { d with
      ecc := { d.ecc with queue := t },
      nv := { d.nv with logSeq := seq, log := Sparse.insert d.nv.log i (e.words seq), logNext := next } }
    d.set R.ECC_LOG_STAT.next next

/-- ERROR_LOG_COMMIT (R530). -/
def execErrorLogCommit (s : State) : Host.Outcome State Fault Refusal := s.onDev Dev.errorLogCommit

/-- A word of the error log as held in MRAM; an entry never written reads 0. -/
def Dev.logWord (d : Dev) (i w : Nat) : Word :=
  match Sparse.find? d.nv.log i with
  | some ws => nthW ws w
  | none => 0

/-! ## Injection, retirement and counters -/

/-- A write to ECC_INJ_CTRL: accepted only in Service (R533). -/
def Dev.eccInjCtrlWr (d : Dev) (v : Word) : Dev × WrRes :=
  if d.rmode = mService then (d.wr R.ECC_INJ_CTRL.adr (v &&& 0x80001FFF#32), .ok 0)
  else d.rejectAt R.ECC_EVT.cfg_rej

/-- ECC_INJ_CTRL_WRITE (R533). -/
def execEccInjCtrlWrite (v : Word) (s : State) : Host.Outcome State Fault Refusal :=
  s.onDev (fun d => (d.eccInjCtrlWr v).1)

/-- A write to ECC_INJ_ADDR: accepted only in Service, and not for the safety core's memory (R533). -/
def Dev.eccInjAddrWr (d : Dev) (v : Word) : Dev × WrRes :=
  if d.rmode = mService ∧ memId v.toNat ≠ 15 then (d.wr R.ECC_INJ_ADDR.adr v, .ok 0)
  else d.rejectAt R.ECC_EVT.cfg_rej

/-- A retirement entry names an existing page that no other valid entry names (R531). -/
def Dev.eccRetOk (d : Dev) (i : Nat) (v : Word) : Bool :=
  let m := bits v 19 16
  let p := bits v 15 0
  decide (m ≤ 14) && decide (p < memSize m / 4096) &&
    (List.range 64).all (fun k => k == i || ! d.flag (R.ECC_RET.valid k) ||
      d.fld (R.ECC_RET.mem k) != m || d.fld (R.ECC_RET.page k) != p)

/-- A write to ECC_RET: accepted only in Load and Service (R531). -/
def Dev.eccRetWr (d : Dev) (i : Nat) (v : Word) : Dev × WrRes :=
  if d.loadOrService ∧ d.eccRetOk i v then (d.wr (R.ECC_RET.adr i) (v &&& 0x800FFFFF#32), .ok 0)
  else d.rejectAt R.ECC_EVT.cfg_rej

/-- ECC_RET_WRITE (R531). -/
def execEccRetWrite (i : Fin 64) (v : Word) (s : State) : Host.Outcome State Fault Refusal :=
  s.onDev (fun d => (d.eccRetWr i v).1)

/-- ECC_CTRL.cnt_clr (R534). -/
def Dev.eccCntClr (d : Dev) : Dev := (d.wr R.ECC_CNT.adr 0).set R.ECC_LOG_STAT.lost 0

/-- ECC_CNT_CLR (R534). -/
def execEccCntClr (s : State) : Host.Outcome State Fault Refusal := s.onDev Dev.eccCntClr

end Sys2Proof.Machine
end

