-- ==== Sys2Proof/Machine/Safe.lean ====
section
/-! DEFINITION. The safety functions: demands and zones, SS1 monitoring, local inputs and outputs,
safety PDUs, lock-out and resets (chapter 13). -/

namespace Sys2Proof.Machine

/-- Zone states (SF_ZONE_STAT.zstate). -/
def zRun : Nat := 1
/-- SS1. -/
def zSs1 : Nat := 2
/-- STO. -/
def zSto : Nat := 3
/-- LOCKED. -/
def zLocked : Nat := 4

/-- The state of a zone. -/
def Dev.zstate (d : Dev) (z : Nat) : Nat := d.fld (R.SF_ZONE_STAT.zstate z)

/-- The connections of a zone. -/
def Dev.zoneConns (d : Dev) (z : Nat) : List Nat :=
  (List.range 64).filter (fun c => d.flag (R.SF_CONN_CFG.en c) && d.fld (R.SF_CONN_CFG.zone c) == z)

/-- A connection of the zone is starting (R449). -/
def Dev.zoneStarting (d : Dev) (z : Nat) : Bool :=
  (d.zoneConns z).any (fun c => d.flag (R.SF_CONN_STAT.starting c))

/-- The axes that a zone covers (R428). -/
def Dev.covered (d : Dev) (z : Nat) : List Nat := d.axesUsed.filter (fun a => d.zoneCovers z a)

/-- An axis is monitored in SS1 (SF_AX_CFG.mon). -/
def Dev.axMon (d : Dev) (a : Nat) : Bool := d.flag (R.SF_AX_CFG.mon a)

/-! ## Demands (R428) -/

/-- The demands present on a zone: 0 and 1 the local inputs, 2 a host STO demand, 3 a host SS1 demand,
16 and up the connections' input bits. -/
def Dev.demands (d : Dev) (z : Nat) : List Nat :=
  let pair := d.flag R.SF_IN_CFG.pair
  let la := d.flag (R.SF_ZONE_CFG.loc_a z) &&
    ! (if pair then d.flag R.SF_IN_STAT.pair_st else d.flag R.SF_IN_STAT.a)
  let lb := d.flag (R.SF_ZONE_CFG.loc_b z) && ! pair && ! d.flag R.SF_IN_STAT.b
  let cs := (d.zoneConns z).filter (fun c =>
    ! d.flag (R.SF_CONN_STAT.starting c) && d.fld (R.SF_CONN_CFG.kind c) == 1)
  let zs := d.zone z
  (if la then [0] else []) ++ (if lb then [1] else []) ++ (if zs.hostSto then [2] else []) ++
    (if zs.hostSs1 then [3] else []) ++
    cs.flatMap (fun c => ((List.range 16).filter (fun b =>
      bit (word (d.fld (R.SF_CONN_MAP.dem c))) b && ! bit (word (d.fld (R.SF_CONN_STAT.in_st c))) b)).map
        (fun b => 16 + 16 * c + b))

/-- A demand asks for STO: a host demand names its function, an input demand takes the zone's (R428). -/
def Dev.demIsSto (d : Dev) (z k : Nat) : Bool :=
  if k = 2 then true else if k = 3 then false else ! d.flag (R.SF_ZONE_CFG.fn z)

/-- A cause that locks the zone is present (R429, R447, R451, R453). -/
def Dev.zoneFaulty (d : Dev) (z : Nat) : Bool :=
  d.flag R.SF_STAT.lockout ||
  (d.flag R.SF_IN_STAT.disc && d.flag R.SF_IN_CFG.pair && d.flag (R.SF_ZONE_CFG.loc_a z)) ||
  (d.zoneConns z).any (fun c => ! d.flag (R.SF_CONN_STAT.starting c) &&
    (decide (d.fld (R.SF_CONN_CFG.wd c) ≤ d.fld (R.SF_CONN_STAT.miss c)) ||
     d.flag (R.SF_CONN_STAT.fail_in c) ||
     (d.conn c).inFlt &&& BitVec.ofNat 16 (d.fld (R.SF_CONN_MAP.dem c)) != 0))

/-! ## The zones (R429 to R431) -/

/-- SS1 of a zone begins in tick s: its covered axes stop in the axis computation of tick s + 1, and each
monitored one is watched (R431, R434). -/
def Dev.startSs1 (d : Dev) (z s : Nat) : Dev :=
  let d := d.updZone z (fun x => { x with s := s })
  let d := d.wr (R.SF_ZONE_T.adr z) 0
  let d := (d.covered z).foldl (fun d a => d.updAx a (fun x => { x with ss1 := some s })) d
  d.updSaf (fun x => { x with mons := x.mons ++
    ((d.covered z).filter d.axMon).map (fun a => { axis := a, zone := some z, s := s }) })

/-- A zone meets its demands of tick s: STO before SS1; without a demand a zone in STO whose release
needs no reset goes to RUN unless a connection is starting (R429, R430, R449). -/
def Dev.zoneEval (d : Dev) (z s : Nat) : Dev :=
  let dem := d.demands z
  let d := d.setB (R.SF_ZONE_STAT.dem z) (! dem.isEmpty)
  let st := d.zstate z
  if (st = zRun ∨ st = zSs1) ∧ dem.any (d.demIsSto z) then d.zoneEnter z zSto 0
  else if st = zRun ∧ ! dem.isEmpty then (d.zoneEnter z zSs1 0).startSs1 z s
  else if st = zSto ∧ dem.isEmpty ∧ ! d.flag (R.SF_ZONE_CFG.man_rst z) ∧ ! d.zoneStarting z then
    d.zoneEnter z zRun 0
  else d

/-- A demand that was not there before requests the mode Stop where the zone says so, in Run and Hold
(R428, R581). -/
def Dev.devStop (d : Dev) (z : Nat) (before : List Nat) : Dev :=
  if d.flag (R.SF_ZONE_CFG.dev_stop z) ∧ (d.demands z).any (fun k => ! before.contains k) ∧
      (d.omode = mRun ∨ d.omode = mHold) then d.enterMode mStop 2
  else d

/-- Something that demands may rest on has changed: every zone in use meets its demands, as events of
tick s (R428 to R431). -/
def Dev.demChanged (d old : Dev) (s : Nat) : Dev :=
  d.zonesUsed.foldl (fun d z => (d.zoneEval z s).devStop z (old.demands z)) d

/-- A zone fault: the zone goes to LOCKED with its cause (R429, R447). -/
def Dev.zoneFault (d : Dev) (z cause : Nat) : Dev :=
  if d.flag (R.SF_ZONE_CFG.en z) ∧ d.zstate z ≠ zLocked then d.zoneEnter z zLocked cause else d

/-- The tick to which an event of the safety channels' own time belongs: the next tick instant latches
it (R58, R64). -/
def Dev.nextTick (d : Dev) : Nat := if d.time.numbered then d.tick + 1 else 0

/-- A host demand is latched on the zones of a mask (R428). -/
def Dev.hostDemand (d : Dev) (mask : Nat) (sto : Bool) : Dev :=
  let old := d
  let d := (d.zonesUsed.filter (fun z => mask / 2 ^ z % 2 = 1)).foldl (fun d z => d.updZone z (fun x =>
    if sto then { x with hostSto := true } else { x with hostSs1 := true })) d
  d.demChanged old d.tick

/-- A write to SF_DEM: a bit of 0 has no effect (R428, R458). -/
def Dev.sfDemWr (d : Dev) (v : Word) : Dev × WrRes :=
  ((d.hostDemand (bits v 31 16) true).hostDemand (bits v 15 0) false, .ok 0)

/-- SF_DEM_STO (R428). -/
def execSfDemSto (mask : BitVec 16) (s : State) : Host.Outcome State Fault Refusal :=
  s.onDev (fun d => d.hostDemand mask.toNat true)

/-- SF_DEM_SS1 (R428). -/
def execSfDemSs1 (mask : BitVec 16) (s : State) : Host.Outcome State Fault Refusal :=
  s.onDev (fun d => d.hostDemand mask.toNat false)

/-- SF_CTRL.cnt_clr: the test count and every connection's counts (R459). -/
def Dev.sfCntClr (d : Dev) : Dev :=
  (List.range 64).foldl (fun d c => d.wr (R.SF_CONN_CNT.adr c) 0) (d.set R.SF_OUT_STAT.tests 0)

/-- SF_CNT_CLR (R459). -/
def execSfCntClr (s : State) : Host.Outcome State Fault Refusal := s.onDev Dev.sfCntClr

/-! ## Local safe inputs (R437, R438) -/

/-- The two filtered states disagree with the pair's rule (R438). -/
def Dev.pairDisagrees (d : Dev) : Bool :=
  d.flag R.SF_IN_CFG.pair && ((d.flag R.SF_IN_STAT.a == d.flag R.SF_IN_STAT.b) == d.flag R.SF_IN_CFG.anti)

/-- The filtered states are shown: the state of the pair, and the discrepancy fault gone where both
balls show the demand state together (R438). -/
def Dev.showInputs (d : Dev) : Dev :=
  let a := d.saf.ina.filt
  let b := d.saf.inb.filt
  let anti := d.flag R.SF_IN_CFG.anti
  let d := ((d.setB R.SF_IN_STAT.a a).setB R.SF_IN_STAT.b b).setB R.SF_IN_STAT.pair_st (a && (b != anti))
  if ! a && (b == anti) then d.setB R.SF_IN_STAT.disc false else d

/-- SAFE_INPUT_CHANGE: the sampled level of a ball changes; the filter time begins (R437). -/
def execSafeInputChange (b : Bool) (level : Bool) (s : State) : Host.Outcome State Fault Refusal :=
  s.onDev (fun d => d.updSaf (fun z =>
    if b then { z with inb := { z.inb with level := level } }
    else { z with ina := { z.ina with level := level } }))

/-- SAFE_INPUT_FILTERED: the level has held for the filter time; the filtered state follows, and demands
with it (R428, R437, R438). DEDUCED, log entry 15. -/
def execSafeInputFiltered (b : Bool) (s : State) : Host.Outcome State Fault Refusal :=
  s.onDev (fun d =>
    let old := d
    let d := d.updSaf (fun z =>
      if b then { z with inb := { z.inb with filt := z.inb.level } }
      else { z with ina := { z.ina with filt := z.ina.level } })
    d.showInputs.demChanged old d.nextTick)

/-- DISCREPANCY_TIMEOUT: the pair has disagreed for longer than disc_ms; every zone that selects the
input goes to LOCKED (R438, R447). -/
def execDiscrepancyTimeout (s : State) : Host.Outcome State Fault Refusal :=
  s.onDev (fun d =>
    if d.pairDisagrees then
      let d := (d.setB R.SF_IN_STAT.disc true).event 0 R.SF_EVT.disc 0
      (d.zonesUsed.filter (fun z => d.flag (R.SF_ZONE_CFG.loc_a z))).foldl (fun d z => d.zoneFault z 5) d
    else d)

/-! ## Safety PDUs (R442 to R449) -/

/-- SAFETY_PDU_RX: a station-to-head PDU of a valid feedback segment of the present tick is judged; a
valid one ends the starting of its connection, brings its inputs, its demands and its faults (R427,
R442, R445, R447, R449). -/
def Dev.safetyPdu (d : Dev) (c : Nat) (p : List Word) : Dev :=
  if ! d.flag (R.SF_CONN_CFG.en c) then d
  else if (d.head (d.fld (R.SF_CONN_CFG.stn c))).got ∧ ! d.easel.closed ∧
      d.pduValid c p 1 (d.fld (R.SF_CONN_CFG.wd c)) d.tick then
    let old := d
    let io := d.fld (R.SF_CONN_CFG.kind c) = 1
    let fail := bit (nthW p 0) 6
    let d := (d.set (R.SF_CONN_STAT.miss c) 0).setB (R.SF_CONN_STAT.starting c) false
    let d := d.setB (R.SF_CONN_STAT.fail_in c) fail
    let d := if io then d.set (R.SF_CONN_STAT.in_st c) (bits (nthW p 2) 15 0) else d
    let d := d.updConn c (fun x => { x with
      seen := true,
      inFlt := if io then BitVec.ofNat 16 (bits (nthW p 2) 31 16) else 0,
      pos := if io then x.pos else nthW p 2,
      sto := ! io && bit (nthW p 1) 0 })
    let z := d.fld (R.SF_CONN_CFG.zone c)
    let d := if fail then d.zoneFault z 3 else d
    let d := if (d.conn c).inFlt &&& BitVec.ofNat 16 (d.fld (R.SF_CONN_MAP.dem c)) ≠ 0 then d.zoneFault z 4
      else d
    d.demChanged old d.tick
  else (d.bump (R.SF_CONN_CNT.bad c)).event 0 R.SF_EVT.pdu_bad c

/-- SAFETY_PDU_RX (R445). DEDUCED, log entry 15. -/
def execSafetyPduRx (c : Fin 64) (pdu : List Word) (s : State) : Host.Outcome State Fault Refusal :=
  s.onDev (fun d => d.safetyPdu c pdu)

/-- The partner's PDU to a station, as this unit sees it in the partner's frame: its data where it is
valid (R448). -/
def Dev.partnerPdu (d : Dev) (c : Nat) (p : List Word) : Dev :=
  if d.pduValid c p 0 (d.fld (R.SF_CONN_CFG.wd c)) d.tick then
    d.updConn c (fun x => { x with grant := some (nthW p 2) })
  else d

/-- The partner grants every output that a connection's permission drives (R442, R448). -/
def Dev.partnerGrants (d : Dev) (c : Nat) : Bool :=
  match (d.conn c).grant with
  | none => false
  | some w =>
    if d.fld (R.SF_CONN_CFG.kind c) = 2 then bit w 0
    else bits w 15 0 &&& d.fld (R.SF_CONN_MAP.out c) == d.fld (R.SF_CONN_MAP.out c)

/-- The conditions under which a zone that has waited since Self-test joins a running partner (R448). -/
def Dev.joinOk (d : Dev) (z : Nat) : Bool :=
  d.isTwin && d.zstate z == zSto && (d.zone z).fresh && (d.demands z).isEmpty && ! d.zoneFaulty z &&
  (d.zoneConns z).all d.partnerGrants

/-- The connections of a tick are summed up once its segments are in: ticks without a valid PDU, and the
joining counts (R427, R447, R448, R449). -/
def Dev.pduTick (d : Dev) : Dev :=
  let cs := (List.range 64).filter (fun c => d.flag (R.SF_CONN_CFG.en c))
  let d := cs.foldl (fun d c =>
    if (d.conn c).seen ∨ d.flag (R.SF_CONN_STAT.starting c) then d else d.bump (R.SF_CONN_STAT.miss c)) d
  d.zonesUsed.foldl (fun d z =>
    let ok := d.joinOk z
    d.updZone z (fun x => { x with join := if ok then min 1024 (x.join + 1) else 0 })) d

/-- What the connections hold of one tick ends with it. -/
def Dev.pduClear (d : Dev) : Dev :=
  d.updSaf (fun z => { z with conns := z.conns.map (fun (p : Nat × ConnSt) =>
    (p.1, { p.2 with seen := false, grant := none })) })

/-- PDU_WATCHDOG_EXPIRY: W consecutive ticks without a valid PDU (R447). -/
def execPduWatchdogExpiry (c : Fin 64) (s : State) : Host.Outcome State Fault Refusal :=
  s.onDev (fun d =>
    if d.flag (R.SF_CONN_CFG.en c) ∧ ! d.flag (R.SF_CONN_STAT.starting c) ∧
        d.fld (R.SF_CONN_CFG.wd c) ≤ d.fld (R.SF_CONN_STAT.miss c) then
      ((d.bump (R.SF_CONN_CNT.trips c)).event 0 R.SF_EVT.wd c).zoneFault (d.fld (R.SF_CONN_CFG.zone c)) 2
    else d)

/-- JOINING_RELEASE (R429, R448, R449). -/
def execJoiningRelease (z : Fin 16) (s : State) : Host.Outcome State Fault Refusal :=
  s.onDev (fun d =>
    if d.flag (R.SF_ZONE_CFG.en z) ∧ 1024 ≤ (d.zone z).join ∧ d.joinOk z ∧ ! d.zoneStarting z then
      d.zoneEnter z zRun 0
    else d)

/-- The outgoing PDU of a connection: zeros until its own zone has granted permission; then its
permissions and its fault bit (R425, R442 to R444, R451). -/
def Dev.pduOut (d : Dev) (c : Nat) : List Word :=
  let z := d.fld (R.SF_CONN_CFG.zone c)
  if ! (d.zone z).sent then [0, 0, 0, 0]
  else
    let locked := d.zstate z == zLocked || d.flag R.SF_STAT.lockout
    let oz := d.fld (R.SF_CONN_OZ.oz c)
    let grant := ! d.flag R.SF_STAT.lockout && d.flag (R.SF_ZONE_STAT.perm z) &&
      (List.range 16).all (fun k => oz / 2 ^ k % 2 == 0 || d.flag (R.SF_ZONE_STAT.perm k))
    let drive := d.fld (R.SF_CONN_CFG.kind c) == 2
    let st := d.fld (R.SF_CONN_CFG.stn c)
    let cell := d.axesUsed.filter (fun a => d.fld (R.AX_CFG.stn a) == st)
    let data : Nat :=
      if drive then b2n (grant && cell.all (fun a => d.axPermitted a && ! (d.ax a).stoCmd))
      else if grant then d.fld (R.SF_CONN_MAP.out c) else 0
    let w0 := word (d.tick % 65536 * 65536 + d.fld (R.SF_CONN_CFG.wd c) * 256 + b2n locked * 64 + c)
    let w1 := word (d.fld (R.SF_CONN_ID.cid c) * 256 + b2n locked)
    let ws := [w0, w1, word data]
    ws ++ [crc32c (d.rd (R.SF_CONN_SEED.adr c)) (wordsBytes ws)]

/-- The PDUs of the present tick's frames: as the channels formed them at T(n) + 1,000 ns, or as they
stand where no comparison of the tick has been made (R425, R444). -/
def Dev.pduFor (d : Dev) (c : Nat) : List Word :=
  if d.saf.pdusTick = some d.tick then ((d.saf.pdus.find? (fun p => p.1 = c)).map (·.2)).getD (d.pduOut c)
  else d.pduOut c

/-! ## SS1 monitoring (R431 to R436) -/

/-- The newest sample of each monitored axis, where the present tick brought a fresh one (R433). -/
def Dev.posSamples (d : Dev) : List (Nat × Nat × Word) :=
  (d.axesUsed.filter d.axMon).filterMap (fun a =>
    if d.flag (R.SF_AX_CFG.src a) then
      let c := d.fld (R.SF_AX_CFG.conn a)
      if (d.conn c).seen then some (a, d.tick, (d.conn c).pos) else none
    else if (d.head (d.fld (R.AX_CFG.stn a))).got then some (a, d.tick, d.axPos a)
    else none)

/-- The fresh samples of the last 64 ticks, the largest window (R433, SF_ZONE_CFG.win). -/
def Dev.keepSamples (d : Dev) : Dev :=
  let new := d.posSamples
  d.updSaf (fun z => { z with hist := z.hist.filter (fun p => d.tick < p.2.1 + 64) ++ new })

/-- The speed of an axis in tick k over the fresh samples of the last win ticks, in rpm. Where they are
fewer than two the spec states no speed: a free value (R433). DESIGN CHOICE, log entry 61. -/
def Dev.ss1Speed (d : Dev) (a k win : Nat) : Rat :=
  let l := d.saf.hist.filter (fun p => p.1 = a ∧ p.2.1 ≤ k ∧ k < p.2.1 + win)
  match l.head?, l.getLast? with
  | some o, some n =>
    let dk := n.2.1 - o.2.1
    let cpr := d.fld (R.SF_AX_CPR.cpr a)
    if dk = 0 ∨ cpr = 0 then ((Config.openValue 433 [a, k]).natAbs : Rat)
    else ((n.2.2 - o.2.2).toInt.natAbs : Rat) * 60000000000 / ((cpr : Rat) * dk * d.time.tickNs)
  | _, _ => ((Config.openValue 433 [a, k]).natAbs : Rat)

/-- The zone whose parameters a monitoring takes (R434). -/
def Mon.par (m : Mon) : Nat := m.zone.getD 0

/-- The age that R435 judges. -/
def Dev.monAge (d : Dev) (a : Nat) : Nat := d.slotAge (d.fld (R.AX_CFG.stn a))

/-- One tick of a monitoring of a monitored axis: its speeds, its standstill count, and whether it is
violated by the envelope or by age (R433 to R435). An axis that has reached standstill, or that is not
monitored, is not judged. -/
def Dev.monTick (d : Dev) (m : Mon) : Mon × Bool :=
  let z := m.par
  if m.still ∨ ! d.axMon m.axis ∨ d.tick < m.s then (m, false)
  else
    let win := d.fld (R.SF_ZONE_CFG.win z)
    let age := d.monAge m.axis
    let v0 := m.v0.getD (d.ss1Speed m.axis m.s win)
    let v := if age = 0 then d.ss1Speed m.axis d.tick win else if m.v0.isNone then v0 else m.last
    let t : Rat := ((d.tick - m.s) * d.time.tickNs : Nat) / 1000000000
    let env := v0 - ((d.fld (R.SF_ZONE_SS1A.a_mon z) * 10 : Nat) : Rat) * t + (d.fld (R.SF_ZONE_SS1A.tol z) : Rat)
    let zero := v < (d.fld (R.SF_ZONE_SS1B.v_zero z) : Rat)
    ({ m with v0 := some v0, last := v, zeroRun := if zero then m.zeroRun + 1 else 0 },
     decide (2 ≤ age) || decide (env ≤ v))

/-- Monitorings of an axis that have come to their end are dropped (R434, R436). -/
def Dev.dropMons (d : Dev) (p : Mon → Bool) : Dev :=
  d.updSaf (fun z => { z with mons := z.mons.filter (fun m => ! p m) })

/-- A monitoring commands STO by envelope, age or t_max: of its whole zone, or of its axis under R432
(R434, R435). -/
def Dev.monViolated (d : Dev) (m : Mon) : Dev :=
  let d := d.event 0 R.SF_EVT.ss1_sto m.axis
  match m.zone with
  | some z => if d.zstate z = zSs1 then d.zoneEnter z zSto 0 else d
  | none => (d.axStoCmd m.axis).dropMons (fun x => x.zone.isNone && x.axis == m.axis)

/-- SS1_MONITOR: every monitoring is evaluated for the present tick, in ascending axis; the time of each
zone in SS1 is shown (R63, R433 to R435). A zone in SS1 that covers no axis at all takes STO when t_max
has passed (R434). -/
def Dev.ss1Tick (d : Dev) : Dev :=
  let d := d.keepSamples
  let d := d.zonesUsed.foldl (fun d z =>
    if d.zstate z = zSs1 then
      let t := d.tick - (d.zone z).s
      let d := d.wr (R.SF_ZONE_T.adr z) (word t)
      if (d.covered z).isEmpty ∧ d.fld (R.SF_ZONE_SS1B.t_max z) * 1000000 < t * d.time.tickNs then
        (d.event 0 R.SF_EVT.ss1_sto z).zoneEnter z zSto 0
      else d
    else d) d
  let judged := d.saf.mons.map d.monTick
  let d := d.updSaf (fun z => { z with mons := judged.map (·.1) })
  let bad := (judged.filter (·.2)).map (·.1)
  ((List.range 128).flatMap (fun a => bad.filter (fun m => m.axis = a))).foldl (fun d m =>
    if d.saf.mons.contains m then d.monViolated m else d) d

/-- The time of a monitoring or zone that began in tick s has passed t_max (R434). -/
def Dev.pastTmax (d : Dev) (z s : Nat) : Bool :=
  decide (d.fld (R.SF_ZONE_SS1B.t_max z) * 1000000 < (d.tick - s) * d.time.tickNs)

/-- SS1_TMAX_EXPIRY: SS1 of the axis is past t_max: a zone's SS1 takes the zone to STO, one requested
from outside the zones takes the axis to STO (R434). -/
def execSs1TmaxExpiry (a : Fin 128) (s : State) : Host.Outcome State Fault Refusal :=
  s.onDev (fun d =>
    let d := (d.zonesUsed.filter (fun z => d.zoneCovers z a)).foldl (fun d z =>
      if d.zstate z = zSs1 ∧ d.pastTmax z (d.zone z).s then
        (d.event 0 R.SF_EVT.ss1_sto a).zoneEnter z zSto 0
      else d) d
    (d.saf.mons.filter (fun m => m.axis = a.val ∧ m.zone.isNone ∧ d.pastTmax 0 m.s)).foldl
      Dev.monViolated d)

/-- The axis has stood still for t_zero consecutive ticks under a monitoring (R434). -/
def Dev.monStill (d : Dev) (m : Mon) : Bool :=
  ! m.still && d.axMon m.axis && decide (d.fld (R.SF_ZONE_SS1B.t_zero m.par) ≤ m.zeroRun)

/-- SS1_STANDSTILL: standstill takes the axis alone to Safe-off; the zone's SS1 ends in STO when every
monitored axis it covers has reached standstill (R434). DEDUCED, log entry 15. -/
def execSs1Standstill (a : Fin 128) (s : State) : Host.Outcome State Fault Refusal :=
  s.onDev (fun d =>
    let hit := d.saf.mons.filter (fun m => m.axis = a.val ∧ d.monStill m)
    if hit.isEmpty then d
    else
      let d := d.updSaf (fun z => { z with mons := z.mons.map (fun (m : Mon) =>
        if m.axis = a.val ∧ hit.contains m then { m with still := true } else m) })
      let d := d.axStoCmd a
      let d := d.dropMons (fun m => m.axis == a.val && m.zone.isNone && m.still)
      (hit.filterMap (·.zone)).foldl (fun d z =>
        let own := d.saf.mons.filter (fun m => m.zone = some z)
        if d.zstate z = zSs1 ∧ ! own.isEmpty ∧ own.all (·.still) then d.zoneEnter z zSto 0 else d) d)

/-! ## The output pair (R426, R440, R441) -/

/-- A read-back differs from the commanded state of its switch (R440). -/
def Dev.rbDiffers (d : Dev) (hs : Bool) : Bool :=
  if hs then d.flag R.SF_OUT_STAT.sfb_hs != d.flag R.SF_OUT_STAT.cmd_hs
  else d.flag R.SF_OUT_STAT.sfb_ls != d.flag R.SF_OUT_STAT.cmd_ls

/-- A read-back or test-pulse fault: a device fault (R440, R441, R451). -/
def Dev.readbackFault (d : Dev) : Dev := (d.event 0 R.SF_EVT.rb 0).deviceFault 3

/-- READBACK_FAULT: the difference has lasted longer than rb_us. In Reset, Self-test and Load nothing is
commanded and the read-backs are not judged (R440, R569, R597). -/
def execReadbackFault (hs : Bool) (s : State) : Host.Outcome State Fault Refusal :=
  s.onDev (fun d =>
    if d.rbDiffers hs ∧ d.omode ≠ mReset ∧ d.omode ≠ mSelfTest ∧ d.omode ≠ mLoad then d.readbackFault else d)

/-- SAFE_READBACK_CHANGE: a read-back ball changes level (R440). -/
def execSafeReadbackChange (hs level : Bool) (s : State) : Host.Outcome State Fault Refusal :=
  s.onDev (fun d => d.setB (if hs then R.SF_OUT_STAT.sfb_hs else R.SF_OUT_STAT.sfb_ls) level)

/-- TEST_PULSE: with the pair on, SFO_HS is pulsed off, and 1 ms later SFO_LS; the read-back of the
tested switch shows off in time, or the test fails (R441). -/
def execTestPulse (hs : Bool) (ok : Bool) (s : State) : Host.Outcome State Fault Refusal :=
  s.onDev (fun d =>
    if d.flag R.SF_OUT_CFG.tp_en ∧ d.pairOn ∧ d.saf.lsDue = ! hs then
      let d := d.updSaf (fun z => { z with lsDue := hs })
      if ok then d.bump R.SF_OUT_STAT.tests else d.readbackFault
    else d)

/-- SAFETY_DIAGNOSTIC_TEST: a failed test of a channel is a device fault (R451). -/
def execSafetyDiagnosticTest (pass : Bool) (s : State) : Host.Outcome State Fault Refusal :=
  s.onDev (fun d => if pass then d else (d.healthMark 3).deviceFault 2)

/-! ## Resets (R429, R430, R452, R453) -/

/-- A reset that is rejected, or a pulse that is ignored, is recorded with its reason, its input and the
pulse length (R453). -/
def Dev.resetRejected (d : Dev) (reason input pulseMs : Nat) : Dev :=
  (d.setB R.SF_EVT.rst_rej true).record
    { cls := 0, rej := true, reason := reason, reg := R.SF_EVT.adr, bit := R.SF_EVT.rst_rej.lo,
      idx := input - 1, detail := [word input, word pulseMs] }

/-- A reset acts on a zone: it first clears the latched host demand; the zone leaves LOCKED where the
fault has cleared, and STO where no demand is present and no connection is starting (R428, R429, R430,
R449). The second value: the reset was not rejected. -/
def Dev.zoneReset (d : Dev) (z : Nat) : Dev × Bool :=
  let d := d.updZone z (fun x => { x with hostSto := false, hostSs1 := false })
  let none_ := (d.demands z).isEmpty
  let d := d.setB (R.SF_ZONE_STAT.dem z) (! none_)
  let st := d.zstate z
  let done := fun (d : Dev) (target : Nat) =>
    (((d.zoneEnter z target 0).updZone z (fun x => { x with fresh := false })).event 0 R.SF_EVT.rst_ok z, true)
  if st = zLocked then
    if d.zoneFaulty z then (d, false) else done d (if none_ ∧ ! d.zoneStarting z then zRun else zSto)
  else if st = zSto then
    if none_ ∧ ! d.zoneStarting z then done d zRun else (d, false)
  else (d, true)

/-- A device reset acts on each zone that it resets (R453). -/
def Dev.resetZones (d : Dev) (pulseMs : Nat) : Dev :=
  (d.zonesUsed.filter (fun z => d.fld (R.SF_ZONE_CFG.rst_src z) = 0)).foldl (fun d z =>
    let r := d.zoneReset z
    if r.2 then r.1 else r.1.resetRejected 3 0 pulseMs) d

/-- SAFETY_RESET: a falling edge of the device reset input, or of a zone's own, after a pulse of a given
length (R452, R453). In a lock-out a device reset starts the retest. -/
def execSafetyReset (zone : Option (Fin 16)) (pulseMs : Nat) (s : State) : Host.Outcome State Fault Refusal :=
  s.onDev (fun d =>
    let input := match zone with
      | none => 0
      | some z => 1 + z.val
    let own := match zone with
      | none => true
      | some z => d.flag (R.SF_ZONE_CFG.en z) && d.fld (R.SF_ZONE_CFG.rst_src z) == 1
    if ! own then d
    else if pulseMs < 100 then d.resetRejected 1 input pulseMs
    else if 2000 < pulseMs then d.resetRejected 2 input pulseMs
    else
      match zone with
      | some z =>
        let r := d.zoneReset z
        if r.2 then r.1 else r.1.resetRejected 3 input pulseMs
      | none =>
        if d.flag R.SF_STAT.lockout then
          d.updSaf (fun x => { x with retest := true, retested := false, retestMs := pulseMs })
        else d.resetZones pulseMs)

/-- LOCKOUT_RETEST_DONE: the tests that a device reset started are complete. The memory test rewrites
the safety core's memory, which clears an ECC error; a test that fails keeps the lock-out (R453). -/
def execLockoutRetestDone (pass : Bool) (s : State) : Host.Outcome State Fault Refusal :=
  s.onDev (fun d =>
    if d.saf.retest then
      let d := { d with ecc := { d.ecc with flips := d.ecc.flips.filter (fun p => memId p.1 ≠ 15) } }
      let d := d.updSaf (fun z => { z with retest := false, retested := pass })
      if pass then d else d.resetRejected 3 0 d.saf.retestMs
    else d)

/-- The lock-out ends: the mode follows, and the device reset acts on its zones (R453, R590). -/
def Dev.lockoutEnds (d : Dev) : Dev :=
  let d := ((d.setB R.SF_STAT.lockout false).set R.SF_STAT.lo_cause 0).event 0 R.SF_EVT.rst_ok 0
  let d := d.updSaf (fun z => { z with retested := false })
  let d := if d.omode = mLockout then
      if d.flag R.DEV_STAT.alarm_pend then d.enterMode mAlarm 7 else d.backToReady 7
    else d
  (d.resetZones d.saf.retestMs).outEval

/-- CHANNEL_COMPARE: at T(n) + 1,000 ns the channels compare their states and form the outgoing PDUs; a
difference is a device fault, and so is a parameter set whose CRC differs between them or from the stored value
(`crcOk`). At the first comparison after a passed retest the lock-out ends when no read-back differs (R425, R426, R444, R451, R453).
DEDUCED, log entry 62. -/
def execChannelCompare (agree crcOk : Bool) (s : State) : Host.Outcome State Fault Refusal :=
  s.onDev (fun d =>
    let d :=
      if ! agree ∨ ! crcOk then
        let again := d.saf.retested
        let d := if agree then d.deviceFault 4 else (d.event 0 R.SF_EVT.xcmp 0).deviceFault 1
        if again then d.resetRejected 3 0 d.saf.retestMs else d
      else if d.saf.retested then
        if ! d.rbDiffers true ∧ ! d.rbDiffers false then d.lockoutEnds
        else (d.updSaf (fun z => { z with retested := false })).resetRejected 3 0 d.saf.retestMs
      else d
    let cs := (List.range 64).filter (fun c => d.flag (R.SF_CONN_CFG.en c))
    d.updSaf (fun z => { z with pdus := cs.map (fun c => (c, d.pduOut c)), pdusTick := some d.tick }))

end Sys2Proof.Machine
end

