-- ==== Sys2Proof/Machine/Checks.lean ====
section
/-! DEFINITION. The timing constraints that a register write and the checks of Load both ask for
(R20, R21, R101, R215). -/

namespace Sys2Proof.Machine

/-- Stations, lines and offsets of a schedule mode for one line. -/
def Dev.linesOf (d : Dev) (l : Nat) : List (Nat × LineLayout) :=
  d.net.modes.flatMap (fun m => (m.lines.filter (fun x => x.line = l)).map (fun x => (m.idx, x)))

/-- The constraints of R20 on the values in force; some: the failed constraint's index, the line
concerned or 0 (R21). 3.0 GB/s is 3 bytes a nanosecond. -/
def Dev.timingFail (d : Dev) : Option Nat :=
  let tick := d.fld R.TIM_TICK.tick_ns
  let img := d.mode.stateImage
  let dl := d.fld R.EZ_DEADLINE.deadline_ns
  if d.fld R.TIM_TX_OFS.tx_ofs_ns < 1000 then some 0
  else if 3 * tick < 3 * dl + img + 3000 then some 0
  else if (if tick ≤ 31250 then 20480 else 61440) < img then some 0
  else (List.range 8).find? (fun l =>
    let a := d.fld (R.ML_APPLY_OFS.apply_ofs_ns l)
    decide (tick ≤ a) || (d.linesOf l).any (fun x => decide (x.2.stations ≠ []) && decide (a ≤ x.2.latestCmd)))

/-- The constraint of R215 on EZ_RELEASE; some: the schedule mode concerned. -/
def Dev.releaseFail (d : Dev) : Option Nat :=
  let rel := d.fld R.EZ_RELEASE.release_ns
  if d.fld R.EZ_DEADLINE.deadline_ns ≤ rel then some d.sched
  else (d.net.modes.find? (fun m => m.lines.any (fun x =>
    decide (x.stations ≠ []) && decide (rel < x.fbLast + d.fld (R.ML_GUARD.guard_ns x.line))))).map (·.idx)

/-- The alarm pitch leaves room for the guard band on every line of every mode (R101); some: the
schedule mode concerned. 102.4 ns and 25.6 ns are the alarm frame and its gap. -/
def Dev.pitchFail (d : Dev) : Option Nat :=
  (d.net.modes.find? (fun m => m.lines.any (fun x =>
    decide (x.stations ≠ []) &&
    decide (x.pitch < 128 + x.rdMax + 2 * d.fld (R.ML_GUARD.guard_ns x.line))))).map (·.idx)

/-- DEV_CHK shows a failed check (R21, R576). -/
def Dev.chk (d : Dev) (code index : Nat) (src : Bool := false) : Dev :=
  d.wr R.DEV_CHK.adr (word (code * 2 ^ 24 + b2n src * 2 ^ 23 + index % 65536))

/-- A register write that must keep R20 and R215: it is taken over as `d2` or rejected with DEV_CHK,
DEV_EVT.chk and the block's bit (R21, R215). DEDUCED, log entry 43. -/
def Dev.timedWrite (d d2 : Dev) (rej : Fld) : Dev × WrRes :=
  match d2.timingFail, d2.releaseFail, d2.pitchFail with
  | some i, _, _ => (((d.chk 2 i).setB R.DEV_EVT.chk true).setB rej true, .rejected 2)
  | none, some m, _ =>
    ((((d.chk 7 m).setB R.DEV_EVT.chk true).setB rej true).setB R.EZ_EVT.cfg_rej true, .rejected 7)
  | none, none, some _ => (d.setB rej true, .rejected 0)
  | none, none, none => (d2, .ok 0)

end Sys2Proof.Machine
end

