-- ==== Sys2Proof/Machine/Time.lean ====
section
/-! DEFINITION. The tick, network time and the external tick (chapter 2). -/

namespace Sys2Proof.Machine

/-- The change of the time unit's state. -/
def Dev.updTime (d : Dev) (g : TimeSt → TimeSt) : Dev := { d with time := g d.time }

/-- The change of the network's state. -/
def Dev.updNet (d : Dev) (g : NetSt → NetSt) : Dev := { d with net := g d.net }

/-- A value held for each bus master (R628). -/
def masterGet (l : List (Master × Word)) (m : Master) : Option Word :=
  (l.find? (fun p => p.1 = m)).map (·.2)

/-- The value of one bus master replaced; the others' stand (R628). -/
def masterPut (l : List (Master × Word)) (m : Master) (v : Word) : List (Master × Word) :=
  (m, v) :: l.filter (fun p => p.1 ≠ m)

/-! ## Reading network time and setting the epoch -/

/-- Network time at an offset after T(n): 0 while no tick is numbered (R40). -/
def Dev.timeAt (d : Dev) (ofsNs : Nat) : Nat := if d.time.numbered then d.now + ofsNs else 0

/-- A read of TIM_NOW_LO: the low word, the upper word latched for the master (R40, R628). -/
def Dev.nowLo (d : Dev) (m : Master) (ofsNs : Nat) : Dev × Word :=
  let t := BitVec.ofNat 64 (d.timeAt ofsNs)
  let lo := t.extractLsb' 0 32
  ((d.updTime (fun z => { z with nowHi := masterPut z.nowHi m (t.extractLsb' 32 32) })).wr
    R.TIM_NOW_LO.adr lo, lo)

/-- A read of TIM_NOW_HI: the word the master has latched (R40, R628). -/
def Dev.nowHi (d : Dev) (m : Master) : Word := (masterGet d.time.nowHi m).getD 0

/-- TIM_NOW_LO_READ (R40). -/
def execTimNowLoRead (m : Master) (ofsNs : Fin 262144) (s : State) : Host.Outcome State Fault Refusal :=
  s.onDev (fun d => (d.nowLo m ofsNs).1)

/-- A write to TIM_EPOCH_LO is buffered for its master (R42, R628). -/
def Dev.epochLo (d : Dev) (m : Master) (v : Word) : Dev × WrRes :=
  (d.updTime (fun z => { z with epochLo := masterPut z.epochLo m v }), .ok 0)

/-- A write to TIM_EPOCH_HI commits the offset at the next tick instant; a master that has buffered no
low word keeps the one in force (R42). -/
def Dev.epochHi (d : Dev) (m : Master) (v : Word) : Dev × WrRes :=
  let lo := (masterGet d.time.epochLo m).getD (d.rd R.TIM_EPOCH_LO.adr)
  (d.updTime (fun z => { z with epochPend := some (v ++ lo) }), .ok 0)

/-- TIM_EPOCH_LO_WRITE (R42). DEDUCED, log entry 42. -/
def execTimEpochLoWrite (m : Master) (v : Word) (s : State) : Host.Outcome State Fault Refusal :=
  s.onDev (fun d => (wroteBy (d.epochLo m v) R.TIM_EPOCH_LO.adr).1)

/-- TIM_EPOCH_HI_WRITE (R42). DEDUCED, log entry 42. -/
def execTimEpochHiWrite (m : Master) (v : Word) (s : State) : Host.Outcome State Fault Refusal :=
  s.onDev (fun d => (wroteBy (d.epochHi m v) R.TIM_EPOCH_HI.adr).1)

/-- A committed offset takes effect, with its EPOCH record (R42, R502). DEDUCED, log entry 42. -/
def Dev.epochTake (d : Dev) : Dev :=
  match d.time.epochPend with
  | none => d
  | some v =>
    let old := (d.rd R.TIM_EPOCH_HI.adr) ++ (d.rd R.TIM_EPOCH_LO.adr)
    let d := (d.wr R.TIM_EPOCH_HI.adr (v.extractLsb' 32 32)).wr R.TIM_EPOCH_LO.adr (v.extractLsb' 0 32)
    d.updTime (fun z => { z with epochPend := none, epochRec := some (old, v) })

/-! ## TIM_CFG and TIM_TICK (R31) -/

/-- The forerunner and tick_in fields in force: as the last cold start took them, or as the register
holds them before any (R31). -/
def Dev.timeModes (d : Dev) : Nat × Nat :=
  if d.time.numbered then (b2n d.time.forerunner, b2n d.time.tickIn)
  else (d.fld R.TIM_CFG.forerunner, d.fld R.TIM_CFG.tick_in)

/-- A write to TIM_CFG (R31, R587). -/
def Dev.timCfgWr (d : Dev) (v : Word) : Dev × WrRes :=
  if d.loadOrService ∨ d.timeModes = (bits v 0 0, bits v 1 1) then
    restartDue (d.wr R.TIM_CFG.adr (v &&& 7), .ok 0) ((v ^^^ d.rd R.TIM_CFG.adr) &&& 3 != 0)
  else d.rejectAt R.TIM_STAT.cfg_rej

/-- A write to TIM_TICK: in Load and Service, in range, and only where R20 then holds (R21, R29,
R31, R587). -/
def Dev.timTickWr (d : Dev) (v : Word) : Dev × WrRes :=
  let t := bits v 17 0
  if ¬ d.loadOrService ∨ t < 15625 ∨ 250000 < t then d.rejectAt R.TIM_STAT.cfg_rej
  else restartDue (d.timedWrite (d.set R.TIM_TICK.tick_ns t) R.TIM_STAT.cfg_rej) true

/-- TIM_CFG_WRITE: of TIM_TICK or of TIM_CFG (R31). -/
def execTimCfgWrite (tick : Bool) (v : Word) (s : State) : Host.Outcome State Fault Refusal :=
  s.onDev (fun d => if tick then (d.timTickWr v).1 else (wroteBy (d.timCfgWr v) R.TIM_CFG.adr).1)

/-! ## The TICK output (R34) -/

/-- This head leads the time. -/
def Dev.leads (d : Dev) : Bool := d.flag R.TIM_STAT.leads

/-- TICK_OUT_PULSE: the pulse of the present tick, where the ball is an enabled output and the head
has led a cold start or completed integration (R34). -/
def execTickOutPulse (s : State) : Host.Outcome State Fault Refusal :=
  s.onDev (fun d =>
    if d.time.numbered ∧ ¬ d.time.tickIn ∧ d.time.tickOutEn ∧ (d.leads ∨ d.net.hstate = .synced) then
      let ofs := signed 16 (bits d.time.tickOut 31 16)
      d.emit (.tickPulse ofs (min (bits d.time.tickOut 15 0) (d.time.tickNs / 2)))
    else d)

/-! ## Starting network time -/

/-- The cold-start machine enters a state (R116). -/
def Dev.setH (d : Dev) (h : HState) : Dev :=
  let code := match h with
    | .listen => 0 | .coldC => 1 | .coldD => 2 | .gather => 3 | .follow => 4 | .synced => 5
  (d.updNet (fun z => { z with hstate := h })).set R.ML_NET_STAT.hstate code

/-- The registers that show the schedule mode in force follow it (ML_BCN to ML_FRAME,
ML_SCHED_STAT). -/
def Dev.showSched (d : Dev) (m : Nat) : Dev :=
  let d := (d.updNet (fun z => { z with sched := m })).set R.ML_SCHED_STAT.sched m
  (List.range 8).foldl (fun d l =>
    let y := (d.layout? m l).getD {}
    let n := y.stations.length
    let d := (d.set (R.ML_BCN.bcn_ofs l) y.bcnOfs).set (R.ML_ALM_OFS.ofs_ns l) y.almOfs
    let d := (d.set (R.ML_ALM_PITCH.per_tick l) (if n = 0 then 0 else y.perTick)).set
      (R.ML_ALM_PITCH.pitch_ns l) y.pitch
    let d := (d.set (R.ML_MBX_REQ.ofs_ns l) y.mbxReq).set (R.ML_MBX_RSP.ofs_ns l) y.mbxRsp
    d.wr (R.ML_FRAME.adr l) (word (y.len * 65536 +
      (if n = 0 then 0 else 1 + 2 * n) * 256 + m))) d

/-- The head begins to number ticks at a tick, with the tick period, time mode and ball direction that
its registers hold (R31, R32, R60). -/
def Dev.startTicks (d : Dev) (n : Nat) : Dev :=
  let d := d.updTime (fun z => { z with
    numbered := true, tick := n, tickNs := d.fld R.TIM_TICK.tick_ns,
    forerunner := d.flag R.TIM_CFG.forerunner, tickIn := d.flag R.TIM_CFG.tick_in,
    tickOutEn := d.flag R.TIM_CFG.tick_out_en, tickOut := d.rd R.TIM_TICK_OUT.adr,
    extWait := false, extGood := 0, extSeen := true, extNext := false, cycDiff := none, cycLast := none,
    ofsGood := 0 })
  let d := d.wr R.TIM_TICK_CNT.adr (word n)
  (List.range 8).foldl (fun d l => d.updLine l (fun z => { z with bcnFrom := some n })) d

/-- The head leads the time or follows the other unit (R46, R50). -/
def Dev.setLeads (d : Dev) (b : Bool) : Dev :=
  let u := if b then d.unitId else 1 - d.unitId
  let d := (d.setB R.TIM_STAT.leads b).set R.TIM_STAT.leader u
  if b then (d.set R.TIM_DOM.dom_ofs 0).setB R.TIM_STAT.holdover false else d

/-- The cold start begins: T(0), network time 0, the initial schedule mode (R116, R136). -/
def Dev.coldStart (d : Dev) : Dev :=
  let d := (d.startTicks 0).setLeads true
  (d.showSched (d.fld R.ML_NET_CFG.init_sched)).setH .coldC

/-- The line configurations take effect at an entry into Listen (R112, R587). -/
def Dev.takeLines (d : Dev) : Dev :=
  (List.range 8).foldl (fun d l => d.updLine l (fun z => { z with cfg := d.rd (R.ML_CFG.adr l) })) d

/-- The head enters LISTEN with a fresh listen time (R116, R118). -/
def Dev.enterListen (d : Dev) : Dev :=
  let d := d.updTime (fun z => { z with numbered := false, extWait := false })
  let d := d.updNet (fun z => { z with listenSince := d.time.clock, leaderGone := 0 })
  ((d.setB R.TIM_STAT.leads false).setB R.TIM_STAT.other_dom false).setH .listen

/-- The listen time of the head: 2 ms and 0.5 ms times the unit ID (R116). -/
def Dev.listenTime (d : Dev) : Nat := 2000000 + 500000 * d.unitId

/-- The head runs its cold-start machine: the device has left Load by Listen, not into the bootstrap state,
whose lines are disabled (R576, R577, R580). -/
def Dev.networkUp (d : Dev) : Bool :=
  ! d.modeIn [mReset, mLoad, mSelfTest] && ! d.flag R.SEC_STAT.boot

/-! ## The external tick (R35 to R39) -/

/-- The edge of a tick has been judged: one before the tick instant belongs to the next tick. -/
def Dev.edgeJudged (d : Dev) (ofsNs : Int) : Dev :=
  d.updTime (fun z => if ofsNs < 0 then { z with extNext := true } else { z with extSeen := true })

/-- An edge within the window is accepted: the leading head's rate changes, by at most 50 ppm, the
change itself left open by the spec; after 8 consecutive accepted edges it is locked (R36, R38). -/
def Dev.edgeAccepted (d : Dev) (ofsNs : Int) : Dev :=
  let good := min 8 (d.time.extGood + 1)
  let d := (d.set R.TIM_EXT.miss_cnt 0).edgeJudged ofsNs
  if d.leads then
    let step := clampI (-50000) 50000 (Config.openValue 36 [ofsNs, d.time.rate])
    let d := d.updTime (fun z => { z with extGood := good, rate := z.rate + step })
    if good = 8 then (d.setB R.TIM_STAT.ext_lock true).setB R.TIM_STAT.ext_lost false else d
  else d.updTime (fun z => { z with extGood := good })

/-- A tick has no accepted edge, or one outside the window: it counts once (R38). -/
def Dev.edgeMissed (d : Dev) (ofsNs : Int) : Dev :=
  if (if ofsNs < 0 then d.time.extNext else d.time.extSeen) then d
  else ((d.bump R.TIM_EXT.miss_cnt).updTime (fun z => { z with extGood := 0 })).edgeJudged ofsNs

/-- At a tick instant the edge of the tick before is absent where none was judged (R38). -/
def Dev.edgeTurn (d : Dev) : Dev :=
  let d := if d.time.tickIn then d.edgeMissed 0 else d
  d.updTime (fun z => { z with extSeen := z.extNext, extNext := false })

/-- EXT_TICK_EDGE: a rising edge at an offset from the tick instant that the head expects (R35 to
R39). DESIGN CHOICE, log entry 39. DEDUCED, log entry 41. -/
def execExtTickEdge (ofsNs : Int) (s : State) : Host.Outcome State Fault Refusal :=
  s.onDev (fun d =>
    if d.time.extWait then
      (d.coldStart).updTime (fun z => { z with extGood := 1 })
    else if d.time.numbered ∧ d.time.tickIn then
      let w : Int := d.fld R.TIM_EXT.win_ns
      if -w ≤ ofsNs ∧ ofsNs ≤ w then d.edgeAccepted ofsNs else d.edgeMissed ofsNs
    else d)

/-- EXT_TICK_LOST: after 8 consecutive ticks without an accepted edge the external tick is lost and
the tick runs from REFCLK at the last followed rate (R38). -/
def execExtTickLost (s : State) : Host.Outcome State Fault Refusal :=
  s.onDev (fun d =>
    if d.time.numbered ∧ d.time.tickIn ∧ 8 ≤ d.fld R.TIM_EXT.miss_cnt then
      (d.setB R.TIM_STAT.ext_lost true).setB R.TIM_STAT.ext_lock false
    else d)

/-- EXT_TICK_COLD_START_TIMEOUT: no edge within 10 ms of the end of the listen time (R39). -/
def execExtTickColdStartTimeout (s : State) : Host.Outcome State Fault Refusal :=
  s.onDev (fun d =>
    if d.time.extWait then
      (d.updTime (fun z => { z with clock := z.clock + 10000000 })).coldStart.setB R.TIM_STAT.ext_lost true
    else d)

end Sys2Proof.Machine
end

