-- ==== Sys2Proof/Machine/Twin.lean ====
section
/-! DEFINITION. Twin units: the roles, the twin link, resync and the state copy as it is received,
fitness and health, withdrawal (chapter 14). -/

namespace Sys2Proof.Machine

/-- A change of the twin state. -/
def Dev.updTwin (d : Dev) (g : TwinSt → TwinSt) : Dev := { d with twin := g d.twin }

/-- Twin states (R473). -/
def tDown : Nat := 0
/-- IDENT (R473). -/
def tIdent : Nat := 1
/-- RESYNC (R473). -/
def tResync : Nat := 2
/-- SYNCED (R473). -/
def tSynced : Nat := 3
/-- REFUSED (R473). -/
def tRefused : Nat := 4
/-- ALONE (R473). -/
def tAlone : Nat := 5

/-- The twin state. -/
def Dev.tstate (d : Dev) : Nat := d.fld R.TW_STAT.tstate

/-- The twin state is entered. -/
def Dev.setT (d : Dev) (t : Nat) : Dev := d.set R.TW_STAT.tstate t

/-- A twin event is recorded with the unit IDs and epochs concerned (R497). -/
def Dev.twEvent (d : Dev) (f : Fld) : Dev :=
  d.event 3 f 0 [word d.unitId, word (d.fld R.TW_STAT.epoch), word (1 - d.unitId), word d.twin.pEpoch]

/-- The twin link holds block lock in a twin installation: frames can pass (R461, R465). -/
def Dev.twUp (d : Dev) : Bool := d.isTwin && d.flag R.TW_STAT.link

/-- A frame is sent on the twin link (R461, R494). -/
def Dev.twSend (d : Dev) (o : Out) : Dev := if d.twUp then d.emit o else d

/-- The unit takes the standby role's place as a decided standby, or holds the active one. -/
def Dev.isStandby (d : Dev) : Bool := d.isTwin && d.twin.roleKnown && ! d.isActive

/-! ## Resync (R472, R473) -/

/-- Pages still to send are shown, at most 1,024 (TW_RSYNC.pages_left). -/
def Dev.showPages (d : Dev) : Dev := d.set R.TW_RSYNC.pages_left (min 1024 d.twin.dirty.length)

/-- A resync starts: the active unit has the whole slow-state image to send; the standby's commands are
not selectable while it runs; per-tick copies run (R464, R472, R473). -/
def Dev.startResync (d : Dev) : Dev :=
  let act := d.isActive
  let d := (d.setT tResync).twEvent R.TW_EVT.resync
  (d.updTwin (fun z => { z with
    resyncRun := true, copyOn := true, sel := act,
    dirty := if act then z.slow else z.dirty })).showPages

/-- The identity check has passed: RESYNC follows, once the role is known (R471 to R473). -/
def Dev.identPassed (d : Dev) : Dev :=
  if d.twin.roleKnown then d.startResync else d.setT tResync

/-- The identity check or its partner refuses (R471, R490). -/
def Dev.refused (d : Dev) (reason : Nat) : Dev :=
  (((d.set R.TW_RSYNC.reason reason).setT tRefused).twEvent R.TW_EVT.refused).updTwin (fun z => { z with
    resyncRun := false, copyOn := false, sel := false })

/-- An IDENT frame (R471). -/
def Dev.sendIdent (d : Dev) : Dev := d.twSend (.ident (d.rd R.TW_PAIR.adr) d.unitId (d.rd R.TW_CFG_CRC.adr))

/-- The identity check begins: IDENT frames are sent until the partner's has been received, with the
stored pairing identity (R471, R498, R558). -/
def Dev.startIdent (d : Dev) : Dev :=
  ((d.takePair.setT tIdent).updTwin (fun z => { z with identRx := false, resyncRun := false, copyOn := false })).sendIdent

/-- IDENT: pair_id, unit letters and cfg_crc are checked, in this order (R471). -/
def execIdent (pairId : Word) (unit : Bool) (cfgCrc : Word) (s : State) : Host.Outcome State Fault Refusal :=
  s.onDev (fun d =>
    if ! d.twUp then d
    else
      let d := (d.wr R.TW_P_CFG_CRC.adr cfgCrc).updTwin (fun z => { z with frameNow := true })
      if d.tstate ≠ tIdent then d
      else
        let d := d.updTwin (fun z => { z with identRx := true })
        let why := if pairId ≠ d.rd R.TW_PAIR.adr then 1
          else if b2n unit = d.unitId then 2
          else if cfgCrc ≠ d.rd R.TW_CFG_CRC.adr then 3 else 0
        if why = 0 then (d.set R.TW_RSYNC.reason 0).identPassed
        else (d.refused why).twSend (.ctrl 5 why))

/-- TW_BLOCK_LOCK_GAIN (R465, R471, R473). -/
def execTwBlockLockGain (s : State) : Host.Outcome State Fault Refusal :=
  s.onDev (fun d =>
    if d.isTwin ∧ ! d.flag R.TW_STAT.link then
      ((d.setB R.TW_STAT.link true).updTwin (fun z => { z with silent := 0 })).startIdent
    else d)

/-- TW_BLOCK_LOCK_LOSS: copies, relay and resync end with the link; DOWN, or ALONE for an active unit
that has detected the loss of its partner (R473, R486). -/
def execTwBlockLockLoss (s : State) : Host.Outcome State Fault Refusal :=
  s.onDev (fun d =>
    if d.flag R.TW_STAT.link then
      let d := (d.setB R.TW_STAT.link false).bump R.TW_LINK.lock
      let d := d.updTwin (fun z => { z with
        resyncRun := false, copyOn := false, copyNext := 0, copyBytes := [], copyBad := false,
        copyDone := false, copyImg := none })
      if d.tstate = tAlone then d
      else d.setT (if d.isActive ∧ d.twin.lost then tAlone else tDown)
    else d)

/-- RESYNC_PASS_END: no dirty page is left; the last frame and RESYNC_DONE go out (R472, R473). -/
def execResyncPassEnd (s : State) : Host.Outcome State Fault Refusal :=
  s.onDev (fun d =>
    if d.isActive ∧ d.twUp ∧ d.twin.resyncRun ∧ d.twin.dirty.isEmpty then
      let d := (d.twSend (.rsync 0 [] true true)).twSend (.ctrl 4 0)
      ((d.setT tSynced).updTwin (fun z => { z with resyncRun := false })).showPages
    else d)

/-- RESYNC_DONE (R472, R473). -/
def execResyncDone (s : State) : Host.Outcome State Fault Refusal :=
  s.onDev (fun d =>
    if d.twUp ∧ d.tstate = tResync ∧ d.isStandby then
      (d.setT tSynced).updTwin (fun z => { z with resyncRun := false, sel := true, frameNow := true })
    else d)

/-- RESYNC_REQ: the active unit starts the resync again (R472, R478). -/
def execResyncReq (s : State) : Host.Outcome State Fault Refusal :=
  s.onDev (fun d =>
    if d.isActive ∧ d.twUp ∧ (d.tstate = tSynced ∨ d.tstate = tResync) then
      (d.updTwin (fun z => { z with frameNow := true })).startResync
    else d)

/-- RSYNC: slow-state bytes of a page of the Canvas arrive at the standby (R472). -/
def execRsync (page : Nat) (data : List Byte) (last : Bool) (s : State) :
    Host.Outcome State Fault Refusal :=
  s.onDev (fun d =>
    if d.twUp ∧ d.isStandby ∧ (d.tstate = tResync ∨ d.tstate = tSynced) then
      let d := d.updTwin (fun z => { z with frameNow := true })
      let d := if page < 1536 then d.putBytes (memCode 0 (page * 4096)) (data.take 4096) else d
      if last then d.set R.TW_RSYNC.pages_left 0 else d
    else d)

/-- Slow-state pages that leave in a tick: 48 KiB of payload a tick, 24 KiB where the tick is shorter
than 31,250 ns, as R473 bounds them. An uncorrectable byte spoils its frame (R523). DEDUCED, log entry 44. -/
def Dev.sendPages (d : Dev) : Dev :=
  if d.isActive ∧ d.twUp ∧ d.twin.copyOn then
    let n := if d.time.tickNs < 31250 then 6 else 12
    let d := (d.twin.dirty.take n).foldl (fun d p =>
      d.twSend (.rsync p (d.peek (p * 4096) 4096) false (! d.anyBad (p * 4096) 4096))) d
    (d.updTwin (fun z => { z with dirty := z.dirty.drop n })).showPages
  else d

/-! ## The roles (R461 to R463, R484 to R490) -/

/-- Listen ends: its duration is shown (DEV_START.listen_ms). -/
def Dev.listenEnds (d : Dev) : Dev :=
  d.set R.DEV_START.listen_ms (satN 12 ((d.time.clock - d.mode.since) / 1000000))

/-- The mode that follows the decision on the role: Alarm where a trip is pending (R579). -/
def Dev.afterRole (d : Dev) (m : Nat) : Dev :=
  if d.omode = mListen then
    d.listenEnds.enterMode (if d.flag R.DEV_STAT.alarm_pend then mAlarm else m) 0
  else d

/-- The unit takes the active role at SYNCED; in a twin its epoch is 1 (R461, R462). -/
def Dev.roleActive (d : Dev) : Dev :=
  let d := d.setB R.TW_STAT.role true
  let d := if d.isTwin then d.set R.TW_STAT.epoch 1 else d.setT tAlone
  let d := (d.updTwin (fun z => { z with roleKnown := true, roleWait := false, sel := true })).afterRole mReady
  if d.tstate = tResync then d.startResync else d

/-- The unit becomes standby at SYNCED (R462, R464). -/
def Dev.roleStandby (d : Dev) : Dev :=
  let d := d.setB R.TW_STAT.role false
  let d := (d.updTwin (fun z => { z with roleKnown := true, roleWait := false, sel := false })).afterRole mShadow
  if d.tstate = tResync then d.startResync else d

/-- The head has reached SYNCED: the unit decides its role (R461, R462, R579). -/
def Dev.roleDecision (d : Dev) : Dev :=
  if ! d.isTwin then d.roleActive
  else if d.twin.pAct then d.roleStandby
  else if d.unitId = 0 ∨ d.leads then d.roleActive
  else d.updTwin (fun z => { z with roleWait := true })

/-- The head reaches SYNCED (R116, R579). -/
def Dev.reachSynced (d : Dev) : Dev := (d.setH .synced).roleDecision

/-- ROLE_WAIT_TIMEOUT: 500 ms have passed without a heartbeat with act = 1 (R462). -/
def execRoleWaitTimeout (s : State) : Host.Outcome State Fault Refusal :=
  s.onDev (fun d => if d.twin.roleWait then d.roleActive else d)

/-- What an unfit takeover adds: SS1 of every motion group where TW_CFG asks for it, and held recipes
(R485). -/
def Dev.degraded (d : Dev) : Dev :=
  let d := (d.bump R.TW_CNT_SW.degraded).twEvent R.TW_EVT.degraded
  let d := if d.flag R.TW_CFG.deg_ss1 then d.requestSs1 d.axesUsed else d
  d.holdRecipes

/-- A standby takes the active role: its epoch rises, it goes on in the carried mode, degraded where it is
not fit. In Lock-out or Alarm it takes the role and keeps its mode (R484, R485, R488, R592, R593). -/
def Dev.takeActive (d : Dev) (evt cnt : Fld) (fit : Bool) : Dev :=
  let e := (d.fld R.TW_STAT.epoch + 1) % 256
  let d := (d.setB R.TW_STAT.role true).set R.TW_STAT.epoch (if e = 0 then 1 else e)
  let d := (d.bump cnt).twEvent evt
  let d := d.updTwin (fun z => { z with
    sel := true, roleAt := none, handover := none })
  let d := if d.omode = mShadow then d.enterMode (d.fld R.DEV_MODE.carried) 5 else d
  if fit then d else d.degraded

/-- A handover of the active unit begins: HANDOVER with the next tick as its target, act = 0 from that
tick's frame (R490). -/
def Dev.startHandover (d : Dev) : Dev :=
  let k := d.tick + 1
  (d.twSend (.ctrl 1 k)).updTwin (fun z => { z with
    handover := some k, roleAt := some (k, false, none) })

/-- The active unit demotes itself: act = 0, the partner's epoch and the standby role from the frame of
the tick after next (R489). -/
def Dev.demote (d : Dev) (epoch : Nat) : Dev :=
  match d.twin.roleAt with
  | some _ => d
  | none =>
    ((d.bump R.TW_CNT_SW.demote).twEvent R.TW_EVT.demote).updTwin (fun z => { z with
      roleAt := some (d.tick + 2, false, some epoch) })

/-- A partner's frame or heartbeat with act = 1 reaches the unit (R462, R489). -/
def Dev.partnerActive (d : Dev) (epoch : Nat) : Dev :=
  let d := d.updTwin (fun z => { z with pAct := true, pEpoch := epoch })
  let own := d.fld R.TW_STAT.epoch
  if d.isActive ∧ d.twin.handover.isNone ∧ (epochHigher epoch own ∨ (d.unitId = 1 ∧ epoch = own)) then
    d.demote epoch
  else d

/-- A change of role that was set for a tick takes effect with its frame (R489, R490). -/
def Dev.roleTick (d : Dev) : Dev :=
  match d.twin.roleAt with
  | some (k, act, e) =>
    if d.tick < k then d
    else
      let d := (d.setB R.TW_STAT.role act).updTwin (fun z => { z with roleAt := none })
      match e with
      | some e => (d.set R.TW_STAT.epoch e).enterMode mShadow 6
      | none => d
  | none => d

/-- The former active unit sees its successor active: the handover is complete (R490). -/
def Dev.handoverDone (d : Dev) (epoch : Nat) : Dev :=
  let d := (d.set R.TW_STAT.epoch epoch).setB R.TW_STAT.role false
  let d := (d.bump R.TW_CNT_SW.handover).twEvent R.TW_EVT.handover
  (d.updTwin (fun z => { z with handover := none, roleAt := none })).enterMode mShadow 5

/-- TW_HB_RX: the partner's heartbeat (R462, R469, R489, R490). A head without enabled lines that listens
follows a partner that leads (R579). -/
def execTwHbRx (hb : Heartbeat) (s : State) : Host.Outcome State Fault Refusal :=
  s.onDev (fun d =>
    if ! d.twUp then d
    else
      let d := ((d.set R.TW_STAT.pmode hb.mode).setB R.TW_STAT.p_fit hb.fit).setB R.TW_STAT.leaving hb.leaving
      let d := d.updTwin (fun z => { z with frameNow := true })
      let d := if d.time.numbered ∧ hb.tick = word d.tick ∧ ! d.easel.closed then
          d.updTwin (fun z => { z with hbNow := true, lost := false })
        else d
      let d := (List.range 8).foldl (fun d l =>
        d.updLine l (fun z => { z with relayReq := hb.relReq / 2 ^ l % 2 == 1 })) d
      let d := if d.omode = mListen ∧ d.net.hstate = .listen ∧ d.linesOn.isEmpty ∧ hb.lead then
          ((d.startTicks hb.tick.toNat).setLeads false).setH .follow
        else d
      if ! hb.act then d
      else if d.twin.roleWait then (d.partnerActive hb.epoch).roleStandby
      else if d.twin.handover.isSome ∧ ! d.isActive ∧ d.omode ≠ mShadow then d.handoverDone hb.epoch
      else d.partnerActive hb.epoch)

/-- HANDOVER: the standby takes the active role from the frame of the target tick, provided the copy that
follows in this tick proves valid; that is decided at the target tick's instant (R490). -/
def execHandover (target : Nat) (s : State) : Host.Outcome State Fault Refusal :=
  s.onDev (fun d =>
    if d.twUp ∧ d.isStandby then
      d.updTwin (fun z => { z with frameNow := true, handover := some (extendTime d.tick (word target)) })
    else d)

/-- REFUSE: of a handover, the former active unit resumes act = 1 from the frame of the next tick but one
after the handover's; of the identity check, REFUSED (R471, R490). -/
def execRefuse (reason : Fin 8) (s : State) : Host.Outcome State Fault Refusal :=
  s.onDev (fun d =>
    if ! d.twUp then d
    else
      let d := d.updTwin (fun z => { z with frameNow := true })
      match d.twin.handover with
      | some k =>
        if d.omode ≠ mShadow then
          (d.twEvent R.TW_EVT.sw_rej).updTwin (fun z => { z with
            handover := none, roleAt := some (k + 1, true, none) })
        else d
      | none => if reason.val = 0 then d else d.refused 4)

/-- A handover is requested by the host: on the active unit of a twin, in Ready, Run or Hold, permitted,
and with a fit partner (R491). -/
def Dev.twSwitchWr (d : Dev) : Dev × WrRes :=
  if d.isTwin ∧ d.isActive ∧ d.modeIn [mReady, mRun, mHold] ∧ d.flag R.TW_CFG.sw_en ∧
      d.flag R.TW_STAT.p_fit ∧ d.twin.handover.isNone then
    (d.startHandover, .ok 0)
  else (d.twEvent R.TW_EVT.sw_rej, .rejected 0)

/-- TW_SWITCH (R491). -/
def execTwSwitch (s : State) : Host.Outcome State Fault Refusal := s.onDev (fun d => d.twSwitchWr.1)

/-- TW_CTRL.resync: the identity check and the resync are repeated (R471, R473). -/
def Dev.twResyncWr (d : Dev) : Dev := if d.twUp then d.startIdent else d

/-- TW_RESYNC (R471). -/
def execTwResync (s : State) : Host.Outcome State Fault Refusal := s.onDev Dev.twResyncWr

/-- TW_CTRL.cnt_clr (R499). -/
def Dev.twCntClr (d : Dev) : Dev :=
  (((d.set R.TW_CNT_COPY.missed 0).wr R.TW_CNT_SW.adr 0).wr R.TW_CNT_DIV.adr 0).wr R.TW_LINK.adr 0

/-- TW_CNT_CLR (R499). -/
def execTwCntClr (s : State) : Host.Outcome State Fault Refusal := s.onDev Dev.twCntClr

/-- LINES_DEAD_HANDOVER: every enabled line of the active unit has been dead for 2 ticks and the partner
is fit (R487). -/
def execLinesDeadHandover (s : State) : Host.Outcome State Fault Refusal :=
  s.onDev (fun d =>
    if d.isTwin ∧ d.isActive ∧ 2 ≤ d.twin.deadTicks ∧ d.flag R.TW_STAT.p_fit ∧ d.twin.handover.isNone then
      d.startHandover
    else d)

/-! ## Losing the partner (R483 to R486) -/

/-- The partner is lost: relay and resync stop, leadership of the time passes to the survivor, a standby
takes the active role, and the unit is ALONE (R50, R473, R483, R484). -/
def Dev.partnerLoss (d : Dev) : Dev :=
  let d := d.twEvent R.TW_EVT.partner_loss
  let d := d.updTwin (fun z => { z with lost := true, resyncRun := false, copyOn := false })
  let d := (List.range 8).foldl (fun d l =>
    (d.updLine l (fun z => { z with relayReq := false, relay := false })).setB (R.ML_STAT.relay l) false) d
  let d := if d.leads then d else d.setLeads true
  let d := if d.isStandby then
      d.takeActive R.TW_EVT.takeover R.TW_CNT_SW.takeover d.twin.fitAtHb
    else d.updTwin (fun z => { z with handover := none, roleAt := none })
  if d.isActive then d.setT tAlone else d

/-- What EZ_DEADLINE decides about the partner (R483): its loss, with neither heartbeat nor CYC frame in
the tick. -/
def Dev.partnerTick (d : Dev) : Dev :=
  if d.isTwin ∧ d.twin.roleKnown ∧ ! d.twin.lost ∧ ! d.twin.hbNow ∧ ! d.twin.cycNow then d.partnerLoss else d

/-- Fitness, as EZ_DEADLINE evaluates it (R479); a unit that has formed no health word yet has none that
passes. -/
def Dev.fitness (d : Dev) : Dev :=
  let l := d.twin.misses.filter (fun k => d.tick < k + 1024)
  let d := (d.updTwin (fun z => { z with misses := l })).set R.TW_CNT_COPY.miss_1k l.length
  let d := if d.fld R.TW_CFG.miss_lim ≤ l.length ∧ d.isTwin then d.healthMark 0 else d
  let fit := d.isStandby && d.omode == mShadow && d.tstate == tSynced && ! d.twin.resyncRun &&
    decide (l.length < d.fld R.TW_CFG.miss_lim) && bit (d.rd R.TW_HEALTH.adr) 8
  let d := d.setB R.TW_STAT.fit fit
  if d.twin.hbNow then d.updTwin (fun z => { z with fitAtHb := fit }) else d

/-- The counts of one tick of the twin link (R481, R482, R486, R487). -/
def Dev.twinCounts (d : Dev) : Dev :=
  let dead := ! d.linesOn.isEmpty && d.linesOn.all (fun l => ! d.flag (R.ML_STAT.link l) || d.flag (R.ML_STAT.isolated l))
  let up := ((List.range 8).map (fun l => if d.flag (R.ML_STAT.link l) then 2 ^ l else 0)).sum
  d.updTwin (fun z => { z with
    silent := if z.frameNow then 0 else z.silent + 1,
    deadTicks := if dead then z.deadTicks + 1 else 0,
    healthMiss := z.healthMiss + 1,
    lineLink := z.lineLink &&& up })

/-- TW_LINK_SILENCE: three ticks without a valid twin-link frame while the partner's CYC frames are
accepted; relay and copies stop (R486). -/
def execTwLinkSilence (s : State) : Host.Outcome State Fault Refusal :=
  s.onDev (fun d =>
    if d.isTwin ∧ 3 ≤ d.twin.silent ∧ ! d.twin.lost then
      let d := (d.twEvent R.TW_EVT.link_loss).updTwin (fun z => { z with copyOn := false, resyncRun := false })
      (List.range 8).foldl (fun d l =>
        (d.updLine l (fun z => { z with relayReq := false, relay := false })).setB (R.ML_STAT.relay l) false) d
    else d)

/-- TW_FRAME_DISCARD: a failed CRC or a reserved type; either counts (R466, R467). -/
def execTwFrameDiscard (_reserved : Bool) (s : State) : Host.Outcome State Fault Refusal :=
  s.onDev (fun d => d.bump R.TW_LINK.crc)

/-! ## Time over the twin link (R46, R47, R55, R470) -/

/-- This head's domain measured against the leading domain: the offset is shown and judged, and the
following head changes its rate by at most 50 ppm; the change itself is left open by the spec (R47).
DESIGN CHOICE, log entry 39. -/
def Dev.domMeasure (d : Dev) (theta : Int) : Dev :=
  if d.leads then d
  else
    let d := d.setI R.TIM_DOM.dom_ofs (satI 16 theta)
    let d := if d.fld R.TIM_DOM.dom_tol_ns < theta.natAbs then d.setB R.TIM_STAT.dom_tol true else d
    d.updTime (fun z => { z with
      domSeen := true, rate := z.rate + clampI (-50000) 50000 (Config.openValue 47 [theta, z.rate]) })

/-- The sending of a TIME frame: its egress time is a measured value, left free; it reports the ingress
of the partner's previous one (R470). DESIGN CHOICE, log entry 40. -/
def Dev.sendTime (d : Dev) : Dev :=
  if d.twUp then
    let ofs := (Config.openValue 470 [d.tick]).natAbs % (d.time.tickNs * 1000)
    let t := d.now * 1000 + ofs
    let rx := d.twin.timeIn.getD 0
    (d.twSend (.time (word (t / 1000)) (t % 1000) (word (rx / 1000)) (rx % 1000))).updTwin (fun z =>
      { z with timePrev := z.timeOut.map (·.2), timeOut := some (d.tick, t) })
  else d

/-- TIME: the round trip with this unit's own previous TIME frame, the delay from unit A to unit B, and
the offset of the two domains (R46, R53 to R55, R470). -/
def execTime (txTime : Word) (txPs : Nat) (rxTime : Word) (rxPs : Nat) (ingressPs : Nat) (s : State) :
    Host.Outcome State Fault Refusal :=
  s.onDev (fun d =>
    if ! d.twUp then d
    else
      let i2 := ingressPs - d.fld (R.TIM_PORT.ing_ps 8)
      let own := match d.twin.timeOut with
        | some (k, t) => if k = d.tick then d.twin.timePrev else some t
        | none => none
      let d := d.updTwin (fun z => { z with frameNow := true, timeIn := some i2 })
      match own with
      | none => d
      | some e1 =>
        let back : Int := (txTime - rxTime).toInt * 1000 + txPs - rxPs
        let rtt : Int := (i2 : Int) - e1 - back
        let asym := d.sfld R.TW_TIME.asym_ps
        let ab := (rtt + asym) / 2
        let ba := (rtt - asym) / 2
        let d := d.set R.TW_TIME.dly
          (satN 16 (ab.toNat * 32 / 1000))
        let toUs := if d.unitId = 1 then ab else ba
        let theta : Int := (BitVec.ofNat 32 (i2 / 1000) - txTime).toInt -
          (toUs + txPs - (i2 % 1000 : Nat) + 500) / 1000
        d.domMeasure theta)

/-! ## Health (R481, R482) -/

/-- HEALTH_REPORT: at ticks that are multiples of 1,024 the health word is formed, shown and sent, and the
period begins anew (R481). DEDUCED, log entry 44. -/
def execHealthReport (s : State) : Host.Outcome State Fault Refusal :=
  s.onDev (fun d =>
    if d.time.numbered ∧ d.tick % 1024 = 0 then
      let b := d.twin.healthBits % 32
      let cnt := (bits (d.rd R.TW_HEALTH.adr) 7 0 + 1) % 256
      let w := word (d.twin.lineLink % 256 * 2 ^ 24 + b * 2 ^ 11 + b2n (d.flag R.TW_STAT.fit) * 2 ^ 10 +
        b2n (b = 0) * 2 ^ 8 + cnt)
      let d := (d.wr R.TW_HEALTH.adr w).twSend (.health w)
      d.updTwin (fun z => { z with healthBits := 0, lineLink := 255 })
    else d)

/-- HEALTH: the partner's word; one that does not pass sets the event (R481, R482). -/
def execHealth (w : Word) (s : State) : Host.Outcome State Fault Refusal :=
  s.onDev (fun d =>
    if d.twUp then
      let d := (d.wr R.TW_PARTNER.adr w).updTwin (fun z => { z with frameNow := true, healthMiss := 0 })
      if bit w 8 then d else d.twEvent R.TW_EVT.health
    else d)

/-- HEALTH_MISSING: two consecutive HEALTH frames of a partner whose heartbeat is present have failed to
arrive (R482). -/
def execHealthMissing (s : State) : Host.Outcome State Fault Refusal :=
  s.onDev (fun d =>
    if d.isTwin ∧ d.flag R.TW_STAT.hb ∧ 2048 ≤ d.twin.healthMiss then
      (d.twEvent R.TW_EVT.health).updTwin (fun z => { z with healthMiss := 0 })
    else d)

/-! ## The state copy as it is received (R27, R475, R476) -/

/-- COPY: frames in address order; the last one carries the CRC over the whole copy (R476). -/
def execCopy (ofs : Nat) (data : List Byte) (last : Bool) (crc : Word) (img : Option CopyImage) (s : State) :
    Host.Outcome State Fault Refusal :=
  s.onDev (fun d =>
    if d.twUp ∧ d.isStandby ∧ d.twin.copyOn ∧ data.length ≤ 1024 then
      let t := d.twin
      let bad := (t.copyBad && ofs != 0) || ofs != (if ofs = 0 then 0 else t.copyNext)
      let bytes := (if ofs = 0 then [] else t.copyBytes) ++ data
      let ok := last && ! bad && crc == crc32 bytes &&
        (match img with | some x => x.tick == d.tick | none => false)
      d.updTwin (fun z => { z with
        frameNow := true, copyNext := ofs + data.length, copyBytes := bytes, copyBad := bad,
        copyDone := ok, copyImg := if ok then img else none })
    else d)

/-- The standby's state is replaced by a copy, atomically; an epoch offset and an apply offset that it carries
take effect at the same tick instant and with the same frame as on the active unit (R27, R42, R475,
ML_APPLY_OFS). DEDUCED, log entry 45. -/
def Dev.applyCopy (d : Dev) (c : CopyImage) : Dev :=
  let d := c.canvas.foldl (fun d p => d.putByte p.1 p.2) d
  let ofs := fun (a : Nat) (old : Word) => ((c.regs.find? (fun p => p.1 = a)).map (·.2)).getD old
  let d := (List.range 8).foldl (fun d l =>
    let v := ofs (R.ML_APPLY_OFS.adr l) (d.rd (R.ML_APPLY_OFS.adr l))
    if v = d.rd (R.ML_APPLY_OFS.adr l) then d
    else d.updLine l (fun z => { z with applyPend := z.applyPend ++ [(c.tick + 2, v.toNat)] })) d
  let old := d.rd R.TIM_EPOCH_HI.adr ++ d.rd R.TIM_EPOCH_LO.adr
  let new := ofs R.TIM_EPOCH_HI.adr (d.rd R.TIM_EPOCH_HI.adr) ++ ofs R.TIM_EPOCH_LO.adr (d.rd R.TIM_EPOCH_LO.adr)
  let d := if new = old then d else d.updTime (fun z => { z with epochPend := some new })
  let d := c.regs.foldl (fun d p =>
    if p.1 = R.TIM_EPOCH_HI.adr ∨ p.1 = R.TIM_EPOCH_LO.adr then d else d.wr p.1 p.2) d
  let d := (d.set R.TW_STAT.epoch c.epoch)
  let svc := d.rmode = mService
  let d := if d.omode = mShadow then d.set R.DEV_MODE.carried c.mode else d
  let d := if svc ∧ d.rmode ≠ mService then d.closeLimited else d
  let d := (d.setB R.ML_SCHED_STAT.pend c.pend).updNet (fun z => { z with
    target := c.target, reqTick := c.reqTick, decided := c.decided, commit := c.commit,
    abortReq := c.abortReq, cancelLeft := c.cancelLeft })
  { d with
    axes := c.axes, decs := c.decs, prfs := c.prfs, cmps := c.cmps, loops := c.loops, grps := c.grps,
    rcp := { d.rcp with rcps := c.rcps, nextId := c.nextId, usedIds := c.usedIds, edges := c.edges } }

/-- At T(n + 1) the standby takes a complete and valid copy of tick n, or discards what arrived and
counts the miss; a handover that waits for the copy is taken or refused (R27, R490, R523). -/
def Dev.copyTick (d : Dev) (n : Nat) : Dev :=
  let t := d.twin
  let clear := fun (d : Dev) => d.updTwin (fun z => { z with
    copyNext := 0, copyBytes := [], copyBad := false, copyDone := false, copyImg := none })
  if ! d.isStandby ∨ ! t.copyOn then
    let d := clear d
    match d.twin.handover with
    | some k =>
      if d.isStandby ∧ d.omode = mShadow ∧ k ≤ d.tick then
        (d.twSend (.ctrl 5 0)).updTwin (fun z => { z with handover := none })
      else d
    | none => d
  else
    let ho := match t.handover with
      | some k => decide (k ≤ d.tick) && d.omode == mShadow
      | none => false
    match (if t.copyDone then t.copyImg else none) with
    | some c =>
      let d := (clear d).applyCopy c
      if ho then d.takeActive R.TW_EVT.handover R.TW_CNT_SW.handover (d.flag R.TW_STAT.fit) else d
    | none =>
      let d := ((clear d).bump R.TW_CNT_COPY.missed).twEvent R.TW_EVT.copy_miss
      let d := d.updTwin (fun z => { z with misses := z.misses ++ [n] })
      if ho then (d.twSend (.ctrl 5 0)).updTwin (fun z => { z with handover := none }) else d

/-! ## Withdrawal (R492 to R494) -/

/-- PRESENT_N_DEASSERT: the active unit hands over to a partner in Shadow, or keeps the role and records
the withdrawal; the standby announces its leaving (R492, R493). -/
def execPresentNDeassert (s : State) : Host.Outcome State Fault Refusal :=
  s.onDev (fun d =>
    if d.balls.presentN then d
    else
      let d := { d with balls := { d.balls with presentN := true } }
      let d := (d.twEvent R.TW_EVT.present).updTwin (fun z => { z with present := some d.tick })
      if d.isActive then
        if d.isTwin ∧ ! d.twin.lost ∧ d.fld R.TW_STAT.pmode = mShadow then d.startHandover else d
      else if d.isStandby then (d.twSend (.ctrl 2 0)).updTwin (fun z => { z with leaving := true })
      else d)

/-- LEAVING: the active unit records the coming loss as a withdrawal (R493). -/
def execLeaving (s : State) : Host.Outcome State Fault Refusal :=
  s.onDev (fun d =>
    if d.twUp ∧ d.isActive then
      (d.twEvent R.TW_EVT.p_leave).updTwin (fun z => { z with frameNow := true })
    else d)

end Sys2Proof.Machine
end

