-- ==== Sys2Proof/Machine/Guard.lean ====
section
/-! DEFINITION. The line ports and their guardian: where the nodes of a line stand, the instants a
port expects, EDGE and babbles, window disabling, line isolation and re-integration orders
(R97 to R109, R119, R120, R126, R127). -/

namespace Sys2Proof.Machine

/-- The port receives: its line is enabled, it has link and its receiver is not cut (R68, R108). -/
def Dev.rxOn (d : Dev) (l : Nat) : Bool :=
  d.networkUp && d.lineEn l && d.flag (R.ML_STAT.link l) && ! d.flag (R.ML_STAT.isolated l)

/-- The head may transmit on its lines: it has left Load and no RESTART keeps it silent (R588). -/
def Dev.txOn (d : Dev) : Bool := d.networkUp && d.mode.idleLeft == 0

/-- The head holds a time (R91). -/
def Dev.hasTime (d : Dev) : Bool := d.time.numbered && d.net.hstate != .listen

/-! ## Where the nodes of a line stand (R53, R83) -/

/-- A station context is in use on a line (R136). -/
def Dev.stOnLine (d : Dev) (l s : Nat) : Bool :=
  s != 0 && d.fld (R.ST_CFG.pos s) != 0 && d.fld (R.ST_CFG.line s) == l

/-- The station contexts in use, by address. -/
def Dev.stUsed (d : Dev) : List Nat := (List.range 256).filter (fun s => s != 0 && d.fld (R.ST_CFG.pos s) != 0)

/-- The stations of a line with their positions from unit A's end, ascending. -/
def Dev.nodes (d : Dev) (l : Nat) : List (Nat × Nat) :=
  (((List.range 256).filter (d.stOnLine l)).map (fun s => (d.fld (R.ST_CFG.pos s), s))).foldl
    (fun acc x => acc.takeWhile (fun y => y.1 ≤ x.1) ++ x :: acc.dropWhile (fun y => y.1 ≤ x.1)) []

/-- Position of the last station: the number of the last link (R53). -/
def Dev.lastPos (d : Dev) (l : Nat) : Nat := ((d.nodes l).map (·.1)).foldl max 0

/-- The declared residence by which the guardian reckons, ps (R79, R103). -/
def Dev.resPs (d : Dev) (s : Nat) : Int :=
  match d.stLayout? d.sched s with
  | some (_, z) => 1000 * z.rNs
  | none => 1000 * d.fld (R.ST_IDENT.r_ns s)

/-- Delay between this head and position p, the residences of the stations between included: outward,
or back (R83). -/
def Dev.pathPs (d : Dev) (l p : Nat) (out : Bool) : Int :=
  let ns := d.nodes l
  if d.unitId = 0 then
    ((List.range p).map (fun k => d.linkPs l k out)).sum +
      ((ns.filter (fun x => x.1 < p)).map (fun x => d.resPs x.2)).sum
  else
    ((List.range (d.lastPos l + 1 - p)).map (fun i => d.linkPs l (p + i) (! out))).sum +
      ((ns.filter (fun x => p < x.1)).map (fun x => d.resPs x.2)).sum

/-- The link of a line at this head (R53). -/
def Dev.ownLink (d : Dev) (l : Nat) : Nat := if d.unitId = 0 then 0 else d.lastPos l

/-- Delay of that link toward this head, ps. -/
def Dev.ownLinkPs (d : Dev) (l : Nat) : Int := d.linkPs l (d.ownLink l) (d.unitId != 0)

/-- The neighbour of this head on a line: its station, 0 for none. -/
def Dev.nbrStation (d : Dev) (l : Nat) : Nat :=
  let p := if d.unitId = 0 then 1 else d.lastPos l
  (((d.nodes l).find? (fun x => x.1 = p)).map (·.2)).getD 0

/-! ## What the guardian expects (R103, R107, R119, R120) -/

/-- One expected instant or interval after T(n), ps, with the frame type it expects and the station it
belongs to, 0 for none. -/
structure Win where
  /-- First expected instant. -/
  lo : Int
  /-- Last expected instant. -/
  hi : Int
  /-- Frame type (R70). -/
  ty : Nat
  /-- Owner. -/
  own : Nat
  deriving DecidableEq, Repr

/-- A station's alarm and mailbox windows are disabled (R107). -/
def Dev.winDis (d : Dev) (s : Nat) : Bool := d.flag (R.ST_STATE.win_dis s)

/-- A station's alarm slot of a tick: its offset after T(n) in ns, where the slot is due (R98). -/
def Dev.almSlot? (d : Dev) (l p n : Nat) : Option Nat :=
  let y := (d.layout? d.sched l).getD {}
  let per := max 1 y.perTick
  let g := ((d.nodes l).length + per - 1) / per
  if g ≠ 0 ∧ n % g = (p - 1) / per then some (y.almOfs + (p - 1) % per * y.pitch) else none

/-- The windows of one line port in the present tick (R103). DEDUCED, log entry 32. -/
def Dev.wins (d : Dev) (l : Nat) : List Win :=
  let y := (d.layout? d.sched l).getD {}
  let ns := d.nodes l
  let last := d.lastPos l
  let tx : Int := 1000 * d.fld R.TIM_TX_OFS.tx_ofs_ns
  let point := fun (e : Int) ty own => ({ lo := e, hi := e, ty := ty, own := own } : Win)
  let partner :=
    if d.lineOpen l ∨ ¬ (d.line l).partnerExp then []
    else
      let e := tx + ((List.range (last + 1)).map (fun k => d.linkPs l k (d.unitId != 0))).sum +
        (ns.map (fun x => d.resPs x.2)).sum
      [point e 1 0]
  let folds := ns.map (fun x =>
    point (tx + d.pathPs l x.1 true + d.resPs x.2 + d.pathPs l x.1 false) 1 x.2)
  let bcn := [point (1000 * (y.bcnOfs : Int) + d.ownLinkPs l) 7 (d.nbrStation l)]
  let alm := ns.filterMap (fun x =>
    if d.winDis x.2 then none
    else (d.almSlot? l x.1 d.tick).map (fun o => point (1000 * (o : Int) + d.pathPs l x.1 false) 3 x.2))
  let mbx := match (d.line l).mbxOut with
    | some q => (ns.filter (fun x => x.2 = q.addr)).map (fun x =>
        point (1000 * (y.mbxRsp : Int) + d.pathPs l x.1 false) 4 x.2)
    | none => []
  let rtt := (d.link? l (d.ownLink l)).bind (·.rtt)
  let drsp : List Win := match (d.line l).dreqAt with
    | some e => match rtt with
      | some r => [{ lo := e + 2000000 + r, hi := e + 3000000 + r, ty := 6, own := d.nbrStation l }]
      | none => [{ lo := e + 2000000, hi := e + 13000000, ty := 6, own := d.nbrStation l }]
    | none => []
  let dreqDue := d.unitId = 1 ∧ ¬ d.lineOpen l ∧ (d.tick % 1024 = 0 ∨ d.net.hstate = .coldD)
  let req : Int := 1000 * (y.mbxReq : Int)
  let dreq : List Win := if dreqDue then match rtt with
      | some _ => [point (req + d.ownLinkPs l) 5 (d.nbrStation l)]
      | none => [{ lo := req, hi := req + 10000000, ty := 5, own := d.nbrStation l }]
    else []
  partner ++ folds ++ bcn ++ alm ++ mbx ++ drsp ++ dreq

/-- How far an arrival lies from a window (R104). -/
def Win.dist (w : Win) (t : Int) : Int := if t < w.lo then w.lo - t else if w.hi < t then t - w.hi else 0

/-- The nearest window; among equally near ones, one of the type that arrived. -/
def nearestWin (ws : List Win) (t : Int) (ty : Nat) : Option Win :=
  ws.foldl (fun best w =>
    match best with
    | none => some w
    | some b =>
      if w.dist t < b.dist t ∨ (w.dist t = b.dist t ∧ w.ty = ty ∧ b.ty ≠ ty) then some w else some b) none

/-- The largest L of a type in the schedule mode in force, bytes (R66, R102, R115). -/
def Dev.frameMax (d : Dev) (l ty : Nat) : Nat :=
  match ty with
  | 1 => ((d.layout? d.sched l).getD {}).len
  | 4 => 152
  | 5 => 20
  | 6 => 32
  | 7 => 24
  | _ => 28

/-- What the guardian finds. -/
inductive Verdict
  | ok | edge | babble
  deriving DecidableEq, Repr

/-- The guardian's judgement of a transmission by its type, the arrival of its /S/ and of its last byte
after T(n), with the owner of the nearest window (R104, R105). DEDUCED, log entry 32. -/
def Dev.judgeRx (d : Dev) (l ty atNs lastNs : Nat) : Verdict × Nat :=
  let t : Int := 1000 * (atNs : Int)
  let guard : Int := 1000 * ((d.line l).guardNs : Int)
  match nearestWin (d.wins l) t ty with
  | none => (.babble, 0)
  | some w =>
    let late := decide (w.hi + ((d.frameMax l ty + 4) * 3200 : Nat) + guard < 1000 * (lastNs : Int))
    if guard < w.dist t ∨ w.ty ≠ ty ∨ late then (.babble, w.own)
    else if 40000 < w.dist t then (.edge, w.own)
    else (.ok, w.own)

/-! ## Re-integration orders (R127) -/

/-- ST_STATE.sstate follows what the head knows (R146, R631). -/
def Dev.showStation (d : Dev) (s : Nat) : Dev :=
  let age := d.slotAge s
  d.set (R.ST_STATE.sstate s) (
    if d.fld (R.ST_CFG.pos s) = 0 then 0
    else if ! (d.head s).everValid then 1
    else if d.fld (R.ST_CFG.lost_lim s) < age then 4
    else if (d.head s).reint then 5
    else if age = 0 then 2 else 3)

/-- A class-3 event of a station with its latest sync_err (R126). -/
def Dev.stEvent (d : Dev) (f : Fld) (s : Nat) : Dev :=
  d.event 3 f s [word (d.fld (R.ST_SYNC.sync_err s))]

/-- The head orders a station to re-integrate: it waits its turn on its line in ascending address
(R127). -/
def Dev.reintOrder (d : Dev) (s : Nat) : Dev :=
  let l := d.fld (R.ST_CFG.line s)
  let z := d.line l
  if z.reintQ.contains s ∨ (z.reintCur.any (fun p => p.1 == s)) then d
  else
    let d := (d.stEvent (R.ST_EVT.reint s) s).bump (R.ST_CNT_SYNC.reint s)
    let d := d.updLine l (fun z => { z with reintQ := insNat s z.reintQ })
    (d.updHead s (fun h => { h with reint := true, winGood := 0, syncOver := 0 })).showStation s

/-! ## EDGE and babbles (R104 to R108, R126) -/

/-- The station that a transmission is laid to: the one whose address passed the frame CRC, else the
owner of the nearest window (R106). -/
def attributed (crcOk : Bool) (addr own : Nat) : Nat := if crcOk ∧ addr ≠ 0 then addr else own

/-- A transmission accepted with EDGE is counted and flagged (R104, R126). -/
def Dev.countEdge (d : Dev) (l s : Nat) : Dev :=
  let d := (d.bump (R.ML_CNT.cnt l 9)).setB (R.ML_EVT.edge l) true
  if s = 0 then d else (d.bump (R.ST_CNT_EDGE.edge s)).stEvent (R.ST_EVT.edge s) s

/-- Three babbles disable a station's windows (R107). -/
def Dev.windowsDisable (d : Dev) (l s : Nat) : Dev :=
  ((d.setB (R.ST_STATE.win_dis s) true).setB (R.ML_EVT.slot_dis l) true).stEvent (R.ST_EVT.slot_dis s) s
    |>.reintOrder s

/-- A babble is counted on its port and laid to a station; line_lim of them within line_win ticks cut the
receiver (R104, R106 to R108). -/
def Dev.countBabble (d : Dev) (l s : Nat) : Dev :=
  let d := (d.bump (R.ML_CNT.cnt l 8)).setB (R.ML_EVT.babble l) true
  let win := d.fld (R.ML_BAB_CFG.line_win l)
  let d := d.updLine l (fun z => { z with
    babbles := d.tick :: z.babbles.filter (fun k => d.tick < k + win) })
  let d := if d.fld (R.ML_BAB_CFG.line_lim l) ≤ (d.line l).babbles.length ∧ ! d.flag (R.ML_STAT.isolated l) then
      (d.setB (R.ML_STAT.isolated l) true).event 3 (R.ML_EVT.isolated l) l
    else d
  if s = 0 then d
  else
    let d := (d.bump (R.ST_CNT_BAB.total s)).set (R.ST_CNT_BAB.consec s) (min 3 (d.fld (R.ST_CNT_BAB.consec s) + 1))
    let d := d.stEvent (R.ST_EVT.babble s) s
    if d.fld (R.ST_CNT_BAB.consec s) = 3 ∧ ! d.winDis s then d.windowsDisable l s else d

/-- The guardian decides on a transmission: the device with what it counts, and whether it accepts. In
LISTEN and COLD_C no babble is counted (R104 to R107, R119). -/
def Dev.guardRx (d : Dev) (l ty addr : Nat) (crcOk : Bool) (atNs lastNs : Nat) : Dev × Bool :=
  let v := d.judgeRx l ty atNs lastNs
  let s := attributed crcOk addr v.2
  let cold := d.net.hstate = .listen ∨ d.net.hstate = .coldC
  let barred := (ty = 3 ∨ ty = 4) ∧ s ≠ 0 ∧ d.winDis s
  if v.1 = .babble ∨ barred then (if cold then d else d.countBabble l s, false)
  else if v.1 = .edge then (d.countEdge l s, true)
  else (d, true)

/-- A received frame CRC is counted by its outcome (R74). -/
def Dev.countCrc (d : Dev) (l : Nat) (c : CrcOutcome) : Dev :=
  match c with
  | .correct => d
  | .wrong => (d.bump (R.ML_CNT.cnt l 2)).setB (R.ML_EVT.crc l) true
  | .complement => (d.bump (R.ML_CNT.cnt l 3)).setB (R.ML_EVT.crc l) true

/-- FRAME_CUT: a frame whose last byte is late is cut and counted; no frame CRC can pass, so it is laid to
the owner of the nearest window, or to the named station where none is expected (R105, R106). DEDUCED, log entry 32. -/
def execFrameCut (line : Fin 8) (atNs : Nat) (addr : Fin 256) (s : State) :
    Host.Outcome State Fault Refusal :=
  s.onDev (fun d =>
    if d.rxOn line ∧ d.net.hstate ≠ .listen ∧ d.net.hstate ≠ .coldC then
      match nearestWin (d.wins line) (1000 * (atNs : Int)) 0 with
      | some w => d.countBabble line w.own
      | none => d.countBabble line addr
    else d)

/-- RESERVED_FRAME_RX: counted as an invalid code-group event (R70). -/
def execReservedFrameRx (line : Fin 8) (_type : BitVec 8) (s : State) : Host.Outcome State Fault Refusal :=
  s.onDev (fun d => if d.rxOn line then d.bump (R.ML_CNT.cnt line 11) else d)

/-! ## Link, re-opening, counters (R68, R92, R109, R113) -/

/-- A port of this head loses link: the neighbour is dead at once (R68, R92). -/
def Dev.lineDown (d : Dev) (l : Nat) : Dev :=
  if d.flag (R.ML_STAT.link l) then
    let d := ((d.setB (R.ML_STAT.link l) false).setB (R.ML_STAT.nbr l) false).setB (R.ML_EVT.sync_loss l) true
    (d.bump (R.ML_CNT.cnt l 12)).updLine l (fun z => { z with link := false, nbrLive := false, nbrGood := 0 })
  else d

/-- A port of this head gains link; a head without a time judges its neighbour by link alone (R68, R91,
R92). -/
def Dev.lineUp (d : Dev) (l : Nat) : Dev :=
  if d.flag (R.ML_STAT.link l) then d
  else
    let live := ! d.hasTime
    ((d.setB (R.ML_STAT.link l) true).setB (R.ML_STAT.nbr l) live).updLine l (fun z => { z with
      link := true, nbrLive := live, nbrGood := 0 })

/-- A port of a station changed. -/
def StationSt.updPort (s : StationSt) (side : Nat) (g : PortSt → PortSt) : StationSt :=
  { s with ports := s.ports.modify side g }

/-- LINE_LINK_LOSS (R68, R92). -/
def execLineLinkLoss (p : Port) (s : State) : Host.Outcome State Fault Refusal :=
  match p with
  | .head l => s.onDev (fun d => d.lineDown l)
  | .station a side => s.onStation a (fun x =>
      x.updPort side (fun q => { q with link := false, live := false, good := 0 }))

/-- LINE_LINK_GAIN (R68, R91, R92). -/
def execLineLinkGain (p : Port) (s : State) : Host.Outcome State Fault Refusal :=
  match p with
  | .head l => s.onDev (fun d => d.lineUp l)
  | .station a side => s.onStation a (fun x =>
      x.updPort side (fun q => if q.link then q else { q with link := true, live := x.state == .forward, good := 0 }))

/-- ML_CTRL.rx_reopen: an isolated receiver opens and its line integrates anew (R109). -/
def Dev.rxReopen (d : Dev) (l : Nat) : Dev × WrRes :=
  if ! d.modeIn [mReady, mHold, mService] then d.rejectAt (R.ML_EVT.cfg_rej l)
  else if d.flag (R.ML_STAT.isolated l) then
    ((d.setB (R.ML_STAT.isolated l) false).updLine l (fun z => { z with
      babbles := [], partnerExp := false, nbrGood := 0, bcnSeen := false }), .ok 0)
  else (d, .ok 0)

/-- ML_RX_REOPEN (R109). -/
def execMlRxReopen (line : Fin 8) (s : State) : Host.Outcome State Fault Refusal :=
  s.onDev (fun d => (d.rxReopen line).1)

/-- ML_CTRL.cnt_clr (R113). -/
def Dev.mlCntClr (d : Dev) (l : Nat) : Dev :=
  (List.range 16).foldl (fun d i => d.wr (R.ML_CNT.adr l i) 0) d

/-- ML_CNT_CLR (R113). -/
def execMlCntClr (line : Fin 8) (s : State) : Host.Outcome State Fault Refusal :=
  s.onDev (fun d => d.mlCntClr line)

end Sys2Proof.Machine
end

