-- ==== Sys2Proof/Machine/Lines.lean ====
section
/-! DEFINITION. What a head receives on its lines: feedback segments, cyclic frames of both heads,
alarms, beacons, delay exchanges and relayed segments (chapter 3; R33, R56, R57, R89 to R96, R102,
R110, R116, R120, R131, R134, R478). -/

namespace Sys2Proof.Machine

/-! ## Feedback segments (R96, R110, R111, R125, R134, R194) -/

/-- Every enabled line's stations of the mode in force. -/
def Dev.listed (d : Dev) : List StLayout :=
  match d.schedMode? d.sched with
  | some m => (m.lines.filter (fun y => d.lineEn y.line)).flatMap (·.stations)
  | none => []

/-- The segment is what the mode in force lists for its station, filled and with a correct CRC, and it
could be written (R110). DEDUCED, log entry 37. -/
def Seg.validFor (g : Seg) (z : StLayout) (eccBad : Bool) : Bool :=
  g.crc == .correct && bit g.hdr 9 && bit g.hdr 8 && bits g.hdr 31 24 == z.ptype &&
  bits g.hdr 23 16 == z.fbWords && g.words.length == z.fbWords && ! eccBad

/-- A segment failed R110: counted; one of the present tick marks the slot and, where the configuration asks
for it and no relay is awaited, signals (R110, R194). DEDUCED, log entry 37. -/
def Dev.segFailed (d : Dev) (l s : Nat) (g : Seg) (ofTick : Bool) (atNs : Nat) : Dev :=
  let d := d.bump (R.ML_CNT.cnt l 4)
  let d := if g.crc = .correct then d else d.setB (R.ML_EVT.crc l) true
  match d.slotCode? s with
  | none => d
  | some c =>
    let d := d.bump (R.ST_CNT_SEG.bad s)
    if ! ofTick ∨ (d.head s).got ∨ d.easel.closed then d
    else
      let d := (d.pokeW c (d.peekW c ||| 0x200#32)).updHead s (fun h => { h with bad := true })
      if d.flag R.EZ_CFG.bad_sig ∧ ! (d.line l).relay then d.signalStation s atNs else d

/-- The RA block of a station's feedback: the acknowledged actions (R184). -/
def Dev.takeAcks (d : Dev) (s : Nat) : Dev :=
  match d.stBlk s 12 with
  | some (o, n, _) =>
    (((d.fbWords s).drop o).take n).foldl (fun d w =>
      let one := fun (d : Dev) (v : Nat) => if v % 32768 = 0 then d else d.raAck s (v % 32768) (decide (32768 ≤ v))
      one (one d (bits w 15 0)) (bits w 31 16)) d
  | none => d

/-- The station context follows a valid segment: synchronism, residences, the acknowledgement of a
schedule change, the unit it applied and its missing commands (R89, R125, R140, R161, R190). -/
def Dev.takeCommon (d : Dev) (s : Nat) (hdr : Word) (relay : Bool) : Dev :=
  let w := nthW (d.fbWords s) 0
  let err := signed 12 (bits w 11 0)
  let d := (d.setI (R.ST_SYNC.sync_err s) err).raise (R.ST_SYNC.max_abs s) err.natAbs
  let d := if d.fld (R.ST_SYNC_CFG.sync_tol_ns s) < err.natAbs then d.stEvent (R.ST_EVT.sync_tol s) s else d
  let diag := bits w 23 12
  let sel := bits w 25 24
  let d := if sel < 2 ∧ diag ≠ 0 then
      let d := (d.set (R.ST_RES.res_last s) diag).raise (R.ST_RES.res_max s) diag
      let r : Int := 4 * d.fld (R.ST_IDENT.r_ns s)
      if (d.head s).ident ≠ [] ∧ 16 < ((diag : Int) - r).natAbs then
        (d.setB (R.ST_EVT.res_dev s) true).updHead s (fun h => { h with failCode := 6 })
      else d
    else d
  let tgt := bits w 31 28
  let d := (d.set (R.ST_STATE.ack_tgt s) tgt).setB (R.ST_STATE.ack s)
    (bit w 27 && d.flag R.ML_SCHED_STAT.pend && tgt == d.fld R.ML_SCHED_STAT.pend_tgt)
  let src := bits hdr 11 11
  let d := (d.set (R.ST_STATE.src s) src).setB (R.ST_STATE.relay s) relay
  let active := if d.isActive then d.unitId else 1 - d.unitId
  if bit hdr 12 then (d.bump (R.ST_CNT_CMD.miss s)).updHead s (fun h => { h with missTick := some d.tick })
  else if src ≠ active then d.bump (R.ST_CNT_CMD.stby s) else d

/-- Every station of the mode has delivered valid feedback in this tick of GATHER: SYNCED follows at the
next tick (R116). DEDUCED, log entry 33. -/
def Dev.gatherDone (d : Dev) : Dev :=
  if d.net.hstate = .gather ∧ d.listed.all (fun z => (d.head z.addr).got) then
    d.updNet (fun z => { z with syncNext := true })
  else d

/-- The station still waits to be named in reint, or is being named (R127). -/
def Dev.reintNamed (d : Dev) (l s : Nat) : Bool :=
  (d.line l).reintQ.contains s || (d.line l).reintCur.any (fun p => p.1 == s)

/-- The first valid copy of a station's segment is written to its slot and signals; the station's first
since it was configured is its join (R96, R110, R111, R134, R194, R631). -/
def Dev.segTaken (d : Dev) (l s : Nat) (c : Nat) (g : Seg) (atNs : Nat) (relay : Bool) : Dev :=
  let old := d.peekW c
  let d := d.pokeW c (word (d.tick % 65536 * 65536 + b2n relay * 256 + bits old 7 0))
  let d := d.pokeWords (c + 4) g.words
  let join := ! (d.head s).everValid
  let d := d.updHead s (fun h => { h with got := true, bad := false, everValid := true, joined := true,
                                          reint := h.reint && (d.reintNamed l s || ! bit (nthW g.words 0) 26),
                                          needCfg := h.needCfg && ! (h.everValid && h.cfgDone.isEmpty &&
                                            h.cfgWord == 0 && h.cfgStep == 0 && h.failCode != 7) })
  let d := d.takeCommon s g.hdr relay
  let d := d.takeAcks s
  let d := if join then d.stEvent (R.ST_EVT.join s) s else d
  let d := d.updLine l (fun z => { z with
    arrFirst := some (z.arrFirst.getD atNs), arrLast := max z.arrLast atNs })
  let d := if d.easel.released then d.updEasel (fun z => { z with lateRel := z.lateRel + 1 }) else d
  (d.signalStation s atNs).gatherDone

/-- A feedback segment reaches this head on a line or by relay (R95, R96, R110, R111). -/
def Dev.fbSegment (d : Dev) (l : Nat) (g : Seg) (atNs : Nat) (relay eccBad ofTick : Bool) : Dev :=
  let s := bits g.hdr 7 0
  match d.stLayout? d.sched s with
  | none => d.segFailed l s g ofTick atNs
  | some (_, z) =>
    let c := memCode 0 z.fbAddr
    if ! ofTick ∨ ! g.validFor z eccBad then d.segFailed l s g ofTick atNs
    else if (d.head s).got then d
    else if d.easel.closed then
      ((d.bump (R.ML_CNT.cnt l 6)).setB (R.ML_EVT.late l) true).bump (R.ST_CNT_SEG.late s)
    else
      let d := if relay then d.bump (R.ML_CNT.cnt l 7) else d
      d.segTaken l s c g atNs relay

/-- A valid segment that came on this head's own port goes to the partner while the line is relayed
(R95). -/
def Dev.relayOut (d : Dev) (l : Nat) (g : Seg) : Dev :=
  match d.stLayout? d.sched (bits g.hdr 7 0) with
  | some (_, z) => if (d.line l).relay ∧ g.validFor z false then d.twSend (.relay l g) else d
  | none => d

/-- FEEDBACK_SEGMENT_RX: one segment of an accepted frame of the present tick (R194). -/
def execFeedbackSegmentRx (line : Fin 8) (seg : Seg) (atNs : Nat) (eccBad : Bool) (s : State) :
    Host.Outcome State Fault Refusal :=
  s.onDev (fun d =>
    if d.time.numbered ∧ d.rxOn line then
      let d := match (if eccBad then d.slotCode? (bits seg.hdr 7 0) else none) with
        | some c => d.eccBad reqDma c 0
        | none => d
      (d.relayOut line seg).fbSegment line seg atNs false eccBad true
    else d)

/-- RELAY: a segment that the partner received; the line stands at a valid CRC by the partner's own check
(R95, R96). -/
def execRelay (line : Fin 8) (seg : Seg) (atNs : Nat) (s : State) : Host.Outcome State Fault Refusal :=
  s.onDev (fun d =>
    if d.twUp ∧ d.time.numbered ∧ d.lineEn line then
      (d.updTwin (fun z => { z with frameNow := true })).fbSegment line seg atNs true false true
    else d)

/-! ## The relay of a line (R95) -/

/-- The line counts as folded or isolated at this unit by its own port: what rel_req shows (R95). -/
def Dev.lineCut (d : Dev) (l : Nat) : Bool :=
  let z := d.line l
  z.foldNow.isSome || z.foldPrev || ! z.partnerPrev || d.flag (R.ML_STAT.isolated l)

/-- The relay of a line is judged anew (R95, R486). -/
def Dev.judgeRelay (d : Dev) (l : Nat) : Dev :=
  let on := d.isTwin && d.twUp && ! d.twin.lost && d.lineEn l && bit (d.line l).cfg 2 &&
    ! d.lineOpen l && d.time.numbered && (d.lineCut l || (d.line l).relayReq)
  (d.setB (R.ML_STAT.relay l) on).updLine l (fun z => { z with relay := on })

/-! ## Cyclic frames (R33, R93 to R96, R110, R116, R119, R478) -/

/-- Arrival of the last byte of each feedback segment after T(n): byte k has arrived (k + 2) × 3.2 ns after
the /S/ (R75, R83). -/
def segArrivals (f : CycFrame) (atNs : Nat) : List (Seg × Nat) :=
  let base := 36 + (f.cmds.map (fun g => 8 + 4 * g.words.length)).sum
  (f.fbs.foldl (fun (acc : Nat × List (Seg × Nat)) g =>
    let e := acc.1 + 8 + 4 * g.words.length
    (e, acc.2 ++ [(g, atNs + ((e + 1) * 32 + 9) / 10)])) (base, [])).2

/-- The payload with the words of its SAFE block taken out (R478). -/
def Dev.unsafePart (d : Dev) (s : Nat) (ws : List Word) : List Word :=
  match d.stBlkM d.sched s 6 with
  | some (o, n, _) => ws.take o ++ ws.drop (o + n)
  | none => ws

/-- The command segments that this unit has sent on a line in the present tick. -/
def Dev.ownCmds (d : Dev) (l : Nat) : List Seg :=
  (d.out.findSome? (fun o => match o with
    | .cyc k f => if k = l then some f.cmds else none
    | _ => none)).getD []

/-- The standby compares its payloads with the active unit's; a station that differs in two consecutive
ticks is a divergence, and the standby asks for a resync (R478). -/
def Dev.compareCmds (d : Dev) (l : Nat) (f : CycFrame) : Dev :=
  if ! (d.isStandby ∧ d.omode = mShadow ∧ d.tstate = tSynced ∧ f.hdr.act ∧ f.hdr.tick = word d.tick) then d
  else
    let own := d.ownCmds l
    let diff := (f.cmds.filter (fun g => g.crc = .correct && own.any (fun o =>
      bits o.hdr 7 0 == bits g.hdr 7 0 &&
      d.unsafePart (bits g.hdr 7 0) o.words != d.unsafePart (bits g.hdr 7 0) g.words))).map (fun g => bits g.hdr 7 0)
    let new := diff.filter (fun s => ! d.twin.diffNow.contains s)
    let d := if d.twin.diffNow.isEmpty ∧ ! new.isEmpty then d.bump R.TW_CNT_DIV.diff else d
    let twice := new.any (fun s => d.twin.diffStns.contains s)
    let d := d.updTwin (fun z => { z with diffNow := z.diffNow ++ new })
    if twice then
      let d := (((d.bump R.TW_CNT_DIV.div).twEvent R.TW_EVT.diverge).healthMark 1).twSend (.ctrl 3 0)
      (d.setT tResync).updTwin (fun z => { z with diffStns := [], resyncRun := true, sel := false })
    else d

/-- The partner's PDUs in a frame of its own: one for each connection of the station, four words each
(R443, R448). -/
def Dev.partnerPdus (d : Dev) (f : CycFrame) : Dev :=
  f.cmds.foldl (fun d g =>
    let s := bits g.hdr 7 0
    match d.stBlkM d.sched s 6 with
    | some (o, _, _) =>
      if g.crc = .correct then
        (d.connsOf s).zipIdx.foldl (fun d (p : Nat × Nat) => d.partnerPdu p.1 ((g.words.drop (o + 4 * p.2)).take 4)) d
      else d
    | none => d) d

/-- A head that listens, or listens again after COLD_C, starts its listen time anew on a frame that it
refuses (R589). -/
def Dev.listenAgain (d : Dev) : Dev :=
  d.updNet (fun z => { z with listenSince := d.time.clock })

/-- The head follows the other head from a tick of its on, in a schedule mode (R46, R116). DEDUCED, log entry 33. -/
def Dev.follow (d : Dev) (n m : Nat) : Dev :=
  let d := (((d.startTicks n).setLeads false).showSched m).setH .follow
  (List.range 8).foldl (fun d l => d.updLine l (fun z => { z with bcnFrom := some (n + 1) })) d

/-- The two time modes agree; a refusal for fore is shown (ML_NET_STAT.fore_mis). -/
def Dev.foreOk (d : Dev) (fore : Bool) : Bool := fore == d.flag R.TIM_CFG.forerunner

/-- LISTEN: the tick of the leading head from two agreeing differences of successive CYC frames, and the
decision to follow it (R33, R116, R589). -/
def Dev.listenCyc (d : Dev) (f : CycFrame) : Dev :=
  if ! d.foreOk f.hdr.fore then (d.setB R.ML_NET_STAT.fore_mis true).listenAgain
  else
    let k := f.hdr.tick.toNat
    match d.time.cycLast with
    | some (n, t) =>
      if k = n then d
      else if k ≠ n + 1 then d.updTime (fun z => { z with cycLast := some (k, f.hdr.txTime), cycDiff := none })
      else
        let df := (f.hdr.txTime - t).toNat
        if d.time.cycDiff ≠ some df then
          d.updTime (fun z => { z with cycLast := some (k, f.hdr.txTime), cycDiff := some df })
        else if df = d.fld R.TIM_TICK.tick_ns then d.follow k f.head.sched
        else ((d.setB R.TIM_STAT.tick_mis true).listenAgain).updTime (fun z => { z with
          cycLast := some (k, f.hdr.txTime) })
    | none => d.updTime (fun z => { z with cycLast := some (k, f.hdr.txTime), cycDiff := none })

/-- COLD_C is aborted from the next tick on (R116, R117). -/
def Dev.abortCold (d : Dev) (follow : Option (Nat × Nat)) : Dev :=
  d.updNet (fun z => { z with abortNext := some follow })

/-- The head's own frame comes back folded: where, by the station that shows fold (R76, R93, R95). -/
def Dev.foldSeen (d : Dev) (l : Nat) (f : CycFrame) (own : Nat) : Dev :=
  let s := ((f.fbs.find? (fun g => bit g.hdr 10 && bit g.hdr 9)).map (fun g => bits g.hdr 7 0)).getD own
  d.updLine l (fun z => { z with foldNow := some (d.fld (R.ST_CFG.pos s)) })

/-- A partner's CYC frame is accepted (R95, R119, R462, R478, R483, R489). DEDUCED, log entry 36. -/
def Dev.partnerCyc (d : Dev) (l : Nat) (f : CycFrame) (atNs : Nat) : Dev :=
  let d := d.updLine l (fun z => { z with partnerSeen := true, partnerExp := true })
  let d := d.updTwin (fun z => { z with cycNow := true, lost := false })
  if f.crc ≠ .correct then d.compareCmds l f
  else
    let d := d.setB R.TIM_STAT.other_dom true
    let d := if f.hdr.act then d.partnerActive f.hdr.epoch else d
    let d := if f.hdr.lead ∧ ! f.hdr.fold ∧ f.hdr.corr < 0xFFFFFF then
        d.domMeasure (thetaOf f.hdr (d.now + atNs) (d.ownLinkPs l))
      else d
    (d.partnerPdus f).compareCmds l f

/-- An accepted CYC frame on a line of a head that has a schedule mode (R110). -/
def Dev.takeCyc (d : Dev) (l : Nat) (f : CycFrame) (atNs own : Nat) : Dev :=
  let d := (d.bump (R.ML_CNT.cnt l 1)).countCrc l f.crc
  let d := if f.hdr.origin % 2 = d.unitId then (if f.hdr.fold then d.foldSeen l f own else d)
    else d.partnerCyc l f atNs
  let d := d.judgeRelay l
  let ofTick := f.hdr.tick == word d.tick
  (segArrivals f atNs).foldl (fun d p =>
    (if ofTick then d.relayOut l p.1 else d).fbSegment l p.1 p.2 false false ofTick) d

/-- CYC_RX (R110): in LISTEN the frame serves integration, in COLD_C it may abort the cold start, and from
COLD_D on the guardian judges it (R116, R119). DEDUCED, log entry 32. -/
def execCycRx (line : Fin 8) (f : CycFrame) (atNs lastNs : Nat) (s : State) :
    Host.Outcome State Fault Refusal :=
  s.onDev (fun d =>
    if ! d.rxOn line then d
    else
      let other := f.hdr.origin % 2 ≠ d.unitId
      match d.net.hstate with
      | .listen =>
        let d := (d.bump (R.ML_CNT.cnt line 1)).countCrc line f.crc
        let d := if other ∧ f.hdr.act ∧ f.crc = .correct then
            d.updTwin (fun z => { z with pAct := true, pEpoch := f.hdr.epoch }) else d
        if other ∧ f.hdr.lead ∧ f.crc = .correct then d.listenCyc f else d
      | .coldC =>
        let d := (d.bump (R.ML_CNT.cnt line 1)).countCrc line f.crc
        if other ∧ f.hdr.lead ∧ f.crc = .correct then
          (d.abortCold none).updTime (fun z => { z with cycLast := some (f.hdr.tick.toNat, f.hdr.txTime), cycDiff := none })
        else d
      | _ =>
        if other ∧ ! (d.line line).partnerExp ∧ ! d.lineOpen line then d.takeCyc line f atNs 0
        else
          let own := (d.judgeRx line 1 atNs lastNs).2
          let (d, ok) := d.guardRx line 1 0 false atNs lastNs
          if ok then d.takeCyc line f atNs own else d)

/-! ## Cold-start frames (R115 to R117, R119) -/

/-- CST_RX (R116): only in LISTEN and COLD_C; later a CST meets a guardian that expects none, and is a
babble that no station owns (R105, R119). -/
def execCstRx (line : Fin 8) (f : CstFrame) (s : State) : Host.Outcome State Fault Refusal :=
  s.onDev (fun d =>
    if ! d.rxOn line then d
    else
      let d := d.countCrc line f.crc
      let other := f.hdr.origin % 2 ≠ d.unitId
      match d.net.hstate with
      | .listen =>
        if f.crc ≠ .correct ∨ ! other then d
        else if ! d.foreOk f.hdr.fore then (d.setB R.ML_NET_STAT.fore_mis true).listenAgain
        else if f.tickNs ≠ d.fld R.TIM_TICK.tick_ns then (d.setB R.TIM_STAT.tick_mis true).listenAgain
        else d.follow f.hdr.tick.toNat f.initSched
      | .coldC =>
        if f.crc = .correct ∧ other ∧ (f.phase = 1 ∨ d.unitId = 1) then
          d.abortCold (if f.tickNs = d.fld R.TIM_TICK.tick_ns ∧ d.foreOk f.hdr.fore then
            some (f.hdr.tick.toNat, f.initSched) else none)
        else d
      | _ => d.countBabble line 0)

/-! ## Alarms (R98, R102, R107, R189, R190) -/

/-- A spontaneous transmission of a station is accepted (R107). -/
def Dev.spontaneous (d : Dev) (s : Nat) : Dev :=
  if d.winDis s then d else d.set (R.ST_CNT_BAB.consec s) 0

/-- The station has lost a configuration: the head configures it anew (R190, code 7). -/
def Dev.reconfigure (d : Dev) (s code : Nat) : Dev :=
  d.updHead s (fun h => { h with needCfg := true, cfgDone := [], cfgWord := 0, cfgStep := 0, failCode := code })

/-- ALM_RX (R102). DEDUCED, log entry 31. -/
def execAlmRx (line : Fin 8) (f : AlmFrame) (atNs lastNs : Nat) (s : State) :
    Host.Outcome State Fault Refusal :=
  s.onDev (fun d =>
    if ! d.rxOn line ∨ ! d.hasTime then d
    else
      let (d, ok) := d.guardRx line 3 f.addr (f.crc == .correct) atNs lastNs
      if ! ok then d
      else
        let d := d.countCrc line f.crc
        if f.crc ≠ .correct then d
        else
          let d := (d.bump (R.ML_CNT.cnt line 13)).spontaneous f.addr
          let d := d.updHead f.addr (fun h => { h with alarms := h.alarms ++ [(f.code, f.detail, f.detail2.toNat)] })
          if f.code = 0x0A then
            (d.wr (R.ST_MODES.adr f.addr) (d.rd (R.ST_MODES.adr f.addr) &&& ~~~ (1#32 <<< (f.detail % 16)))).reconfigure f.addr 7
              |>.note 3 0 f.addr [7]
          else d)

/-! ## Beacons (R91, R92, R102, R131) -/

/-- The header of a station's frame (R72). -/
def StationSt.hdrAt (x : StationSt) (ofs : Nat) : FrameHdr :=
  { tick := word x.tick, txTime := wordI ((x.tick * x.tickNs + ofs : Nat) + x.localOfs) }

/-- The header of a head's frame sent at an offset (R72). -/
def Dev.hdrAt (d : Dev) (ofs : Nat) : FrameHdr :=
  { origin := d.unitId, act := d.isActive, fold := false, fore := d.time.forerunner, lead := d.leads,
    tick := word d.tick, txTime := word (d.now + ofs), corr := 0, epoch := d.fld R.TW_STAT.epoch }

/-- BCN_TX: the heads and stations that hold a time send a beacon on every port with link (R91, R102). -/
def execBcnTx (s : State) : Host.Outcome State Fault Refusal :=
  let d := s.dev
  let dev := if d.hasTime ∧ d.txOn then
      (d.linesOn.filter (fun l => d.flag (R.ML_STAT.link l))).foldl (fun d l =>
        d.emit (.bcn l { hdr := d.hdrAt (d.fld (R.ML_BCN.bcn_ofs l)),
                         integ := d.leads || d.net.hstate == .synced, unit := d.unitId, addr := 0 })) d
    else d
  .next { s with
    dev := dev,
    stations := s.stations.map (fun (p : Nat × StationSt) =>
      if p.2.state = .forward then p
      else
        let ofs := d.fld (R.ML_BCN.bcn_ofs (d.fld (R.ST_CFG.line p.1)))
        let sides := (List.range 2).filter (fun k => (p.2.ports.getD k {}).link)
        (p.1, { p.2 with out := p.2.out ++ sides.map (fun k =>
          .bcn k { hdr := p.2.hdrAt ofs, integ := p.2.state == .integrated, addr := p.1 }) })) }

/-- BCN_RX: at a head inside the guardian's window; at a station in FORWARD a beacon of a synchronised
neighbour gives the time (R92, R102, R104, R131). -/
def execBcnRx (p : Port) (f : BcnFrame) (atNs : Nat) (s : State) : Host.Outcome State Fault Refusal :=
  match p with
  | .head l => s.onDev (fun d =>
      if ! d.rxOn l ∨ ! d.hasTime then d
      else
        let (d, ok) := d.guardRx l 7 f.addr (f.crc == .correct) atNs atNs
        if ! ok then d
        else
          let d := d.countCrc l f.crc
          if f.crc = .correct then d.updLine l (fun z => { z with bcnSeen := true }) else d)
  | .station a side =>
    let d := s.dev
    s.onStation a (fun x =>
      if f.crc ≠ .correct ∨ ! (x.ports.getD side {}).link then x
      else
        let x := x.updPort side (fun q => { q with bcnSeen := true })
        if x.state = .forward ∧ f.integ then
          { x with state := .coarse, tick := f.hdr.tick.toNat, tickNs := d.time.tickNs, localOfs := 0,
                   domain := if f.addr = 0 then f.unit else d.fld R.TIM_STAT.leader,
                   domSeen := true, coldA := false, applyOfs := none, good := 0, silent := 0 }
        else x)

/-! ## Delay exchanges (R54 to R57, R100, R120, R133) -/

/-- DELAY_EXCHANGE_START: in its ticks the node of each link nearer unit A sends a DREQ; egressPs is the raw
egress time after T(n) (R53, R56, R97, R120). -/
def execDelayExchangeStart (egressPs : Nat) (s : State) : Host.Outcome State Fault Refusal :=
  let d := s.dev
  if ! d.hasTime ∨ ! (d.tick % 1024 = 0 ∨ d.net.hstate = .coldD) then .next s
  else
    let dev := if d.unitId = 0 ∧ d.txOn then
        (d.linesOn.filter (fun l => d.flag (R.ML_STAT.link l))).foldl (fun d l =>
          (d.emit (.dreq l)).updLine l (fun z => { z with
            dreqAt := some (egressPs + d.fld (R.TIM_PORT.egr_ps l)) })) d
      else d
    .next { s with
      dev := dev,
      stations := s.stations.map (fun (p : Nat × StationSt) =>
        if p.2.state = .forward ∨ ! (p.2.ports.getD 1 {}).link ∨ ! d.lineEn (d.fld (R.ST_CFG.line p.1)) then p
        else
          let x := p.2.updPort 1 (fun q => { q with dreqAt := some egressPs })
          (p.1, { x with out := x.out ++ [.dreq 1] })) }

/-- DREQ_RX: the far node answers within the limits of the turnaround; at a head the request arrives inside
its window (R100, R104, R120). -/
def execDreqRx (p : Port) (ingressPs turnaroundPs : Nat) (s : State) : Host.Outcome State Fault Refusal :=
  let inTime := 2000000 ≤ turnaroundPs ∧ turnaroundPs ≤ 3000000
  match p with
  | .head l => s.onDev (fun d =>
      if ! d.rxOn l ∨ ! d.hasTime then d
      else
        let ns := (ingressPs - d.fld (R.TIM_PORT.ing_ps l)) / 1000
        let (d, ok) := d.guardRx l 5 0 false ns ns
        if ok ∧ inTime ∧ d.txOn then d.emit (.drsp l turnaroundPs) else d)
  | .station a side => s.onStation a (fun x =>
      if side = 0 ∧ x.state ≠ .forward ∧ (x.ports.getD 0 {}).link ∧ inTime then
        { x with out := x.out ++ [.drsp 0 turnaroundPs] }
      else x)

/-- The record of a link replaced. -/
def Dev.putLink (d : Dev) (x : LinkDelay) : Dev :=
  d.updTime (fun z => { z with links := x :: z.links.filter (fun y => ! (y.line = x.line && y.link = x.link)) })

/-- TIM_LINK.dly shows the held forward delay, truncated to 1/32 ns (R55). -/
def Dev.showLink (d : Dev) (l k : Nat) : Dev :=
  d.set (R.TIM_LINK.dly l k) (satN 16 ((d.linkPs l k true).toNat * 32 / 1000))

/-- Two round trips whose delays agree within 2 ns (R55, R57). DEDUCED, log entry 34. -/
def rttAgree (a b : Nat) : Bool := decide (((a : Int) - b).natAbs ≤ 4000)

/-- A round trip of a link has been measured: the first held delay is the mean of the 8th and 9th smallest
of 16 in COLD_D, or the first result where a link joins later; then R57 governs. The station at the far
end of the link counts the outcome (R57, R120, R133, ST_CNT_DLY). DEDUCED, log entry 34. -/
def Dev.measured (d : Dev) (l k rtt : Nat) : Dev :=
  let x := (d.link? l k).getD { line := l, link := k }
  let far := (((d.nodes l).find? (fun y => y.1 = k + 1)).map (·.2)).getD 0
  let count := fun (d : Dev) (f : Nat → Fld) => if far = 0 then d else d.bump (f far)
  match x.rtt with
  | none =>
    if d.net.hstate = .coldD then
      let c := insNat rtt x.cold
      if c.length < 16 then d.putLink { x with cold := c }
      else (d.putLink { x with cold := [], rtt := some ((nth c 7 + nth c 8) / 2) }).showLink l k
    else (d.putLink { x with cold := [], rtt := some rtt }).showLink l k
  | some h =>
    if rttAgree rtt h ∨ x.held.any (fun y => rttAgree rtt y) then
      count (d.putLink { x with next := some rtt, held := none }) R.ST_CNT_DLY.taken
    else count (d.putLink { x with held := some rtt }) R.ST_CNT_DLY.held

/-- The held delays that change with the tick (R57). -/
def Dev.linkTick (d : Dev) : Dev :=
  (d.time.links.filter (fun x => x.next.isSome)).foldl (fun d x =>
    (d.putLink { x with rtt := x.next, next := none }).showLink x.line x.link) d

/-- DRSP_RX: the near node forms the round trip; at a head the response arrives inside its interval
(R54, R57, R103). Times are after T(n), raw at a head. -/
def execDrspRx (p : Port) (atNs ingressPs turnaroundPs : Nat) (s : State) : Host.Outcome State Fault Refusal :=
  match p with
  | .head l => s.onDev (fun d =>
      if ! d.rxOn l ∨ ! d.hasTime then d
      else
        let e := (d.line l).dreqAt
        let (d, ok) := d.guardRx l 6 0 false atNs atNs
        match e with
        | some e1 =>
          if ok then
            (d.updLine l (fun z => { z with dreqAt := none })).measured l 0
              (ingressPs - d.fld (R.TIM_PORT.ing_ps l) - e1 - turnaroundPs)
          else d
        | none => d)
  | .station a side =>
    match ((s.stn? a).map (fun x => (x.ports.getD side {}).dreqAt)).getD none with
    | some e1 =>
      let d := s.dev
      if side = 1 ∧ d.fld (R.ST_CFG.pos a) ≠ 0 then
        let dev := d.measured (d.fld (R.ST_CFG.line a)) (d.fld (R.ST_CFG.pos a)) (ingressPs - e1 - turnaroundPs)
        State.onStation { s with dev := dev } a (fun x => x.updPort 1 (fun q => { q with dreqAt := none }))
      else .next s
    | none => .next s

end Sys2Proof.Machine
end

