-- ==== Sys2Proof/Machine/Netlife.lean ====
section
/-! DEFINITION. The life of the network: the cold-start machine, the configuration of stations by
mailbox, windows and re-integration by command, schedule changes, and what the head decides about
its stations and lines at the deadline and at the tick (chapter 4; R53, R92, R95, R99, R111). -/

namespace Sys2Proof.Machine

/-! ## The cold-start machine (R116 to R118, R579) -/

/-- LISTEN_TIME_EXPIRY: the listen time ends. COLD_C begins at once or, in tick-input mode, at the first
accepted edge; a head without enabled lines starts its ticks as the leader and counts as SYNCED (R39,
R116, R579). DESIGN CHOICE, log entry 3. -/
def execListenTimeExpiry (s : State) : Host.Outcome State Fault Refusal :=
  s.onDev (fun d =>
    if d.networkUp ∧ d.net.hstate = .listen ∧ ¬ d.time.extWait then
      let d := d.updTime (fun z => { z with clock := d.net.listenSince + d.listenTime })
      if d.linesOn.isEmpty then
        (((d.startTicks 0).setLeads true).showSched (d.fld R.ML_NET_CFG.init_sched)).reachSynced
      else if d.flag R.TIM_CFG.tick_in then d.updTime (fun z => { z with extWait := true })
      else d.coldStart
    else d)

/-- COLD_D_ENTRY: at the first tick at or after 1 ms of network time; from here on the partner's CYC frame
is expected only after one has been accepted (R116, R119). -/
def execColdDEntry (s : State) : Host.Outcome State Fault Refusal :=
  s.onDev (fun d =>
    if d.net.hstate = .coldC ∧ d.net.abortNext.isNone ∧ 1000000 ≤ d.now then
      let d := (d.setH .coldD).updNet (fun z => { z with coldTick := d.time.tick })
      (List.range 8).foldl (fun d l => d.updLine l (fun z => { z with partnerExp := false })) d
    else d)

/-- The head begins to configure every station anew (R122, R631). -/
def Dev.configureAll (d : Dev) : Dev :=
  d.stUsed.foldl (fun d s => (d.updHead s (fun h => { h with
    needCfg := true, cfgDone := [], cfgWord := 0, cfgStep := 0, everValid := false, failCode := 0 })).showStation s) d

/-- GATHER_ENTRY: after the 16th tick of COLD_D (R116, R122). -/
def execGatherEntry (s : State) : Host.Outcome State Fault Refusal :=
  s.onDev (fun d =>
    if d.net.hstate = .coldD ∧ d.net.coldTick + 16 ≤ d.tick then (d.setH .gather).configureAll else d)

/-- GATHER_TIMEOUT: 500 ms after T(0) the head reaches SYNCED with stations missing (R116, R117). -/
def execGatherTimeout (s : State) : Host.Outcome State Fault Refusal :=
  s.onDev (fun d =>
    if d.net.hstate = .gather ∧ ¬ d.net.syncNext ∧ 500000000 ≤ d.now then
      (d.setB R.ML_NET_STAT.cs_timeout true).reachSynced
    else d)

/-- The links of this head on its enabled lines with link have been measured (R116). -/
def Dev.ownLinksMeasured (d : Dev) : Bool :=
  d.linesOn.all (fun l => ! d.flag (R.ML_STAT.link l) || ((d.link? l (d.ownLink l)).bind (·.rtt)).isSome)

/-- FOLLOW_SYNCED: dom_ofs has held within 20 ns for 8 ticks and the head's links have been measured; a
head without lines is SYNCED once R47 holds (R116, R579). DEDUCED, log entry 38. -/
def execFollowSynced (s : State) : Host.Outcome State Fault Refusal :=
  s.onDev (fun d =>
    let need := if d.linesOn.isEmpty then 1 else 8
    if d.net.hstate = .follow ∧ need ≤ d.time.ofsGood ∧ d.ownLinksMeasured then d.reachSynced else d)

/-- LEADER_LOSS_BEFORE_SYNC (R118). -/
def execLeaderLossBeforeSync (s : State) : Host.Outcome State Fault Refusal :=
  s.onDev (fun d =>
    if d.net.hstate = .follow ∧ 1 ≤ d.net.leaderGone then d.enterListen else d)

/-- COLD_C is left for LISTEN, and from there for FOLLOW where the aborting frame allowed it (R116,
R117). DEDUCED, log entry 33. -/
def Dev.coldAbortTick (d : Dev) : Dev :=
  match d.net.abortNext with
  | some f =>
    let last := d.time.cycLast
    let d := ((d.setB R.ML_NET_STAT.cs_abort true).enterListen).updNet (fun z => { z with abortNext := none })
    match f with
    | some (n, m) => d.follow n m
    | none => d.updTime (fun z => { z with cycLast := last })
  | none => d

/-! ## Configuration by mailbox (R99, R122, R134, R135, R152 to R158, R190) -/

/-- The modes that list a station, ascending. -/
def Dev.modesOf (d : Dev) (s : Nat) : List Nat :=
  sortNat ((d.net.modes.filter (fun m => m.lines.any (fun y => y.stations.any (fun z => z.addr = s)))).map (·.idx))

/-- This head owns the mailbox exchange of a line in the present tick (R97, R99, R116). -/
def Dev.ownsMbx (d : Dev) (l : Nat) : Bool :=
  d.hasTime && d.tick % 1024 != 0 &&
  match d.net.hstate with
  | .gather => d.leads
  | .synced => d.lineOpen l || d.tick % 2 == d.unitId
  | _ => false

/-- The first mode that the head has yet to configure at a station. -/
def Dev.cfgMode? (d : Dev) (s : Nat) : Option Nat :=
  (d.modesOf s).find? (fun m => ! (d.head s).cfgDone.contains m)

/-- The configuration of a station in a mode, as the image holds it. -/
def Dev.cfgWords (d : Dev) (s m : Nat) : List Word := ((d.stCfg? s m).map (·.words)).getD []

/-- The head may configure the station: it leads, and the station is one of GATHER or is listed by the mode
in force (R122, R134, R135). -/
def Dev.mayConfigure (d : Dev) (s : Nat) : Bool :=
  d.leads && (d.net.hstate == .gather || (d.stLayout? d.sched s).isSome)

/-- What the head has to ask a station next: its identity, then per mode the configuration written, committed
and read back (R122, R154, R190). -/
def Dev.mbxNext (d : Dev) (s : Nat) : Option MbxMsg :=
  let h := d.head s
  if h.ident.isEmpty then some { addr := s, service := 1, index := 0, count := 16 }
  else if ! h.identOk ∨ ! h.needCfg ∨ ! d.mayConfigure s then none
  else
    match d.cfgMode? s with
    | none => none
    | some m =>
      let ws := d.cfgWords s m
      match h.cfgStep with
      | 0 =>
        let c := (ws.drop h.cfgWord).take 30
        some { addr := s, service := 2, index := m * 256 + h.cfgWord, count := c.length, words := c }
      | 1 => some { addr := s, service := 3, index := m, count := 1, words := [crc32 (wordsBytes ws)] }
      | _ => some { addr := s, service := 4, index := m * 256 + h.cfgWord, count := min 30 (ws.length - h.cfgWord) }

/-- MBX_REQUEST: the owning head sends the request that the station's configuration needs next; none to a
station whose windows are disabled (R99, R107). -/
def execMbxRequest (line : Fin 8) (addr : Fin 256) (s : State) : Host.Outcome State Fault Refusal :=
  s.onDev (fun d =>
    if d.txOn ∧ d.lineEn line ∧ d.ownsMbx line ∧ d.stOnLine line addr ∧ ! d.winDis addr ∧
        (d.line line).mbxOut.isNone then
      match d.mbxNext addr with
      | some q =>
        (d.updLine line (fun z => { z with mbxOut := some q })).emit
          (.mbx line addr q.service q.index q.count q.words)
      | none => d
    else d)

/-- The capacities of a station cover its configurations (R190, code 4). -/
def Dev.capacityOk (d : Dev) (s : Nat) (ident : List Word) : Bool :=
  let x : StationSt := { addr := s, ident := ident }
  let cs := (d.modesOf s).filterMap (d.stCfg? s)
  decide ((d.modesOf s).length ≤ x.idf 3 31 24) &&
  cs.all (fun c =>
    (! c.has 4 || (decide (16 ≤ x.toCap) && decide (2 * c.blkWords 5 ≤ x.toCap))) &&
    c.blkFits 3 2 (x.idf 3 23 16) && c.blkFits 1 32 (x.idf 5 31 16) && c.blkFits 9 32 (x.idf 5 15 0) &&
    c.blkFits 2 2 (x.idf 6 31 16) && c.blkFits 10 2 (x.idf 6 15 0))

/-- The first check of R190 that an identity fails, 0 for none. -/
def Dev.identCheck (d : Dev) (s : Nat) (ident : List Word) : Nat :=
  let w := nthW ident 2
  if bits w 3 0 ≠ 1 then 1
  else if 150 < bits w 15 8 ∨ 2000 < bits w 27 16 then 2
  else if bits (nthW ident 3) 2 0 ≠ d.fld (R.ST_CFG.ptype s) ∨
      bits w 7 4 ≠ (d.axesUsed.filter (fun a => d.fld (R.AX_CFG.stn a) == s)).length then 3
  else if ! d.capacityOk s ident then 4 else 0

/-- A conformance check failed: a class-3 event with the code (R190). DEDUCED, log entry 31. -/
def Dev.conformFail (d : Dev) (s code : Nat) : Dev :=
  (d.updHead s (fun h => { h with failCode := code })).note 3 0 s [word code]

/-- The identity record arrives: ST_IDENT, the checks made before configuration, and the join of a station
that the mode in force does not list (R135, R152, R190). DEDUCED, log entry 36. -/
def Dev.takeIdent (d : Dev) (s : Nat) (ident : List Word) : Dev :=
  let d := d.wr (R.ST_IDENT.adr s) (nthW ident 2 &&& 0x0FFFFFFF#32)
  let code := d.identCheck s ident
  let d := d.updHead s (fun h => { h with ident := ident, identOk := decide (code = 0) })
  let d := if code = 0 then d else ((d.updHead s (fun h => { h with everValid := false })).conformFail s code).showStation s
  if (d.stLayout? d.sched s).isNone ∧ ! (d.head s).joined then
    ((d.updHead s (fun h => { h with joined := true })).stEvent (R.ST_EVT.join s) s).showStation s
  else d

/-- One step of a station's configuration has been answered (R154, R155, R158, R190). DEDUCED, log entry 36. -/
def Dev.cfgReply (d : Dev) (s : Nat) (q : MbxMsg) (r : MbxReply) : Dev :=
  match d.cfgMode? s with
  | none => d
  | some m =>
    let n := (d.cfgWords s m).length
    let w := (d.head s).cfgWord
    let again := fun (d : Dev) => (d.updHead s (fun h => { h with cfgWord := 0, cfgStep := 0 })).conformFail s 5
    if r.result = 6 then d
    else if q.service = 2 then
      if r.result ≠ 0 then again d
      else if n ≤ w + q.count then d.updHead s (fun h => { h with cfgWord := 0, cfgStep := 1 })
      else d.updHead s (fun h => { h with cfgWord := w + q.count })
    else if q.service = 3 then
      if r.result ≠ 0 then again d
      else
        (d.wr (R.ST_MODES.adr s) (d.rd (R.ST_MODES.adr s) ||| 1#32 <<< m)).updHead s (fun h => { h with
          cfgWord := 0, cfgStep := 2, everValid := false })
    else if r.result ≠ 0 ∨ r.words ≠ ((d.cfgWords s m).drop w).take q.count then again d
    else if n ≤ w + q.count then
      let d := d.updHead s (fun h => { h with cfgWord := 0, cfgStep := 0, cfgDone := h.cfgDone ++ [m], failCode := 0 })
      if (d.cfgMode? s).isNone then d.updHead s (fun h => { h with needCfg := false }) else d
    else d.updHead s (fun h => { h with cfgWord := w + q.count })

/-- MBX_REPLY_RX (R99, R107). -/
def execMbxReplyRx (line : Fin 8) (r : MbxReply) (atNs lastNs : Nat) (s : State) :
    Host.Outcome State Fault Refusal :=
  s.onDev (fun d =>
    if ! d.rxOn line ∨ ! d.hasTime then d
    else
      let out := (d.line line).mbxOut
      let (d, ok) := d.guardRx line 4 r.addr (r.crc == .correct) atNs lastNs
      if ! ok then d
      else
        let d := d.countCrc line r.crc
        match out with
        | some q =>
          if r.crc ≠ .correct ∨ r.addr ≠ q.addr ∨ r.service ≠ q.service then d
          else
            let d := (d.bump (R.ML_CNT.cnt line 14)).spontaneous r.addr
            let d := d.updLine line (fun z => { z with mbxOut := none })
            if q.service = 1 then (if r.result = 0 then d.takeIdent r.addr r.words else d)
            else d.cfgReply r.addr q r
        | none => d)

/-! ## Windows, re-integration and counters by command (R127, R130, R150) -/

/-- A station's windows are enabled again (R130). -/
def Dev.windowsEnable (d : Dev) (s : Nat) : Dev :=
  ((d.setB (R.ST_STATE.win_dis s) false).set (R.ST_CNT_BAB.consec s) 0).updHead s (fun h => { h with winGood := 0 })

/-- WINDOWS_REENABLE: after 64 good ticks (R130). -/
def execWindowsReenable (st : Fin 256) (s : State) : Host.Outcome State Fault Refusal :=
  s.onDev (fun d =>
    if d.winDis st ∧ 64 ≤ (d.head st).winGood then
      (d.windowsEnable st).note 3 0 st [word (d.fld (R.ST_SYNC.sync_err st))]
    else d)

/-- ST_CTRL.reint (R127). -/
def Dev.stReint (d : Dev) (s : Nat) : Dev := if d.fld (R.ST_CFG.pos s) = 0 then d else d.reintOrder s

/-- ST_REINT (R127). -/
def execStReint (st : Fin 256) (s : State) : Host.Outcome State Fault Refusal :=
  s.onDev (fun d => d.stReint st)

/-- ST_CTRL.win_en (R130). -/
def Dev.stWinEn (d : Dev) (s : Nat) : Dev := if d.winDis s then d.windowsEnable s else d

/-- ST_WIN_EN (R130). -/
def execStWinEn (st : Fin 256) (s : State) : Host.Outcome State Fault Refusal :=
  s.onDev (fun d => d.stWinEn st)

/-- ST_CTRL.cnt_clr: ST_CNT_SEG to ST_CNT_AGE and ST_SYNC.max_abs; consec, which decides R107, is a state
and not a count of these (R107, R150). -/
def Dev.stCntClr (d : Dev) (s : Nat) : Dev :=
  let d := (d.wr (R.ST_CNT_SEG.adr s) 0).set (R.ST_CNT_BAB.total s) 0
  let d := if d.winDis s then d else d.set (R.ST_CNT_BAB.consec s) 0
  let d := ((d.wr (R.ST_CNT_EDGE.adr s) 0).wr (R.ST_CNT_DLY.adr s) 0).wr (R.ST_CNT_SYNC.adr s) 0
  ((d.wr (R.ST_CNT_CMD.adr s) 0).wr (R.ST_CNT_AGE.adr s) 0).set (R.ST_SYNC.max_abs s) 0

/-- ST_CNT_CLR (R150). -/
def execStCntClr (st : Fin 256) (s : State) : Host.Outcome State Fault Refusal :=
  s.onDev (fun d => d.stCntClr st)

/-! ## Schedule changes (R137 to R144) -/

/-- The modes to which a change from the mode in force is permitted (R136). -/
def Dev.schedAllowed (d : Dev) (m : Nat) : Bool :=
  match d.schedMode? d.sched with
  | some x => x.allowed.contains m && (d.schedMode? m).isSome
  | none => false

/-- A schedule change is requested: the request belongs to the present tick (R138, R139). -/
def Dev.schedReq (d : Dev) (lead tgt : Nat) : Dev × WrRes :=
  let d := (d.set R.ML_SCHED_CTRL.lead lead).set R.ML_SCHED_CTRL.tgt tgt
  if ! d.modeIn [mReady, mRun, mHold, mService] ∨ d.flag R.ML_SCHED_STAT.pend ∨ tgt = d.sched ∨ lead < 10 ∨
      ! d.schedAllowed tgt then
    (d.setB R.ML_SCHED_STAT.rej true, .rejected 0)
  else
    let t := d.tick + 1 + lead
    let d := ((d.setB R.ML_SCHED_STAT.pend true).set R.ML_SCHED_STAT.pend_tgt tgt).set R.ML_SCHED_STAT.result 0
    let d := ((d.set R.ML_SCHED_STAT.nack_addr 0).set R.ML_SCHED_STAT.nack_cnt 0).wr R.ML_SCHED_TICK.adr (word t)
    let d := d.updNet (fun z => { z with
      decided := false, commit := false, abortReq := false, reqTick := d.time.tick, target := t })
    (d.note 3 6 tgt [word tgt, word t], .ok 0)

/-- SCHED_REQ (R138). -/
def execSchedReq (lead : BitVec 8) (tgt : Fin 16) (s : State) : Host.Outcome State Fault Refusal :=
  s.onDev (fun d => (wroteBy (d.schedReq lead.toNat tgt) R.ML_SCHED_CTRL.adr).1)

/-- The pending change is to be cancelled at its decision (R141). -/
def Dev.schedAbort (d : Dev) : Dev :=
  if d.flag R.ML_SCHED_STAT.pend ∧ ¬ d.net.decided then d.updNet (fun z => { z with abortReq := true }) else d

/-- SCHED_ABORT (R141). -/
def execSchedAbort (s : State) : Host.Outcome State Fault Refusal := s.onDev Dev.schedAbort

/-- The decision on the pending change: every station with valid feedback of this tick has acknowledged the
target, and no abort was written; else it is cancelled with its reason (R141, R143). DEDUCED, log entry 35. -/
def Dev.schedDecide (d : Dev) : Dev :=
  let tgt := d.fld R.ML_SCHED_STAT.pend_tgt
  let live := (sortNat (d.listed.map (·.addr))).filter (fun s => (d.head s).got)
  let nack := live.filter (fun s => ! (d.flag (R.ST_STATE.ack s) && d.fld (R.ST_STATE.ack_tgt s) == tgt))
  if d.net.abortReq ∨ ! nack.isEmpty then
    let result := if d.net.abortReq then 3 else 2
    let d := if d.net.abortReq then d else
      nack.foldl (fun d s => d.setB (R.ST_EVT.sched_nack s) true)
        ((d.set R.ML_SCHED_STAT.nack_addr (nack.headD 0)).set R.ML_SCHED_STAT.nack_cnt (satN 8 nack.length))
    let d := ((d.set R.ML_SCHED_STAT.result result).setB R.ML_SCHED_STAT.pend false).updNet (fun z => { z with
      decided := true, commit := false, cancelLeft := 3 })
    d.note 3 6 tgt [word tgt, word result, word (nack.headD 0)]
  else
    (d.updNet (fun z => { z with decided := true, commit := true })).note 3 6 tgt [word tgt, 1]

/-- SCHED_DECISION: at T(t - 2) + EZ_DEADLINE, after the deadline's own work; a standby decides by the same
rules until a copy replaces its state (R27, R141, R148). -/
def execSchedDecision (s : State) : Host.Outcome State Fault Refusal :=
  s.onDev (fun d =>
    if d.flag R.ML_SCHED_STAT.pend ∧ ¬ d.net.decided ∧ d.tick + 2 = d.net.target ∧ d.easel.closed then d.schedDecide
    else d)

/-- The mode in force changes; the age of a station whose slot lies elsewhere in the new layout goes on
there (R142). DEDUCED, log entry 35. -/
def Dev.switchSched (d : Dev) (m : Nat) : Dev :=
  let moved := (d.listed.filterMap (fun z => (d.stLayout? m z.addr).map (fun p => (z.fbAddr, p.2.fbAddr)))).filter
    (fun p => p.1 ≠ p.2)
  let olds := moved.map (fun p => (p.2, d.peekW (memCode 0 p.1)))
  let d := olds.foldl (fun d p => d.pokeW (memCode 0 p.1) p.2) d
  (d.showSched m).updEasel (fun z => { z with jobsFrom := m })

/-- SCHED_SWITCH: from the frame of the target tick on (R142). DEDUCED, log entry 35. -/
def execSchedSwitch (s : State) : Host.Outcome State Fault Refusal :=
  s.onDev (fun d =>
    if d.flag R.ML_SCHED_STAT.pend ∧ d.net.decided ∧ d.net.commit ∧ d.net.target ≤ d.tick then
      let d := d.switchSched (d.fld R.ML_SCHED_STAT.pend_tgt)
      ((d.set R.ML_SCHED_STAT.result 1).setB R.ML_SCHED_STAT.pend false).updNet (fun z => { z with
        decided := false, commit := false })
    else d)

/-! ## What EZ_DEADLINE decides about stations and lines (R111, R127, R130, R146, R148) -/

/-- The age of one listed slot at the deadline, with the station's loss (R111, R146). DEDUCED, log entry 36. -/
def Dev.ageSlot (d : Dev) (l : Nat) (z : StLayout) : Dev :=
  let s := z.addr
  let c := memCode 0 z.fbAddr
  let w := d.peekW c
  let got := (d.head s).got
  let age := if got then 0 else min 255 (bits w 7 0 + 1)
  let d := d.pokeW c ((w &&& ~~~ 0xFF#32) ||| word age)
  let d := d.set (R.ST_STATE.age s) age
  let d := if got then d else (d.bump (R.ST_CNT_AGE.aged s)).bump (R.ML_CNT.cnt l 5)
  let was := d.fld (R.ST_STATE.sstate s)
  let d := d.showStation s
  if d.fld (R.ST_STATE.sstate s) = 4 ∧ was ≠ 4 then
    (((d.bump (R.ST_CNT_AGE.loss s)).stEvent (R.ST_EVT.loss s) s)).updHead s (fun h => { h with
      needCfg := true, cfgDone := [], cfgWord := 0, cfgStep := 0 })
  else d

/-- The ticks over the guard band and the good ticks of one station (R127, R130). -/
def Dev.syncJudge (d : Dev) (l s : Nat) : Dev :=
  let got := (d.head s).got
  let err := (d.sfld (R.ST_SYNC.sync_err s)).natAbs
  let past := if got ∧ (d.line l).guardNs < err then min 3 ((d.head s).syncOver + 1) else 0
  let good := got && bit (nthW (d.fbWords s) 0) 26 && decide (err ≤ d.fld (R.ST_SYNC_CFG.sync_tol_ns s)) && ! d.reintNamed l s
  let d := d.updHead s (fun h => { h with syncOver := past,
                                          winGood := if good && d.winDis s then min 64 (h.winGood + 1) else 0 })
  if past = 3 ∧ d.hasTime then d.reintOrder s else d

/-- The slots age, stations are lost and ordered to re-integrate, line by line in ascending address
(R111, R127, R146, R148). -/
def Dev.netDeadline (d : Dev) : Dev :=
  match d.schedMode? d.sched with
  | none => d
  | some m =>
    let ls := (m.lines.filter (fun y => d.lineEn y.line)).flatMap (fun y =>
      (sortNat (y.stations.map (·.addr))).filterMap (fun s =>
        (y.stations.find? (fun z => z.addr = s)).map (fun z => (y.line, z))))
    let ls := (List.range 8).flatMap (fun l => ls.filter (fun p => p.1 = l))
    let d := ls.foldl (fun d p => d.ageSlot p.1 p.2) d
    ls.foldl (fun d p => d.syncJudge p.1 p.2.addr) d

/-- The leading domain as the deadline sees it (R47, R116, R118; TIM_STAT.holdover). -/
def Dev.domDeadline (d : Dev) : Dev :=
  let inTol := d.time.domSeen && decide ((d.sfld R.TIM_DOM.dom_ofs).natAbs ≤ 20)
  let d := d.setB R.TIM_STAT.holdover (d.time.forerunner && ! d.leads && ! d.time.domSeen)
  let seen := d.time.domSeen
  let d := d.updNet (fun z => { z with leaderGone := if seen ∨ d.leads then 0 else z.leaderGone + 1 })
  d.updTime (fun z => { z with ofsGood := if inTol then min 8 (z.ofsGood + 1) else 0 })

/-! ## The tick at the lines (R92, R95, R112, R127) -/

/-- The neighbour on a port of this head is judged from the tick that has ended (R92). -/
def Dev.nbrTick (d : Dev) (l : Nat) : Dev :=
  let z := d.line l
  let link := d.flag (R.ML_STAT.link l)
  match z.bcnFrom with
  | none => d
  | some n0 =>
    if d.tick ≤ n0 then d
    else
      let d := if link ∧ ! z.bcnSeen ∧ d.lineEn l then d.bump (R.ML_CNT.cnt l 15) else d
      let ok := link && z.bcnSeen
      let good := if ok then min 8 (z.nbrGood + 1) else 0
      let live := if z.nbrLive then ok else decide (8 ≤ good)
      (d.updLine l (fun z => { z with nbrLive := live, nbrGood := if live then 0 else good })).setB (R.ML_STAT.nbr l) live

/-- The next station is named in reint: each in 8 consecutive ticks (R127). -/
def Dev.reintTick (d : Dev) (l : Nat) : Dev :=
  let z := d.line l
  let take := match z.reintQ with
    | s :: t => (some (s, 8), t)
    | [] => (none, [])
  match z.reintCur with
  | some (s, n) =>
    if 1 < n then d.updLine l (fun z => { z with reintCur := some (s, n - 1) })
    else d.updLine l (fun z => { z with reintCur := take.1, reintQ := take.2 })
  | none => d.updLine l (fun z => { z with reintCur := take.1, reintQ := take.2 })

/-- What the last tick showed of a line, and the new tick's beginning (ML_STAT, ML_ARR, ML_GUARD,
ML_APPLY_OFS; R93, R95, R112). DEDUCED, log entry 43. -/
def Dev.lineTick (d : Dev) (l : Nat) : Dev :=
  let z := d.line l
  let n := (((d.layout? d.sched l).getD {}).stations.filter (fun y => (d.head y.addr).got)).length
  let pos := z.foldNow.getD 0
  let d := if pos = d.fld (R.ML_STAT.fold_pos l) then d
    else (d.bump (R.ML_CNT.cnt l 10)).setB (R.ML_EVT.fold_chg l) true
  let d := ((d.set (R.ML_STAT.live l) (satN 8 n)).set (R.ML_STAT.fold_pos l) pos).setB (R.ML_STAT.folded l) z.foldNow.isSome
  let d := d.setB (R.ML_STAT.partner l) z.partnerSeen
  let d := d.wr (R.ML_ARR.adr l) (word (satN 16 (z.arrLast / 4) * 65536 + satN 16 (z.arrFirst.getD 0 / 4)))
  let d := d.nbrTick l
  let ofs := ((z.applyPend.filter (fun p => p.1 ≤ d.tick)).getLast?).map (·.2)
  let d := d.updLine l (fun z => { z with
    foldPrev := z.foldNow.isSome, foldNow := none, partnerPrev := z.partnerSeen, partnerSeen := false,
    bcnSeen := false, arrFirst := none, arrLast := 0, mbxOut := none, dreqAt := none,
    guardNs := d.fld (R.ML_GUARD.guard_ns l),
    applyOfs := ofs.getD z.applyOfs, applyPend := z.applyPend.filter (fun p => d.time.tick < p.1) })
  (d.reintTick l).judgeRelay l

/-- The tick at the lines and station contexts, in the new tick (R57, R110). -/
def Dev.netTick (d : Dev) : Dev :=
  let got := (d.listed.filter (fun z => (d.head z.addr).got)).length
  let d := d.set R.ML_NET_STAT.integ (satN 8 got)
  let d := (List.range 8).foldl Dev.lineTick d
  let d := d.listed.foldl (fun d z =>
    let c := memCode 0 z.fbAddr
    if (d.head z.addr).bad then d.pokeW c (d.peekW c &&& ~~~ 0x200#32) else d) d
  let d := (d.net.heads.map (·.1)).foldl (fun d s => d.updHead s (fun h => { h with got := false, bad := false })) d
  let d := d.updNet (fun z => { z with cancelLeft := z.cancelLeft - 1 })
  let d := d.updTime (fun z => { z with domSeen := false })
  let d := (d.setB R.TIM_STAT.other_dom false).linkTick
  if d.net.syncNext then (d.updNet (fun z => { z with syncNext := false })).reachSynced else d

end Sys2Proof.Machine
end

