-- ==== Sys2Proof/Machine/LoopJob.lean ====
section
/-! DEFINITION. The process loop job: states, control law, override groups and model supervision (chapter 11,
R362 to R380). -/

namespace Sys2Proof.Machine

/-! ## One run of one loop (R365, R372 to R380) -/

/-- A loop belongs to an override group (R367). -/
def Dev.inGroup (d : Dev) (g i : Nat) : Bool := d.flag (R.PL_CFG.grp_en i) && d.fld (R.PL_CFG.grp i) == g

/-- The members of an override group in ascending order; the first is the leader (R367). -/
def Dev.members (d : Dev) (g : Nat) : List Nat := (List.range 384).filter (d.inGroup g)

/-- The output sent in a loop's last run: of a member the group's (R365). -/
def Dev.lastOut (d : Dev) (i : Nat) : Int :=
  if d.flag (R.PL_CFG.grp_en i) then (d.grp (d.fld (R.PL_CFG.grp i))).ug else (d.loop i).uPrev

/-- What the waiting controls make of a loop in its run (R372). -/
structure CtlFold where
  /-- The state so far. -/
  st : Nat
  /-- Rejected controls. -/
  rej : Nat := 0
  /-- Auto has been entered. -/
  enter : Bool := false
  /-- Manual has been entered from another state than Off. -/
  manual : Bool := false
  /-- PL_CTRL.reset has taken effect. -/
  reset : Bool := false
  deriving DecidableEq, Repr

/-- One control in a run, its condition judged there (R372). -/
def CtlFold.apply (fresh : Bool) (x : CtlFold) (c : LoopCtl) : CtlFold :=
  match c with
  | .auto => if x.st = lManual ∧ fresh then { x with st := lAuto, enter := true } else { x with rej := x.rej + 1 }
  | .manual => if x.st = lAuto ∨ x.st = lHold then { x with st := lManual, enter := false, manual := true }
      else { x with rej := x.rej + 1 }
  | .resume => if x.st = lHold ∧ fresh then { x with st := lAuto, enter := true } else { x with rej := x.rej + 1 }
  | .reset => if x.st = lFault ∧ fresh then { x with st := lManual, manual := true, reset := true }
      else { x with rej := x.rej + 1 }

/-- The model's output of this run (R379). -/
def Dev.mdlOut (d : Dev) (i : Nat) : Rat :=
  let x := d.loop i
  let a : Rat := (d.fld (R.PL_MDL.a i) : Nat) / 65536
  let kg : Rat := (d.sfld (R.PL_MDL.kg i) : Int) / 4096
  a * x.yHat + (1 - a) * (x.y0 + kg * ((x.hist.getD (d.fld (R.PL_MDL2.d i)) 0 : Int) : Rat))

/-- Causes of a loop's transitions (R376): a control. DEDUCED, log entry 25. -/
def lcControl : Nat := 1
/-- Input past its limit (R377). -/
def lcInput : Nat := 2
/-- Model action (R380). -/
def lcModel : Nat := 3
/-- Invalid result (R378). -/
def lcInvalid : Nat := 4
/-- Loop fault (R378). -/
def lcFault : Nat := 5

/-- What a run decides about a loop before its output is known: its state, and the control law in Auto. -/
structure LoopRun where
  /-- The decisions shown at the commit. -/
  turn : LoopTurn
  /-- The values after the run, but for the output. -/
  x : LoopSt
  /-- The measurement of the run, Q15. -/
  pv : Int
  /-- The model is anchored in this run (R379). -/
  anchor : Bool := false
  /-- An accumulator overflowed (R234). -/
  aov : Bool := false
  deriving DecidableEq, Repr

/-- The control law of a loop in Auto; on entry the integral makes it bumpless, on aged input integral and
derivative stay (R365, R366, R373, R377). DEDUCED, log entry 7. -/
def Dev.loopLaw (d : Dev) (i : Nat) (x : LoopSt) (pv : Int) (enter aged : Bool) : LoopSt × Bool :=
  let s : Int := if d.flag (R.PL_CFG.act i) then -1 else 1
  let sh := d.fld (R.PL_KP.g_sh i)
  let up := d.lastOut i
  let e := s * (d.sfld (R.PL_SP.sp i) - pv)
  let p := d.sfld (R.PL_KP.kp i) * e
  let kt : Int := d.fld (R.PL_KI.kt i)
  let af : Int := d.fld (R.PL_KD.af i)
  let i' := if enter then up * 32768 / 2 ^ sh - p
    else if aged then x.accI
    else x.accI + d.sfld (R.PL_KI.ki i) * e + kt * (up - x.vPrev) / 2 ^ sh
  let d' := if enter then 0
    else if aged then x.accD
    else af * x.accD / 32768 - s * d.sfld (R.PL_KD.kd i) * (pv - x.pvPrev)
  let sum := p + i' + d'
  let v := satI 16 (sum * 2 ^ sh / 32768)
  let w := min (d.sfld (R.PL_LIM.hi i)) (max (d.sfld (R.PL_LIM.lo i)) v)
  let past := fun (z : Int) => decide (satI 40 z ≠ z)
  ({ x with accI := i', accD := d', accP := p, eLast := e, vPrev := v, wLast := w },
   past i' || past d' || past sum)

/-- A run of one loop up to its own limited output (R372 to R374, R377, R379, R380). DEDUCED, log entry 25. -/
def Dev.loopRun (d : Dev) (i : Nat) : LoopRun :=
  let x := d.loop i
  let st0 := d.lstate i
  let (q, age, tsStale) := d.plInput i
  let fresh := q == 0
  let pv := if fresh then (d.aiChan (d.fld (R.PL_IO.in_stn i)) (d.fld (R.PL_IO.in_ch i))).getD x.pvPrev else x.pvPrev
  let mdl := d.flag (R.PL_POL.mdl_en i)
  let y := d.mdlOut i
  let r := (pv : Rat) - y
  let judged := mdl && x.anchored && st0 == lAuto && fresh
  let n := d.fld (R.PL_MDL2.n i)
  let run := if ! mdl then 0 else if ! judged then x.mdlRun
    else if (d.fld (R.PL_MDL2.win i) : Rat) < absR r then min n (x.mdlRun + 1) else 0
  let trip := judged && decide (x.mdlRun < n) && run == n
  let hold := st0 == lAuto && (q == 2 || x.holdNext || (trip && d.fld (R.PL_POL.mdl_act i) == 1))
  let f : CtlFold := if st0 = lOff then { st := lManual, rej := x.ctrl.length }
    else if hold then { st := lHold, rej := x.ctrl.length }
    else x.ctrl.foldl (CtlFold.apply fresh) { st := st0 }
  let cause := if ! hold then lcControl else if q = 2 then lcInput else if x.holdNext then lcInvalid else lcModel
  let aged := q == 1
  let (x', aov) := if f.st = lAuto then d.loopLaw i x pv f.enter aged else (x, false)
  let anchor := mdl && (st0 == lOff || f.enter || f.reset || ! x.anchored)
  { turn := { idx := i, st := f.st, cause := cause, used := x.ctrl.length, rej := f.rej,
              man := if f.manual then some (d.lastOut i) else none, trip := trip,
              mdl := mdl && n != 0 && (if anchor then false else run == n), aged := aged && f.st == lAuto,
              tsStale := tsStale, age := age, resid := if judged then some (satI 16 r.floor) else none },
    x := { x' with pvPrev := pv, holdNext := false, mdlRun := if anchor then 0 else run, yHat := y,
                   anchored := mdl },
    pv := pv, anchor := anchor, aov := aov }

/-- The output that a loop's own state gives (R371). -/
def Dev.ownOut (d : Dev) (i : Nat) (r : LoopRun) : Int :=
  let st := r.turn.st
  if st = lManual then r.turn.man.getD (d.sfld (R.PL_MAN.man i))
  else if st = lAuto then r.x.wLast
  else if st = lFault ∧ d.flag (R.PL_POL.fail_sel i) then d.sfld (R.PL_MAN.fail i)
  else d.lastOut i

/-- The values of a loop after a run in which an output was sent; the anchor of the model (R365, R379). -/
def Dev.loopAfter (d : Dev) (i : Nat) (r : LoopRun) (u : Int) : LoopSt :=
  let kg : Rat := (d.sfld (R.PL_MDL.kg i) : Int) / 4096
  if r.anchor then
    { r.x with uPrev := u, yHat := r.pv, y0 := (r.pv : Rat) - kg * (u : Rat), hist := List.replicate 256 u }
  else { r.x with uPrev := u, hist := if r.x.anchored then (u :: r.x.hist).take 256 else [] }

/-! ## The job (R364, R367 to R370) -/

/-- The memory code of an AO channel in the command slots (R166). -/
def Dev.aoCode? (d : Dev) (s p : Nat) : Option Nat :=
  match d.stBlk s 2 with
  | some (o, w, first) =>
    if first ≤ p ∧ (p - first) / 2 < w then
      (d.cmdCode? s (o + (p - first) / 2)).map (fun c => c + 2 * ((p - first) % 2))
    else none
  | none => none

/-- The output of a loop or group posted to its AO channel, where it has one (R364). -/
def Dev.postOut (d : Dev) (i : Nat) (u : Int) : List Posted :=
  if d.flag (R.PL_IO.dst i) then
    match d.aoCode? (d.fld (R.PL_IO.out_stn i)) (d.fld (R.PL_IO.out_ch i)) with
    | some c =>
      let b := BitVec.ofInt 16 u
      [{ addr := c, bytes := [b.extractLsb' 0 8, b.extractLsb' 8 8] }]
    | none => []
  else []

/-- The PL_OUT word of a loop (PL_OUT). -/
def outReg (i : Nat) (pv u : Int) : Nat × Word := (R.PL_OUT.adr i, halves pv u)

/-- The job of a loop outside a group (R365). -/
def Dev.singleJob (d : Dev) (i : Nat) : LibCommit :=
  if ! d.flag (R.PL_CFG.en i) then {}
  else
    let r := d.loopRun i
    let u := d.ownOut i r
    { loops := [(i, d.loopAfter i r u)], turns := [r.turn], aov := r.aov, posts := d.postOut i u,
      regs := [outReg i r.pv u] }

/-- The state of a group: the highest of its members that are not Off, in the order Fault, Hold, Auto, Manual
(R368). -/
def groupState (l : List Nat) : Nat :=
  if l.contains lFault then lFault
  else if l.contains lHold then lHold
  else if l.contains lAuto then lAuto
  else if l.contains lManual then lManual
  else lOff

/-- The member of least output among those in Auto, of equal ones the first (R368). -/
def leastAuto (l : List LoopRun) : Option LoopRun :=
  (l.filter (fun r => r.turn.st = lAuto)).foldl (fun best r =>
    match best with
    | none => some r
    | some b => if r.x.wLast < b.x.wLast then some r else some b) none

/-- The job of an override group: all its members in one run, then the group output (R367 to R370).
DEDUCED, log entry 25. -/
def Dev.groupJob (d : Dev) (g : Nat) : LibCommit :=
  let ms := d.members g
  let rs := (ms.filter (fun i => d.flag (R.PL_CFG.en i))).map d.loopRun
  let st := groupState (rs.map (fun r => r.turn.st))
  let lead := ms.headD 0
  let old := d.grp g
  let least := leastAuto rs
  let ug := if st = lAuto then (least.map (fun r => r.x.wLast)).getD old.ug
    else if st = lManual then d.sfld (R.PL_GRP_MAN.man g)
    else if st = lFault ∧ d.flag (R.PL_POL.fail_sel lead) then d.sfld (R.PL_MAN.fail lead)
    else old.ug
  let sel := if st = lAuto then least.map (fun r => r.turn.idx)
    else if least.isNone then none else old.sel
  { loops := rs.map (fun r => (r.turn.idx, d.loopAfter r.turn.idx r ug)), turns := rs.map (fun r => r.turn),
    grp := some (g, { sel := sel, ug := ug }), aov := rs.any (fun r => r.aov),
    posts := if st = lOff then [] else d.postOut lead ug,
    regs := (R.PL_GRP_STAT.adr g, word (unsigned 16 ug * 65536 + ms.length % 16 * 4096 + st * 512 + sel.getD 0)) ::
      rs.map (fun r => outReg r.turn.idx r.pv ug) }

/-- PROCESS_LOOP_JOB: of a loop, or of the group that a member belongs to (R365, R367). -/
def Dev.loopJob (d : Dev) (i : Nat) : LibCommit :=
  if d.flag (R.PL_CFG.grp_en i) then d.groupJob (d.fld (R.PL_CFG.grp i)) else d.singleJob i

/-! ## The commit, and what an invalid end does (R370, R372, R376, R378) -/

/-- What a run decided about a loop takes effect: its state, its status, and the controls that it judged.
DEDUCED, log entry 25. -/
def Dev.loopTurn (d : Dev) (t : LoopTurn) : Dev :=
  let i := t.idx
  let d := d.updLoop i (fun x => { x with ctrl := x.ctrl.drop t.used })
  let d := (List.range t.rej).foldl (fun d _ => d.event 4 (R.PL_EVT.ctrl_rej i) i) d
  let d := if t.trip then d.event 4 (R.PL_EVT.model i) i else d
  let d := match t.man with
    | some u => d.setI (R.PL_MAN.man i) u
    | none => d
  let d := (((d.set (R.PL_STATE.age i) t.age).setB (R.PL_STATE.ts_stale i) t.tsStale).setB (R.PL_STATE.aged i) t.aged).setB
    (R.PL_STATE.mdl i) t.mdl
  let d := match t.resid with
    | some r => d.setI (R.PL_STATE.resid i) r
    | none => d
  d.plEnter i t.st t.cause

/-- The committed values of a loop, but for the controls that have arrived since. -/
def Dev.loopStore (d : Dev) (i : Nat) (x : LoopSt) : Dev := d.updLoop i (fun y => { x with ctrl := y.ctrl })

/-- The selected member of a group shown; a change is counted and recorded (R370). -/
def Dev.groupSel (d : Dev) (g : Nat) (sel : Option Nat) : Dev :=
  let old := (d.grp g).sel
  if old = sel then d
  else
    let d := (d.members g).foldl (fun d i => d.setB (R.PL_STATE.sel i) (sel == some i)) d
    let d := if old.isSome ∧ sel.isSome then d.bump (R.PL_GRP_CNT.chg g) else d
    match sel with
    | some i => d.note 4 3 i [word g, word i]
    | none => d

/-- The results of a loop job are committed (R227, R372). -/
def Dev.loopCommit (d : Dev) (c : LibCommit) : Dev :=
  let d := c.loops.foldl (fun d p => d.loopStore p.1 p.2) d
  let d := c.turns.foldl Dev.loopTurn d
  match c.grp with
  | some (g, s) => (d.groupSel g s.sel).updGrp g (fun _ => s)
  | none => d

/-- The job of a loop or group has ended without a valid result (R378). -/
def Dev.loopInvalid (d : Dev) (ms : List Nat) (run : Nat) : Dev :=
  ms.foldl (fun d i =>
    if ! d.flag (R.PL_CFG.en i) then d
    else
      let st := d.lstate i
      let d := d.event 4 (R.PL_EVT.inv i) i
      let d := if d.flag (R.PL_POL.ovf_pol i) ∧ st = lAuto then d.updLoop i (fun x => { x with holdNext := true }) else d
      if 2 ≤ run ∧ (st = lAuto ∨ st = lHold) then (d.plEnter i lFault lcFault).event 4 (R.PL_EVT.fault i) i else d) d

/-- The members that a loop job computes. -/
def Dev.jobMembers (d : Dev) (i : Nat) : List Nat :=
  if d.flag (R.PL_CFG.grp_en i) then d.members (d.fld (R.PL_CFG.grp i)) else [i]

end Sys2Proof.Machine
end

