-- ==== Sys2Proof/Machine/Jobs.lean ====
section
/-! DEFINITION. How a job starts and how it ends: dispatch context and engine registers, the library jobs, their
commits, and what an invalid end does to an axis or a loop (chapters 6 to 9 and 11). -/

namespace Sys2Proof.Machine

/-! ## Library jobs -/

/-- What a library job computes at its start; of an axis or a loop that is not in use, nothing. -/
def Dev.libRun (d : Dev) (l : LibJob) : Dev × LibCommit :=
  match l with
  | .servo a => if d.akind a = 1 then d.servoJob a else (d, {})
  | .stepper a => if d.akind a = 2 then d.stepperJob a else (d, {})
  | .loop i => (d, d.loopJob i)
  | .group g => (d, d.groupJob g)
  | .custom => (d, {})

/-- The stations whose feedback slots a library job reads. -/
def Dev.libStations (d : Dev) (l : LibJob) : List Nat :=
  match l with
  | .servo a | .stepper a => [d.fld (R.AX_CFG.stn a)]
  | .loop i => (d.jobMembers i).map (fun k => d.fld (R.PL_IO.in_stn k))
  | .group g => (d.members g).map (fun k => d.fld (R.PL_IO.in_stn k))
  | .custom => []

/-- A library job reads the slots of its stations through the checker; false where a byte is uncorrectable
(R255, R523). -/
def Dev.libReads (d : Dev) : List Nat → Dev × Bool
  | [] => (d, true)
  | s :: t =>
    match d.slotCode? s, d.stLayout? d.sched s with
    | some c, some (_, z) =>
      let (d, b) := d.readBytes reqBrush c (4 + 4 * z.fbWords)
      if b.isNone then (d, false) else d.libReads t
    | _, _ => d.libReads t

/-- An axis whose job ended without a valid result: the previous command stands or switches off, a stepper's
point stays, and the second such end in a row is a loop fault (R298, R331). DEDUCED, log entry 22. -/
def Dev.axInvalid (d : Dev) (a run : Nat) : Dev :=
  let st := d.astate a
  let off : Bool := d.akind a == 1 && d.flag (R.AX_REACT.inv_pol a)
  let c := (d.ax a).ctl
  let w0 := nthW c.words 0
  let words : List Word := if d.akind a = 1 then (if off then ((w0 &&& ~~~ 1#32) ||| 4#32) :: c.words.drop 1 else c.words)
    else [w0, c.pointB, c.pointB]
  let d : Dev := match d.axCmdCode? a with
    | some k => (postsAt k words).foldl (fun (d : Dev) (p : Posted) => d.putBytes p.addr p.bytes) d
    | none => d
  let v := c.volts.headD {}
  let d := if d.akind a = 1 then
      d.updAx a (fun x => { x with ctl := { x.ctl with volts := ({ v with pwm := v.pwm && ! off } :: x.ctl.volts).take 4 } })
    else d
  if run = 2 ∨ (2 < run ∧ aCatching ≤ st ∧ st ≤ aCoasting) then (d.event 4 (R.AX_EVT.loop_flt a) a).axFault a else d

/-- What the end of a library job without a valid result does (R298, R331, R378). -/
def Dev.libInvalid (d : Dev) (l : LibJob) (run : Nat) : Dev :=
  match l with
  | .servo a => if d.akind a = 1 then d.axInvalid a run else d
  | .stepper a => if d.akind a = 2 then d.axInvalid a run else d
  | .loop i => d.loopInvalid (d.jobMembers i) run
  | .group g => d.loopInvalid (d.members g) run
  | .custom => d

/-- The committed state of an axis job; the state of an axis that has been cleared since stays so, and what
other commands have set since the job began is kept. -/
def Dev.axCommit (d : Dev) (a : Nat) (c : AxCtl) (st : Nat) : Dev :=
  let cleared := d.astate a == aOff && st != aOff
  d.updAx a (fun x =>
    let c := { c with encOfs := x.ctl.encOfs, holdI := x.ctl.holdI && c.vc == 0 }
    { x with
      ctl := if cleared then { x.ctl with words := c.words } else c,
      fltClr := x.fltClr && ! bit (nthW c.words 0) 0 })

/-- The results of a library job take effect: its Canvas words, its state, the registers to be shown (R227,
R548). DESIGN CHOICE, log entry 23. -/
def Dev.libCommit (d : Dev) (c : LibCommit) : Dev :=
  let d := c.posts.foldl (fun (d : Dev) (p : Posted) => d.putBytes (memCode 0 (p.addr % 0x10000000)) p.bytes) d
  let d := match c.axis with
    | some (a, x) => d.axCommit a x c.axSt
    | none => d
  (d.loopCommit c).updEasel (fun z => { z with shown := z.shown ++ c.regs })

/-! ## The start of a job (R203, R204, R213, R220, R223) -/

/-- The dispatch context of a job in the engine's data memory (R201, R204, R223). -/
def Dev.jobContext (d : Dev) (e j : Nat) (jd : JobDef) : Dev :=
  let fb := ((d.schedMode? d.sched).map (fun m => m.fbMap)).getD 0
  let cmd := ((d.schedMode? d.easel.jobsFrom).map (fun m => m.cmdMap)).getD 0
  d.pokeWords (memCode (4 + e) 0x7FFC0)
    ([word (d.tick % 65536 * 65536 + j), jd.param, word fb, word cmd, word (d.easel.jobsFrom * 16 + d.sched),
      word d.now] ++ List.replicate 10 0)

/-- The registers of an engine at the start of a job (R220). -/
def BrEng.start (g : BrEng) (n j : Nat) (jd : JobDef) (fb cmd ctx : Word) (atNs : Nat) : BrEng :=
  { g with
    busy := true, committing := false, cause := 0, job := j, jobTick := n, lib := none,
    sr := 0, cl := Vector.replicate 8 0, jobWord := ctx, pc := BitVec.ofNat 16 (jd.entry / 4),
    g := (((g.g.set 0 jd.param).set 1 fb).set 2 cmd).set 3 ctx,
    rpts := [], holdAt := Vector.replicate 4 0, commit := [], xins := [], waiting := false,
    startAt := atNs, cycles := 0 }

/-- The registers that a library job leaves: its code is not given, so they are free values from one count
on. DESIGN CHOICE, log entry 23. -/
def BrEng.libRegs (g : BrEng) (k : Nat) (aov : Bool) : BrEng :=
  let v := fun (i : Nat) => Config.freeValue (k + i)
  { g with
    d := Vector.ofFn (fun i => (v i).extractLsb' 0 64), acc := Vector.ofFn (fun i => (v i).extractLsb' 64 40),
    g := Vector.ofFn (fun i => (v (8 + i)).extractLsb' 0 32), pt := Vector.ofFn (fun i => (v (8 + i)).extractLsb' 32 32),
    st := Vector.ofFn (fun i => (v (8 + i)).extractLsb' 64 32), bs := Vector.ofFn (fun i => (v (8 + i)).extractLsb' 96 32),
    sr := word (b2n aov * 16 + b2n ((v 16).getLsbD 0) * 32 + b2n ((v 16).getLsbD 1) * 64) }

/-- A job starts on an engine (R203, R204, R213, R220). The library job at its entry computes on the present
inputs; an uncorrectable byte among them aborts it (R255). DESIGN CHOICE, log entry 23. -/
def Dev.jobStart (d : Dev) (e : Nat) (q : QueuedJob) (jd : JobDef) (atNs : Nat) : Dev :=
  let d := d.updEasel (fun z => { z with queues := setNth z.queues e ((z.queues.getD e []).erase q) })
  let d := d.addWait e (atNs - q.at_)
  let d := d.jobContext e q.idx jd
  let ctx := d.peekWords (memCode (4 + e) 0x7FFC0) 4
  let d := d.updEng e (fun g => g.start d.tick q.idx jd (nthW ctx 2) (nthW ctx 3) (nthW ctx 0) atNs)
  let d := (((d.setB (R.BR_E_STAT.busy e) true).set (R.BR_E_STAT.job e) q.idx).brShow e).showEasel
  match jd.lib with
  | .custom => d
  | l =>
    let (d, ok) := d.libReads (d.libStations l)
    if ! ok then
      let run := d.fld (R.BR_JSTAT.inv_run q.idx) + 1
      (d.brEcc e).libInvalid l run
    else
      let (d, c) := d.libRun l
      { (d.updEng e (fun g => { (g.libRegs d.free c.aov) with lib := some c })) with free := d.free + 17 }

/-- JOB_START (R204): the next job of an idle engine's queue, until EZ_DEADLINE (R200). -/
def execJobStart (e : Fin 4) (atNs : Nat) (s : State) : Host.Outcome State Fault Refusal :=
  s.onDev (fun d =>
    if (d.eng e).busy ∨ d.easel.closed then d
    else
      match nextQueued (d.easel.queues.getD e []) with
      | some q =>
        match d.jobDef? q.idx with
        | some jd => d.jobStart e q jd atNs
        | none => d
      | none => d)

/-! ## The end of a job (R227, R253) -/

/-- The library job that runs on an engine. -/
def Dev.libOf (d : Dev) (j : Nat) : LibJob := ((d.jobDef? j).map (fun x => x.lib)).getD .custom

/-- A job ends on an engine without a valid result. -/
def Dev.jobFail (d : Dev) (e cause atNs : Nat) : Dev :=
  let j := (d.eng e).job
  let run := d.fld (R.BR_JSTAT.inv_run j) + 1
  (d.jobEnd e cause atNs).libInvalid (d.libOf j) run

/-- The commit of a job completes: its entries are written, its status follows, its end signals (R227, R253);
with SR.aov its stores are discarded (R237). -/
def Dev.jobCommit (d : Dev) (e atNs : Nat) : Dev :=
  let g := d.eng e
  if g.cause ≠ 0 then d.jobFail e g.cause atNs
  else
    let d := g.commit.foldl (fun (d : Dev) (p : Posted) => d.putBytes (memCode 0 (p.addr % 0x10000000)) p.bytes) d
    let d := match g.lib with
      | some c => d.libCommit c
      | none => d
    d.jobEnd e 0 atNs

/-- JOB_COMMIT_COMPLETE (R227). -/
def execJobCommitComplete (e : Fin 4) (atNs : Nat) (s : State) : Host.Outcome State Fault Refusal :=
  s.onDev (fun d => if (d.eng e).busy ∧ (d.eng e).committing then d.jobCommit e atNs else d)

/-! ## EZ_DEADLINE (R18, R200) -/

/-- A job of the tick that has not started is discarded: skipped, its result-valid bit cleared, its end not
signalled (R200, R257). DESIGN CHOICE, log entry 24. -/
def Dev.jobDiscard (d : Dev) (j : Nat) : Dev :=
  let run := d.fld (R.BR_JSTAT.inv_run j) + 1
  let d := d.jobStatus j 5 ((Config.openValue 257 [j, d.tick]).toNat % 4) 0 d.tick
  let d := d.updEasel (fun z => { z with skipCnt := z.skipCnt + 1, due := z.due.filter (· ≠ j) })
  d.libInvalid (d.libOf j) run

/-- At EZ_DEADLINE running jobs are aborted, those that commit go on, and what has not started is discarded
(R18, R200, R253). -/
def Dev.closeJobs (d : Dev) : Dev :=
  let at_ := d.easel.deadlineNs
  let d := (List.range 4).foldl (fun d e =>
    if (d.eng e).busy ∧ ! (d.eng e).committing then d.jobFail e 2 at_ else d) d
  let kept := (List.range 4).filterMap (fun e => if (d.eng e).busy then some (d.eng e).job else none)
  let out := (sortNat d.easel.due).filter (fun j => ! kept.contains j)
  let d := d.updEasel (fun z => { z with
    ready := z.ready.filter (fun r => ! r.job), queues := [[], [], [], []], closed := true })
  (out.foldl Dev.jobDiscard d).showEasel

end Sys2Proof.Machine
end

