-- ==== Sys2Proof/Machine/Varnish.lean ====
section
/-! DEFINITION. The Varnish record stream: what a tick records, decimation, gaps and the stream to the
host (chapter 15). -/

namespace Sys2Proof.Machine

/-! ## Command words as sent -/

/-- The command words of an axis as they stand for sending: the Canvas words, with word 0 switched off
where the axis entered a state without a switching bridge before a tick (R292, R331). -/
def Dev.axSent (d : Dev) (a before : Nat) : List Word :=
  match d.axCmdCode? a with
  | some c =>
    let ws := d.peekWords c (if d.akind a = 1 then 4 else 3)
    if [aOff, aCoasting, aLost, aFault, aSafeOff].contains (d.astate a) ∧ (d.ax a).stateTick < before then
      (if d.akind a = 1 then (d.idleWords a).headD 0 else d.stpWord0 a false true) :: ws.drop 1
    else ws
  | none => []

/-! ## Records (R500 to R502) -/

/-- A record: its header of two words and its payload (R500). -/
def vnRec (d : Dev) (kind cls idx : Nat) (ws : List Word) : List Word :=
  word (kind * 2 ^ 24 + cls * 2 ^ 22 + (ws.length + 2) * 2 ^ 8) ::
    word (idx % 65536 * 65536 + d.tick % 65536) :: ws

/-- The two words of a 64-bit quantity, the low word first. -/
def words64 (n : Nat) : List Word := [word n, word (n / 2 ^ 32)]

/-- An EVENT record (R502). -/
def EvRec.words (d : Dev) (e : EvRec) : List Word :=
  vnRec d 2 0 e.idx ([word (e.cls * 2 ^ 29 + b2n e.rej * 2 ^ 28 + e.reason % 256 * 2 ^ 20 + e.reg % 2 ^ 20),
    word (e.bit % 32 * 2 ^ 27), e.fine] ++ e.detail.take 8)

/-- The events of the tick in the order of their classes (R61, R501). -/
def Dev.evtsByClass (d : Dev) : List EvRec :=
  (List.range 6).flatMap (fun c => d.evts.filter (fun e => e.cls = c))

/-- The SAFE record (R502). -/
def Dev.vnSafe (d : Dev) : List Word :=
  let z := List.range 16
  let nib := fun (l : List Nat) => word ((l.map (fun i => d.zstate i % 16 * 2 ^ (4 * (i % 8)))).sum)
  let msk := fun (f : Nat → Fld) => (z.map (fun i => d.fld (f i) * 2 ^ i)).sum
  let miss := fun (lo : Nat) => word (((List.range 32).map (fun k =>
    b2n (d.flag (R.SF_CONN_CFG.en (lo + k)) && ! (d.conn (lo + k)).seen) * 2 ^ k)).sum)
  vnRec d 6 0 0 [nib (z.take 8), nib (z.drop 8),
    word (msk R.SF_ZONE_STAT.perm * 65536 + msk R.SF_ZONE_STAT.dem),
    word (d.fld R.SF_STAT.lockout * 256 + d.fld R.SF_OUT_STAT.cmd_ls * 32 + d.fld R.SF_OUT_STAT.cmd_hs * 16 +
      d.fld R.SF_OUT_STAT.sfb_ls * 8 + d.fld R.SF_OUT_STAT.sfb_hs * 4 + b2n d.saf.inb.filt * 2 + b2n d.saf.ina.filt),
    miss 0, miss 32]

/-- The slot status word of a station; where the mode in force lists no such station, age 255. -/
def Dev.slotStatus (d : Dev) (s : Nat) : Word :=
  match d.slotCode? s with
  | some c => d.peekW c
  | none => 255

/-- AX_FB of one axis. -/
def Dev.vnAxFb (d : Dev) (cls a : Nat) : List Word :=
  vnRec d 0x10 cls a (d.slotStatus (d.fld (R.AX_CFG.stn a)) :: d.axFb a)

/-- AX_CMD of one axis. -/
def Dev.vnAxCmd (d : Dev) (cls a : Nat) : List Word :=
  vnRec d 0x11 cls a (word (d.astate a) :: d.axSent a (d.tick + 1))

/-- AX_INT of one axis. -/
def Dev.vnAxInt (d : Dev) (cls a : Nat) : List Word :=
  let stp := d.akind a == 2
  vnRec d 0x12 cls a [d.rd (R.AX_I_FB.adr a), d.rd (if stp then R.AX_STP_STAT.adr a else R.AX_V_OUT.adr a),
    d.rd (R.AX_I_REF.adr a), d.rd (if stp then R.AX_STP_DEV.adr a else R.AX_ANGLE.adr a),
    d.rd (R.AX_FB_POS.adr a), d.rd (R.AX_FB_SPD.adr a), d.rd (R.AX_PRF_POS.adr a), d.rd (R.AX_PRF_VEL.adr a),
    d.rd (R.AX_PRF_STAT.adr a), d.rd (R.AX_STATE.adr a)]

/-- The words of a feedback block of a station as delivered. -/
def Dev.fbBlk (d : Dev) (s code : Nat) : List Word :=
  match d.stBlk s code with
  | some (o, n, _) => ((d.fbWords s).drop o).take n
  | none => []

/-- The words of a command block of a station as they stand for sending. -/
def Dev.cmdBlk (d : Dev) (s code : Nat) : List Word :=
  match d.stBlk s code with
  | some (o, n, _) => ((d.cmdCode? s o).map (fun c => d.peekWords c n)).getD []
  | none => []

/-- The I/O stations of the mode in force, ascending. -/
def Dev.ioStations (d : Dev) : List Nat := sortNat ((d.listed.filter (fun z => z.ptype = 3)).map (·.addr))

/-- PT_IN of one station. -/
def Dev.vnPtIn (d : Dev) (cls s : Nat) : List Word :=
  vnRec d 0x20 cls s ([d.slotStatus s, d.stTs s] ++ d.fbBlk s 9 ++ d.fbBlk s 10)

/-- PT_OUT of one station. -/
def Dev.vnPtOut (d : Dev) (cls s : Nat) : List Word :=
  vnRec d 0x21 cls s (d.cmdBlk s 1 ++ d.cmdBlk s 2)

/-- The loops that run in the present tick, ascending (R362). -/
def Dev.loopsNow (d : Dev) : List Nat :=
  (List.range 384).filter (fun i =>
    let n := d.fld (R.PL_CFG.div_m1 i) + 1
    d.flag (R.PL_CFG.en i) && (d.tick + n - d.fld (R.PL_CFG.phase i) % n) % n == 0)

/-- PL of one loop. -/
def Dev.vnPl (d : Dev) (cls i : Nat) : List Word :=
  vnRec d 0x22 cls i [d.rd (R.PL_OUT.adr i), word (unsigned 16 (d.sfld (R.PL_SP.sp i)) * 65536 +
    d.fld (R.PL_STATE.aged i) * 32 + d.fld (R.PL_STATE.sel i) * 16 + d.fld (R.PL_STATE.state i))]

/-- Bits [39:8] of a 40-bit value (R502, R511). -/
def acc32 (x : Int) : Word := wordI (x / 256)

/-- PL_INT of one loop. -/
def Dev.vnPlInt (d : Dev) (cls i : Nat) : List Word :=
  let x := d.loop i
  vnRec d 0x23 cls i [acc32 x.accP, acc32 x.accI, acc32 x.accD, acc32 (x.accP + x.accI + x.accD),
    d.rd (R.PL_STATE.adr i)]

/-- DIAG. -/
def Dev.vnDiag (d : Dev) (cls : Nat) : List Word :=
  vnRec d 0x30 cls 0 ((List.range 8).map (fun l => d.rd (R.ML_ARR.adr l)) ++
    (List.range 7).map (fun e => d.rd (R.EZ_ENG_LOAD.adr e)))

/-- The group of a class: records by kind, then by idx (R501, R502). -/
def Dev.vnGroup (d : Dev) (cls : Nat) : List (List Word) :=
  let on := fun (f : Fld) (l : List (List Word)) => if d.fldT f = cls then l else []
  on R.VN_CLS.ax_fb (d.axesUsed.map (d.vnAxFb cls)) ++
  on R.VN_CLS.ax_cmd (d.axesUsed.map (d.vnAxCmd cls)) ++
  on R.VN_CLS.ax_int (d.axesUsed.map (d.vnAxInt cls)) ++
  on R.VN_CLS.pt_in (d.ioStations.map (d.vnPtIn cls)) ++
  on R.VN_CLS.pt_out (d.ioStations.map (d.vnPtOut cls)) ++
  on R.VN_CLS.pl (d.loopsNow.map (d.vnPl cls)) ++
  on R.VN_CLS.pl_int (d.loopsNow.map (d.vnPlInt cls)) ++
  on R.VN_CLS.diag [d.vnDiag cls]

/-! ## Decimation (R506) -/

/-- The next code up. -/
def codeUp (c : Nat) : Nat := if 7 ≤ c then 15 else c + 1

/-- The next code down. -/
def codeDown (c : Nat) : Nat := if c = 15 then 7 else c - 1

/-- The decimation codes of the classes 1 to 3 after a step up. -/
def stepUp (f : Nat × Nat × Nat) : Nat × Nat × Nat :=
  if f.2.2 ≠ 15 then (f.1, f.2.1, codeUp f.2.2)
  else if f.2.1 ≠ 15 then (f.1, codeUp f.2.1, f.2.2)
  else (codeUp f.1, f.2.1, f.2.2)

/-- The decimation codes after a step down. -/
def stepDown (f : Nat × Nat × Nat) : Nat × Nat × Nat :=
  if f.1 ≠ 0 then (codeDown f.1, f.2.1, f.2.2)
  else if f.2.1 ≠ 0 then (f.1, codeDown f.2.1, f.2.2)
  else (f.1, f.2.1, codeDown f.2.2)

/-- A class with a code is recorded in a tick. -/
def codeOn (c n : Nat) : Bool := c != 15 && n % 2 ^ c == 0

/-- The decimation codes in force. -/
def Dev.codes (d : Dev) : Nat × Nat × Nat :=
  (d.fld R.VN_STAT.f1, d.fld R.VN_STAT.f2, d.fld R.VN_STAT.f3)

/-- F: the bytes appended and not acknowledged. -/
def Dev.fill (d : Dev) : Nat := d.vn.ofs - d.vn.ack

/-- The evaluation of F in a tick: at most one step, shown in VN_STAT and VN_EVT (R506). -/
def Dev.vnStep (d : Dev) : Dev :=
  let f := d.fill
  let st := d.fldT R.VN_DEC.step_ticks
  let free : Bool := match d.vn.lastStep with
    | some t => decide (st ≤ d.tick - t)
    | none => true
  let old := d.codes
  let new :=
    if ! free then old
    else if d.fldT R.VN_WM.hwm * 65536 < f ∧ nth d.vn.fills (st - 1) < f then stepUp old
    else if f < d.fldT R.VN_WM.lwm * 65536 then stepDown old
    else old
  let d := { d with vn := { d.vn with fills := (f :: d.vn.fills).take (max 1 st) } }
  if new = old then d
  else
    let up := decide (old.1 < new.1 ∨ old.2.1 < new.2.1 ∨ old.2.2 < new.2.2)
    let d := ((d.set R.VN_STAT.f1 new.1).set R.VN_STAT.f2 new.2.1).set R.VN_STAT.f3 new.2.2
    let d := d.setB (if up then R.VN_EVT.dec_up else R.VN_EVT.dec_dn) true
    { d with vn := { d.vn with lastStep := some d.tick } }

/-! ## Appending (R507, R508) -/

/-- Bytes written into the buffer from a stream offset on; the buffer memory is filled in rotation. -/
def Dev.vnPut (d : Dev) (ofs : Nat) : List Byte → Dev
  | [] => d
  | b :: t => (d.putByte (memCode 2 (ofs % memSize 2)) b).vnPut (ofs + 1) t

/-- One record appended. -/
def Dev.vnWrite (d : Dev) (ws : List Word) : Dev :=
  let o := d.vn.ofs
  let d := d.vnPut o (wordsBytes ws)
  { d with vn := { d.vn with ofs := o + 4 * ws.length, heads := d.vn.heads ++ [o] } }

/-- The registers that show the fill and the next offset follow the stream (VN_FILL, VN_OFS_LO,
VN_ACK_LO). -/
def Dev.vnShow (d : Dev) : Dev :=
  let k := d.fill / 1024
  let d := (d.set R.VN_FILL.fill k).raise R.VN_FILL.fill_max k
  (d.wr R.VN_OFS_LO.adr (word d.vn.ofs)).wr R.VN_ACK_LO.adr (word d.vn.ack)

/-- The words of a set of decimation codes as DECIM shows it. -/
def codesWord (f : Nat × Nat × Nat) : Word := word (f.1 * 256 + f.2.1 * 16 + f.2.2)

/-- The TICK record (R502). -/
def Dev.vnTick (d : Dev) (drop : Nat × Nat × Nat) (gap : Bool) : List Word :=
  let f := d.codes
  vnRec d 1 0 0 (words64 d.tick ++ words64 d.epochTime.toNat ++
    [word (f.1 * 2 ^ 28 + f.2.1 * 2 ^ 24 + f.2.2 * 2 ^ 20 + drop.2.2 * 2 ^ 19 + drop.2.1 * 2 ^ 18 + drop.1 * 2 ^ 17 +
      b2n gap * 2 ^ 16 + d.omode * 2 ^ 12 + b2n d.isActive * 2 ^ 11 + d.unitId * 2 ^ 10 + d.fld R.TW_STAT.epoch),
     word (d.evts.length)])

/-- The class-0 records of a tick, but TICK, in order (R501). -/
def Dev.vnClass0 (d : Dev) (old : Nat × Nat × Nat) (fill : Nat) : List (List Word) :=
  let epoch := match d.time.epochRec with
    | some (a, b) => [vnRec d 5 0 0 (words64 a.toNat ++ words64 b.toNat)]
    | none => []
  let gap := if d.flag R.VN_STAT.gap then
      [vnRec d 4 0 0 (words64 d.vn.gapFirst ++ words64 d.vn.gapLast ++ [word d.vn.gapRecs, word d.vn.gapEvts])]
    else []
  let decim := if d.codes ≠ old then
      [vnRec d 3 0 0 [codesWord old, codesWord d.codes, word (fill / 1024)]] else []
  epoch ++ gap ++ decim ++ d.evtsByClass.map (EvRec.words d) ++ [d.vnSafe]

/-- Bytes of records. -/
def recBytes (l : List (List Word)) : Nat := 4 * (l.map List.length).sum

/-- Nothing of the tick is appended: the loss is counted, and the first such tick opens a gap
(R508). -/
def Dev.vnGapTick (d : Dev) (recs : Nat) : Dev :=
  let n := d.evts.length
  let d := if d.flag R.VN_STAT.gap then d else
    let d := ((d.setB R.VN_STAT.gap true).setB R.VN_EVT.gap true).logErr 4 0 0
    { d with vn := { d.vn with gapFirst := d.tick, gapRecs := 0, gapEvts := 0 } }
  let d := d.bump R.VN_CNT_DROP.lost0 recs
  let d := d.wr R.VN_TICK_BYTES.adr 0
  { d with vn := { d.vn with gapLast := d.tick, gapRecs := d.vn.gapRecs + recs, gapEvts := d.vn.gapEvts + n } }

/-- The group of a class for the present tick, where its code records it, and whether it is dropped with
a fill before it (R507). -/
def Dev.vnClass (d : Dev) (cls code fill : Nat) : List (List Word) × Bool :=
  let g := if codeOn code d.tick then d.vnGroup cls else []
  if (d.fld R.VN_CFG.size - 1) * 2 ^ 20 < fill + recBytes g ∧ g ≠ [] then ([], true) else (g, false)

/-- The packer appends the records of the tick (R501, R506 to R508). -/
def Dev.vnAppend (d : Dev) : Dev :=
  let old := d.codes
  let f := d.fill
  let d := { d with vn := { d.vn with mark := d.vn.ofs } }
  let d := d.vnStep
  let rest := d.vnClass0 old f
  let f0 := f + 32 + recBytes rest
  let d := if d.fld R.VN_CFG.size * 2 ^ 20 < f0 then
      d.vnGapTick (1 + rest.length - b2n (d.flag R.VN_STAT.gap))
    else
      let c := d.codes
      let g1 := d.vnClass 1 c.1 f0
      let f1 := f0 + recBytes g1.1
      let g2 := d.vnClass 2 c.2.1 f1
      let f2 := f1 + recBytes g2.1
      let g3 := d.vnClass 3 c.2.2 f2
      let drops := b2n g1.2 + b2n g2.2 + b2n g3.2
      let gap := d.flag R.VN_STAT.gap
      let recs := d.vnTick (b2n g1.2, b2n g2.2, b2n g3.2) gap :: rest ++ g1.1 ++ g2.1 ++ g3.1
      let d := recs.foldl Dev.vnWrite d
      let d := d.setB R.VN_STAT.gap false
      let d := if drops = 0 then d else (d.setB R.VN_EVT.drop true).bump R.VN_CNT_DROP.groups drops
      d.wr R.VN_TICK_BYTES.adr (word (recBytes recs))
  let d := d.updTime (fun z => { z with epochRec := none })
  ({ d with evts := [] }).vnShow

/-! ## The stream (R504, R505) -/

/-- A STREAM_ACK of an open session: the first session whose acknowledgement is accepted becomes the
stream session, another session's is discarded; a stale one is ignored, one beyond the bytes sent is
ignored and flagged, another one moves ack and the window and ends a stall (R505, R546). -/
def Dev.streamAck (d : Dev) (k ack win : Nat) (src : Word) (port : BitVec 16) : Dev :=
  if d.host.stream.getD k ≠ k then d.bump R.HP_CNT.tag
  else if ack < d.vn.ack then d
  else if d.vn.sent < ack then d.setB R.VN_EVT.ack_bad true
  else
    let resume := d.flag R.VN_STAT.stall
    let d := { d with
      host := { d.host with stream := some k, streamAddr := src, streamPort := port },
      vn := { d.vn with ack := ack, next := if resume then ack else max d.vn.next ack,
                        heads := d.vn.heads.filter (fun h => ack ≤ h) } }
    ((d.wr R.VN_WIN.adr (word win)).setB R.VN_STAT.stall false).showStream.vnShow

/-- STREAM_ACK (R505). -/
def execStreamAck (k : Fin 4) (ack : Nat) (win : Nat) (s : State) : Host.Outcome State Fault Refusal :=
  s.onDev (fun d =>
    match d.session? k with
    | some x => d.streamAck k ack win x.srcAddr x.srcPort
    | none => d.bump R.HP_CNT.tag)

/-- Bytes of the buffer read by the packer for the stream: an uncorrectable byte reads as 0 and is marked
(R504, R523). -/
def Dev.vnRead (d : Dev) (ofs : Nat) : Nat → Dev × List Byte × Bool
  | 0 => (d, [], false)
  | n + 1 =>
    let (d, b) := d.readByte reqVarnish (memCode 2 (ofs % memSize 2))
    let (d, t, bad) := d.vnRead (ofs + 1) n
    match b with
    | some b => (d, b :: t, bad)
    | none => (d, 0 :: t, true)

/-- How many bytes the next datagram carries: a full one where that many are held and the window lets
them go, else the newest bytes that have waited a tick; 0: none (R505). -/
def Dev.dgramLen (d : Dev) : Nat :=
  let n := d.fld R.VN_CFG.dgram * 64
  let v := d.vn
  let lim := v.ack + (d.rd R.VN_WIN.adr).toNat
  if v.next + n ≤ v.ofs then (if v.next + n ≤ lim then n else 0)
  else if v.next < v.mark ∧ v.mark ≤ lim then v.mark - v.next
  else 0

/-- One stream datagram: a STREAM message of the stream session, with its stream header (R504, R505, R539). -/
def Dev.streamDatagram (d : Dev) : Dev :=
  let n := d.dgramLen
  if d.host.stream.isNone ∨ d.flag R.VN_STAT.stall ∨ n = 0 then d
  else
    let o := d.vn.next
    let (d, data, bad) := d.vnRead o n
    let first := match d.vn.heads.find? (fun h => o ≤ h) with
      | some h => if h < o + n then h - o else 0xFFFF
      | none => 0xFFFF
    let hdr := [word o, word (o / 2 ^ 32), word (first * 65536 + n), word (b2n bad * 2 + d.unitId)]
    let d := d.shpSend (d.host.stream.getD 0) 0x20 0 { words := hdr ++ bytesWords data }
      d.host.streamAddr d.host.streamPort
    { d with vn := { d.vn with next := o + n, sent := max d.vn.sent (o + n) } }

/-- STREAM_DATAGRAM (R504). -/
def execStreamDatagram (s : State) : Host.Outcome State Fault Refusal := s.onDev Dev.streamDatagram

/-- ack has not advanced for rtx_us: the device sends again from ack (R505). -/
def Dev.streamResend (d : Dev) : Dev :=
  if d.vn.ack < d.vn.sent then
    ({ d with vn := { d.vn with next := d.vn.ack } }).bump R.VN_CNT_RTX.rtx
  else d

/-- STREAM_RESEND (R505). -/
def execStreamResend (s : State) : Host.Outcome State Fault Refusal := s.onDev Dev.streamResend

/-- STREAM_STALL: without an accepted STREAM_ACK for stall_ms the device stops sending (R505). -/
def execStreamStall (s : State) : Host.Outcome State Fault Refusal :=
  s.onDev (fun d => (d.setB R.VN_STAT.stall true).setB R.VN_EVT.stall true)

/-- VN_CTRL.cnt_clr (R517). -/
def Dev.vnCntClr (d : Dev) : Dev :=
  ((d.wr R.VN_CNT_DROP.adr 0).wr R.VN_CNT_RTX.adr 0).set R.VN_FILL.fill_max 0

/-- VN_CNT_CLR (R517). -/
def execVnCntClr (s : State) : Host.Outcome State Fault Refusal := s.onDev Dev.vnCntClr

/-- A read of VN_OFS_LO or VN_ACK_LO latches the upper word for the master that reads (R628). -/
def Dev.vnLatch (d : Dev) (m : Master) (ack : Bool) : Dev :=
  let put := fun (l : List (Master × Word)) (w : Word) => (m, w) :: l.filter (fun p => p.1 ≠ m)
  if ack then { d with vn := { d.vn with ackHi := put d.vn.ackHi (word (d.vn.ack / 2 ^ 32)) } }
  else { d with vn := { d.vn with ofsHi := put d.vn.ofsHi (word (d.vn.ofs / 2 ^ 32)) } }

/-- VN_OFS_LO_READ (R628). -/
def execVnOfsLoRead (m : Master) (ack : Bool) (s : State) : Host.Outcome State Fault Refusal :=
  s.onDev (fun d => d.vnLatch m ack)

end Sys2Proof.Machine
end

