-- ==== Sys2Proof/Machine/Sketch.lean ====
section
/-! DEFINITION. The Sketchbook: nodes, rows, triggers and the trace units' controls (R510 to R516). -/

namespace Sys2Proof.Machine

/-- The states of a trace unit (SK_STAT). -/
def uIdle : Nat := 0
/-- ARMED. -/
def uArmed : Nat := 1
/-- READY. -/
def uReady : Nat := 2
/-- POST. -/
def uPost : Nat := 3
/-- DONE. -/
def uDone : Nat := 4

/-- The state of a trace unit. -/
def Dev.kstate (d : Dev) (u : Nat) : Nat := d.fld (R.SK_STAT.state u)

/-- The node of an axis (R511). -/
def Dev.axNode (d : Dev) (a node : Nat) : Word :=
  let c := (d.ax a).ctl
  let lowQ := fun (w : Word) => wordI (signed 16 (bits w 15 0))
  let highQ := fun (w : Word) => wordI (signed 16 (bits w 31 16))
  match node with
  | 1 => wordI c.eD
  | 2 => wordI c.eQ
  | 3 => acc32 c.accD
  | 4 => acc32 c.accQ
  | 5 => lowQ (d.rd (R.AX_V_OUT.adr a))
  | 6 => highQ (d.rd (R.AX_V_OUT.adr a))
  | 7 => lowQ (d.rd (R.AX_I_FB.adr a))
  | 8 => highQ (d.rd (R.AX_I_FB.adr a))
  | 9 => wordI c.eW
  | 10 => acc32 c.accW
  | 11 => d.rd (R.AX_FB_SPD.adr a)
  | 12 => d.rd (R.AX_FB_POS.adr a)
  | 13 => d.rd (R.AX_PRF_POS.adr a)
  | 14 => wordI c.resid
  | 15 => word (bits (d.rd (R.AX_ANGLE.adr a)) 31 16)
  | 16 => wordI c.iCoil
  | 17 => d.rd (R.AX_STP_DEV.adr a)
  | _ => 0

/-- The node of a loop (R511). -/
def Dev.plNode (d : Dev) (i node : Nat) : Word :=
  let x := d.loop i
  match node with
  | 1 => wordI x.eLast
  | 2 => acc32 x.accP
  | 3 => acc32 x.accI
  | 4 => acc32 x.accD
  | 5 => acc32 (x.accP + x.accI + x.accD)
  | 6 => wordI x.uPrev
  | 7 => wordI x.pvPrev
  | 8 => wordI (d.sfld (R.PL_SP.sp i))
  | 9 => wordI (d.sfld (R.PL_STATE.resid i))
  | 10 => wordI x.yHat.floor
  | _ => 0

/-- The node of a group (R511). -/
def Dev.grpNode (d : Dev) (g node : Nat) : Word :=
  match node with
  | 1 => wordI (d.grp g).ug
  | 2 => word ((d.grp g).sel.getD 0)
  | _ => 0

/-- The sample of a channel as SK_CH names it (R511, R512). -/
def Dev.skSample (d : Dev) (ch : Word) : Word :=
  let i := bits ch 24 16
  let node := bits ch 7 0
  match bits ch 31 30 with
  | 1 => d.axNode i node
  | 2 => d.plNode i node
  | 3 => d.grpNode i node
  | _ => 0

/-- The trigger condition of a row in READY (R514). -/
def Dev.skCond (d : Dev) (x : SkSt) (row : List Word) : Bool :=
  let ch := bits x.trig 27 24
  let low := bit x.trig 23
  let thr := sword x.thr
  let now := sword (nthW row ch)
  let past := fun (v : Int) => if low then decide (v < thr) else decide (thr < v)
  match bits x.trig 31 28 with
  | 1 => past now
  | 2 => match x.prev with
    | some p => past now && ! past (sword (nthW p ch))
    | none => false
  | 3 => d.evts.any (fun e => e.reg % 2 ^ 20 == bits x.thr 19 0 && e.reg != 0 && e.bit == bits x.thr 24 20)
  | 4 => x.chain
  | _ => false

/-- The registers that show rows and the oldest row follow the unit (SK_STAT, SK_POS). -/
def Dev.skShow (d : Dev) (u : Nat) : Dev :=
  let x := d.sk u
  let d := d.set (R.SK_STAT.rows u) (min x.written x.rows)
  d.set (R.SK_POS.oldest u) (if x.rows ≤ x.written then x.written % x.rows else 0)

/-- A unit enters DONE (R513). -/
def Dev.skDone (d : Dev) (u : Nat) : Dev :=
  (d.set (R.SK_STAT.state u) uDone).event 4 (R.SK_EVT.done u) u

/-- A row in READY met the trigger: the unit enters POST, and units chained to it take note (R513,
R515). -/
def Dev.skTrigger (d : Dev) (u idx : Nat) (force cond : Bool) : Dev :=
  let x := d.sk u
  let left := x.rows - x.pre - 1
  let d := (d.set (R.SK_STAT.state u) uPost).event 4 (R.SK_EVT.trig u) u
  let d := (d.setB (R.SK_STAT.c_force u) force).setB (R.SK_STAT.c_cond u) cond
  let d := (d.wr (R.SK_TTICK.adr u) (word d.tick)).set (R.SK_POS.trow u) idx
  let d := d.updSk u (fun x => { x with post := left, force := false })
  let d := (List.range 8).foldl (fun (d : Dev) k =>
    let y := d.sk k
    if k ≠ u ∧ bits y.trig 31 28 = 4 ∧ bits y.trig 27 24 = u then d.updSk k (fun y => { y with chain := true })
    else d) d
  if left = 0 then d.skDone u else d

/-- A unit writes one row and moves on (R510, R512, R513). -/
def Dev.skRow (d : Dev) (u : Nat) : Dev :=
  let x := d.sk u
  let st := d.kstate u
  let row := x.chans.map d.skSample
  let idx := x.written % x.rows
  let d := d.pokeWords (memCode 3 (4 * (x.base + idx * x.nch))) row
  let cond := st == uReady && d.skCond x row
  let force := st == uReady && x.force
  let d := d.updSk u (fun x => { x with written := x.written + 1, prev := some row, chain := false })
  let d :=
    if st = uArmed then (if x.written + 1 = x.pre then d.set (R.SK_STAT.state u) uReady else d)
    else if st = uReady then (if cond ∨ force then d.skTrigger u idx force cond else d)
    else if x.post ≤ 1 then (d.updSk u (fun x => { x with post := 0 })).skDone u
    else d.updSk u (fun x => { x with post := x.post - 1 })
  d.skShow u

/-- A unit goes to IDLE and keeps its rows (R513). -/
def Dev.skIdle (d : Dev) (u : Nat) : Dev :=
  (d.set (R.SK_STAT.state u) uIdle).updSk u (fun x => { x with disarm := false, force := false })

/-- The trace units at EZ_DEADLINE, in ascending index; a disarm of the tick acts after its row (R512,
R515). -/
def Dev.skTick (d : Dev) : Dev :=
  (List.range 8).foldl (fun (d : Dev) u =>
    let st := d.kstate u
    let d := if [uArmed, uReady, uPost].contains st ∧ d.tick % (d.sk u).div = 0 then d.skRow u else d
    if (d.sk u).disarm then d.skIdle u else d) d

/-- The region that an arm would take: first sample and end (R510). -/
def Dev.skRegion (d : Dev) (u : Nat) : Nat × Nat :=
  let b := d.fld (R.SK_BASE.base u)
  (b, b + (d.fld (R.SK_CFG.nch_m1 u) + 1) * (d.fld (R.SK_LEN.rows_m1 u) + 1))

/-- An arm is possible: the region lies in the pool, the row count in its range, pre below the rows, and
no other unit outside IDLE overlaps (R510, R516). -/
def Dev.skArmOk (d : Dev) (u : Nat) : Bool :=
  let r := d.skRegion u
  let rows := d.fld (R.SK_LEN.rows_m1 u) + 1
  decide (r.2 ≤ 524288) && decide (rows ≤ 65536 / (d.fld (R.SK_CFG.nch_m1 u) + 1)) &&
    decide (d.fld (R.SK_LEN.pre u) < rows) &&
    (List.range 8).all (fun k =>
      let y := d.sk k
      k == u || d.kstate k == uIdle || decide (r.2 ≤ y.base) || decide (y.base + y.rows * y.nch ≤ r.1))

/-- The configuration registers of a unit as the next capture takes them (R516). -/
def Dev.skLatch (d : Dev) (u : Nat) : SkSt :=
  let n := d.fld (R.SK_CFG.nch_m1 u) + 1
  { nch := n,
    div := d.fld (R.SK_CFG.div_m1 u) + 1,
    base := d.fld (R.SK_BASE.base u),
    rows := d.fld (R.SK_LEN.rows_m1 u) + 1,
    pre := d.fld (R.SK_LEN.pre u),
    trig := d.rd (R.SK_TRIG.adr u),
    thr := d.rd (R.SK_THR.adr u),
    chans := (List.range n).map (fun c => d.rd (R.SK_CH.adr u c)) }

/-- SK_CTRL.arm: from IDLE or DONE to ARMED, or READY at once without a pre-trigger, or rejected (R513,
R516). -/
def Dev.skArm (d : Dev) (u : Nat) : Dev × WrRes :=
  let st := d.kstate u
  if st ≠ uIdle ∧ st ≠ uDone ∧ ! (d.sk u).disarm then (d, .ok 0)
  else if ! d.skArmOk u then d.rejectAt (R.SK_EVT.rej u)
  else
    let x := d.skLatch u
    let d := d.updSk u (fun _ => x)
    let d := (d.wr (R.SK_STAT.adr u) 0).set (R.SK_STAT.state u) (if x.pre = 0 then uReady else uArmed)
    (d.skShow u, .ok 0)

/-- SK_ARM (R516). -/
def execSkArm (u : Fin 8) (s : State) : Host.Outcome State Fault Refusal := s.onDev (fun d => (d.skArm u).1)

/-- SK_CTRL.disarm: to IDLE, after a row of the same tick (R513, R515). -/
def Dev.skDisarm (d : Dev) (u : Nat) : Dev :=
  if d.time.numbered ∧ ! d.easel.closed ∧ [uArmed, uReady, uPost].contains (d.kstate u) then
    d.updSk u (fun x => { x with disarm := true })
  else d.skIdle u

/-- SK_DISARM (R513). -/
def execSkDisarm (u : Fin 8) (s : State) : Host.Outcome State Fault Refusal := s.onDev (fun d => d.skDisarm u)

/-- SK_CTRL.force: the unit triggers at its next row in READY (R514). -/
def Dev.skForce (d : Dev) (u : Nat) : Dev :=
  if [uArmed, uReady].contains (d.kstate u) then d.updSk u (fun x => { x with force := true }) else d

/-- SK_FORCE (R514). -/
def execSkForce (u : Fin 8) (s : State) : Host.Outcome State Fault Refusal := s.onDev (fun d => d.skForce u)

/-- A control word written to SK_CTRL: disarm, arm, force. -/
def Dev.skCtrl (d : Dev) (u : Nat) (v : Word) : Dev × WrRes :=
  let d := if bit v 1 then d.skDisarm u else d
  let (d, r) := if bit v 0 then d.skArm u else (d, .ok 0)
  (if bit v 2 then d.skForce u else d, r)

/-- A read of SK_RD_DATA: the sample at SK_RD_ADDR, or none where a byte of it is uncorrectable; the
address moves on (R510, R523). -/
def Dev.skRead (d : Dev) : Dev × Option Word :=
  let a := d.fld R.SK_RD_ADDR.val
  let (d, b) := d.readBytes reqShp (memCode 3 (4 * a)) 4
  let d := d.set R.SK_RD_ADDR.val ((a + 1) % 524288)
  match b with
  | some l =>
    let w := word (bytesNat l)
    (d.wr R.SK_RD_DATA.adr w, some w)
  | none => (d, none)

/-- SK_RD_DATA_READ (R510). -/
def execSkRdDataRead (_m : Master) (s : State) : Host.Outcome State Fault Refusal :=
  s.onDev (fun d => (d.skRead).1)

end Sys2Proof.Machine
end

