-- ==== Sys2Proof/Machine/Security.lean ====
section
/-! DEFINITION. The security alarm: trips of its five classes, key erasure, the tamper latch and the
authentication failures (R563 to R567, R591, R615). -/

namespace Sys2Proof.Machine

/-- An erased key slot: zeros, not provisioned; its provision count stays (R565). -/
def KeySlot.erased (k : KeySlot) : KeySlot :=
  { k with prov := false, key := List.replicate 32 0, priv := 0 }

/-- A limited-change bank with its key slots erased (R565). -/
def LcBank.erased (b : LcBank) : LcBank := { b with keys := b.keys.map KeySlot.erased }

/-- A commit that the erasure of the same tick overtakes is answered REJECTED: one that waits for the tick
as well as one that the tick had started (R560, R565). -/
def Dev.rejectCommits (d : Dev) : Dev :=
  let waits := d.host.inbox.filter (fun m => match m.body with
    | .cmd (2#32 :: _) => true
    | _ => false)
  let d := waits.foldl (fun d m => (d.noteRej 11 0).respond m.sess m.req { type := 0x92, result := 11 }) d
  match d.store.job with
  | some j =>
    if j.commit ∧ j.tick = d.tick then
      (((d.noteRej 11 0).respond j.sess j.req { type := 0x92, result := 11 }).updStore (fun z => { z with
        job := none })).setB R.NV_STAT.storing false
    else d
  | none => d

/-- Key erasure: both banks' key slots, and those of a bank that is being written, read zero; every session
closes; no session opens until the next power cycle (R565). -/
def Dev.eraseKeys (d : Dev) : Dev :=
  let d := d.rejectCommits
  let d := d.updNv (fun n => { n with lc0 := n.lc0.erased, lc1 := n.lc1.erased })
  let d := d.updStore (fun z => { z with job := z.job.map (fun j => { j with lc := j.lc.erased }) })
  let d := ((d.closeAll).updHost (fun h => { h with erasedBoot := true })).showLc
  let d := d.updMode (fun z => { z with erasing := true })
  (d.setB R.SEC_STAT.erased true).event 1 R.SEC_EVT.erase

/-- The action of a class in a word of SEC_ACT (R564). -/
def actionOf (act : Word) (c : Nat) : Nat := act.toNat / 4 ^ c % 4

/-- A security trip of a class under an action: recorded as a class-1 event; action 1 and 2 raise the alarm,
in every mode but those that it does not change; action 2 erases the keys (R564, R565, R591). DEDUCED, log entry 55. -/
def Dev.tripWith (d : Dev) (c act : Nat) : Dev :=
  let d := d.setB ⟨R.SEC_STAT.adr, c, c⟩ true
  let d := d.event 1 ⟨R.SEC_EVT.adr, c, c⟩ 0 [word act]
  let d := if 1 ≤ c ∧ c ≤ 3 then d.healthMark 2 else d
  let d := if act = 2 then d.eraseKeys else d
  if act = 1 ∨ act = 2 then
    let d := d.setB R.DEV_STAT.alarm_pend true
    if d.omode = mReset ∨ d.omode = mSelfTest ∨ d.omode = mLoad ∨ d.omode = mLockout then d
    else d.enterMode mAlarm 4
  else d

/-- A security trip of a class with the action that SEC_ACT gives it (R564). -/
def Dev.secTrip (d : Dev) (c : Nat) : Dev := d.tripWith c (actionOf (d.rd R.SEC_ACT.adr) c)

/-- A free bit: whether an input has come back to its level after a trip, which no command tells.
DEDUCED, log entry 55. -/
def Dev.drawBit (d : Dev) : Bool × Dev :=
  let (v, d) := d.draw
  (v.getLsbD 0, d)

/-- A change of the input balls and the monitors. -/
def Dev.updBalls (d : Dev) (g : Balls → Balls) : Dev := { d with balls := g d.balls }

/-- The monitors and the main-power side of the tamper input run from leaving Reset until the next entry
into it. -/
def Dev.alive (d : Dev) : Bool := d.omode != mReset

/-- The tamper latch is set; while the device runs it shows in SEC_STAT and trips class 0 (R563, R615). -/
def Dev.tamperLatch (d : Dev) : Dev :=
  let d := d.updNv (fun n => { n with tamper := true })
  if d.alive then (d.setB R.SEC_STAT.tamp true).secTrip 0 else d

/-- TAMPER_TRIP (R563, R615). DEDUCED, log entry 55. -/
def execTamperTrip (s : State) : Host.Outcome State Fault Refusal :=
  s.onDev (fun d =>
    let (b, d) := d.drawBit
    (d.updBalls (fun z => { z with tamperN := b })).tamperLatch)

/-- VBAT_BROWNOUT (R615). -/
def execVbatBrownout (s : State) : Host.Outcome State Fault Refusal := s.onDev Dev.tamperLatch

/-- VOLTAGE_TRIP (R563, R605). -/
def execVoltageTrip (s : State) : Host.Outcome State Fault Refusal :=
  s.onDev (fun d =>
    if d.alive then
      let (b, d) := d.drawBit
      (d.updBalls (fun z => { z with voltOk := b })).secTrip 1
    else d)

/-- TEMPERATURE_TRIP (R563, R606). -/
def execTemperatureTrip (s : State) : Host.Outcome State Fault Refusal :=
  s.onDev (fun d =>
    if d.alive then
      let (b, d) := d.drawBit
      (d.updBalls (fun z => { z with tempOk := b })).secTrip 2
    else d)

/-- CLOCK_TRIP (R563, R607). -/
def execClockTrip (s : State) : Host.Outcome State Fault Refusal :=
  s.onDev (fun d =>
    if d.alive then
      let (b, d) := d.drawBit
      (d.updBalls (fun z => { z with clkOk := b })).secTrip 3
    else d)

/-- The privilege of a session, 0 where none is open. -/
def Dev.privOf (d : Dev) (k : Nat) : Nat := ((d.session? k).map (·.priv)).getD 0

/-- SEC_CTRL takes effect only in Service from privilege 3 (SEC_CTRL). -/
def Dev.secMay (d : Dev) (k : Nat) : Bool := d.rmode == mService && d.privOf k == 3

/-- SEC_CTRL.erase (R565). -/
def Dev.secErase (d : Dev) (k : Nat) : Dev × WrRes :=
  if d.secMay k then (d.eraseKeys, .ok 0) else d.rejectAt R.SEC_EVT.cfg_rej

/-- SEC_CTRL.tamp_clr: only while TAMPER_N is high (R566). -/
def Dev.secTampClr (d : Dev) (k : Nat) : Dev × WrRes :=
  if d.secMay k && d.balls.tamperN then
    ((d.updNv (fun n => { n with tamper := false })).setB R.SEC_STAT.tamp false, .ok 0)
  else d.rejectAt R.SEC_EVT.cfg_rej

/-- SEC_ERASE (R565). -/
def execSecErase (k : Fin 4) (s : State) : Host.Outcome State Fault Refusal :=
  s.onDev (fun d => (d.secErase k).1)

/-- SEC_TAMP_CLR (R566). -/
def execSecTampClr (k : Fin 4) (s : State) : Host.Outcome State Fault Refusal :=
  s.onDev (fun d => (d.secTampClr k).1)

/-- The authentication failures of the last SEC_AUTH.win_s seconds (R567). -/
def Dev.failuresNow (d : Dev) : List Nat :=
  d.host.failures.filter (fun t => decide (d.time.clock < t + d.fld R.SEC_AUTH.win_s * 1000000000))

/-- The failures that count have fallen below SEC_AUTH.lim: class 4 can trip again (R567). -/
def Dev.authRearm (d : Dev) : Dev :=
  let l := d.failuresNow
  d.updHost (fun h => { h with
    failures := l, armed4 := h.armed4 || decide (l.length < d.fld R.SEC_AUTH.lim) })

/-- An authentication failure (R567). -/
def Dev.authFailure (d : Dev) : Dev :=
  let d := (d.setB R.HP_EVT.auth_fail true).authRearm
  let d := d.updHost (fun h => { h with failures := h.failures ++ [d.time.clock] })
  if d.fld R.SEC_AUTH.lim ≤ d.host.failures.length ∧ d.host.armed4 then
    (d.updHost (fun h => { h with armed4 := false })).secTrip 4
  else d

end Sys2Proof.Machine
end

