-- ==== Sys2Proof/Machine/Store.lean ====
section
/-! DEFINITION. STORE, the limited-change staging, COMMIT_LC, DISCARD_LC and PROVISION (R551, R554 to
R562). -/

namespace Sys2Proof.Machine

/-- The end of a CMD: the command is recorded as a class-5 event, rejected with its result code where it was
turned away by the state of the device, and answered (R62, R542, R551). -/
def Dev.cmdDone (d : Dev) (k : Nat) (req : Word) (code result : Nat) : Dev :=
  let d := if result = 0 then d.note 5 1 0 [word code]
    else if result = 1 ∨ result = 2 then d else d.noteRej result 0
  d.respond k req { type := 0x92, result := result }

/-- The kind of a session. -/
def Dev.kindOf (d : Dev) (k : Nat) : Nat := ((d.session? k).map (·.kind)).getD 0

/-- A response to the session that a STORE or commit came from, where that session is still open. -/
def Dev.answerJob (d : Dev) (j : NvJob) (result : Nat) : Dev :=
  if (d.session? j.sess).any (fun x => x.sid == j.sid) then
    d.respond j.sess j.req { type := 0x92, result := result }
  else d

/-- The identity of a session. -/
def Dev.sidOf (d : Dev) (k : Nat) : Word := ((d.session? k).map (·.sid)).getD 0

/-! ## STORE (R556) -/

/-- A settings bank replaced. -/
def NvSt.putBank (n : NvSt) (k : Nat) (b : Bank) : NvSt :=
  if k = 1 then { n with bank1 := b } else { n with bank0 := b }

/-- The settings bank not in force. -/
def NvSt.otherBank (n : NvSt) : Nat := if n.bankNo = some 0 then 1 else 0

/-- A STORE takes every RWS field, the retirement list among them, and begins to write the bank not in force,
which is invalid from then on (R555, R556). -/
def Dev.storeTake (d : Dev) : Dev :=
  match d.store.job with
  | some j =>
    if j.commit ∨ j.taken then d
    else
      let seq : Word := match d.nv.bankNo with
        | some 1 => d.nv.bank1.seq + 1
        | some _ => d.nv.bank0.seq + 1
        | none => 1
      let b : Bank := {
        valid := true, seq := seq, recs := rwsRegs.map (fun a => (a, d.rd a &&& accMask a .RWS)),
        hash := d.rd R.DEV_IMG_HASH.adr }
      let d := d.updNv (fun n => n.putBank n.otherBank { b with valid := false })
      d.updStore (fun z => { z with job := some { j with taken := true, bank := b } })
  | none => d

/-- What stands against a STORE; 0: nothing (R556, R564, R569). -/
def Dev.storeWhy (d : Dev) (k : Nat) : Nat :=
  if d.privOf k < 2 then 2
  else if ! d.modeIn [mReady, mHold, mService] then 3
  else if d.store.job.isSome then 7
  else 0

/-- STORE: the values are taken at the deadline of its tick, or at once before the first tick (R60, R556). -/
def Dev.storeCmd (d : Dev) (k : Nat) (req : Word) : Dev :=
  let why := d.storeWhy k
  if why ≠ 0 then d.cmdDone k req 1 why
  else
    let d := ((d.note 5 1 0 [1]).setB R.NV_STAT.storing true).updStore (fun z => { z with
      job := some { sess := k, sid := d.sidOf k, req := req, tick := d.tick } })
    if d.time.numbered then d else d.storeTake

/-- STORE (R556). -/
def execStore (k : Fin 4) (req : Word) (s : State) : Host.Outcome State Fault Refusal :=
  s.onDev (fun d => (d.touch k).once k req (fun d => d.storeCmd k req))

/-- STORE_COMPLETE: the header is written and the bank is in force, or the STORE failed and the bank in force
stays (R556). -/
def execStoreComplete (ok : Bool) (s : State) : Host.Outcome State Fault Refusal :=
  s.onDev (fun d =>
    match d.store.job with
    | some j =>
      if j.commit ∨ ! j.taken then d
      else
        let d := (d.updStore (fun z => { z with job := none })).setB R.NV_STAT.storing false
        if ok then
          let d := (d.updNv (fun n => n.putBank n.otherBank j.bank)).showBank
          ((d.setB R.NV_STAT.img_chg false).setB R.NV_EVT.store true).answerJob j 0
        else (d.event 2 R.NV_EVT.store_err).answerJob j 9
    | none => d)

/-! ## Limited-change settings (R558 to R562) -/

/-- The word staged for a limited-change register, else the stored one (R559). -/
def Dev.staged (d : Dev) (addr : Nat) : Word := (Sparse.find? d.store.stRegs addr).getD (d.lcWord addr)

/-- A session may stage: kind 1, or kind 2 for a key in the bootstrap state (R559, R565). -/
def Dev.mayCommit (d : Dev) (k : Nat) : Bool :=
  (d.session? k).isSome && (d.kindOf k == 1 || (d.kindOf k == 2 && d.flag R.SEC_STAT.boot))

/-- A write to RWL fields: staged in a kind-1 session, LIFE_OUT where the lifetime is used up, else rejected
(R458, R498, R559). -/
def Dev.stageWr (d : Dev) (k : Option Nat) (addr : Nat) (v mask : Word) : Dev × WrRes :=
  let m := accMask addr .RWL &&& mask
  if ! (k.any (fun k => d.kindOf k == 1 && (d.session? k).isSome)) then
    d.rejectAt (if settingOf addr = 3 then R.TW_EVT.cfg_rej else R.SF_EVT.cfg_rej)
  else if d.lc.left (settingOf addr) = 0 then (d, .rejected 8)
  else
    ((d.updStore (fun z => { z with
      stRegs := Sparse.insert z.stRegs addr (merge (d.staged addr) v m) })).setB R.NV_STAT.lc_stage true, .ok 0)

/-- The key that PROVISION carries, unwrapped (R562). -/
def Dev.unwrap (d : Dev) (k slot : Nat) (wrapped : List Byte) : List Byte :=
  let kw := ((d.session? k).map (·.kWrap)).getD []
  let pad := hmac kw (ascii "KEY" ++ natBytes 1 slot ++ natBytes 1 (d.keySlot slot).count)
  wrapped.zipWith (fun a b => a ^^^ b) pad

/-- What stands against a PROVISION of a key; 0: nothing (R559, R562, R565). -/
def Dev.provisionWhy (d : Dev) (k slot : Nat) (key : List Byte) : Nat :=
  if ! d.mayCommit k then 2
  else if key.all (fun b => b == 0) then 1
  else if d.lc.left (16 + slot) = 0 then 8
  else 0

/-- PROVISION stages a key (R559, R562). -/
def Dev.provisionCmd (d : Dev) (k : Nat) (req : Word) (slot priv : Nat) (wrapped : List Byte) : Dev :=
  let key := d.unwrap k slot wrapped
  let why := d.provisionWhy k slot key
  if why ≠ 0 then d.cmdDone k req 4 why
  else
    ((d.updStore (fun z => { z with
      stKeys := { slot := slot, key := key, priv := if slot = 0 then 0 else priv } ::
        z.stKeys.filter (fun x => x.slot ≠ slot) })).setB R.NV_STAT.lc_stage true).cmdDone k req 4 0

/-- PROVISION (R562). -/
def execProvision (k : Fin 4) (req : Word) (slot : Fin 8) (priv : Fin 4) (wrapped : List Byte) (s : State) :
    Host.Outcome State Fault Refusal :=
  s.onDev (fun d => (d.touch k).once k req (fun d => d.provisionCmd k req slot priv wrapped))

/-- DISCARD_LC (R551, R559). -/
def Dev.discardCmd (d : Dev) (k : Nat) (req : Word) : Dev :=
  if d.kindOf k ≠ 1 then d.cmdDone k req 3 2 else d.discardStaging.cmdDone k req 3 0

/-- DISCARD_LC (R551). -/
def execDiscardLc (k : Fin 4) (req : Word) (s : State) : Host.Outcome State Fault Refusal :=
  s.onDev (fun d => (d.touch k).once k req (fun d => d.discardCmd k req))

/-- A staged key differs from the stored one (R560). -/
def Dev.keyDiffers (d : Dev) (x : StagedKey) : Bool :=
  let k := d.keySlot x.slot
  ! k.prov || k.key != x.key || k.priv != x.priv

/-- The settings whose staged content differs from their stored content, ascending (R560). -/
def Dev.changedSettings (d : Dev) : List Nat :=
  sortNat ((d.store.stRegs.filter (fun p => p.2 ≠ d.lcWord p.1)).map (fun p => settingOf p.1) ++
    (d.store.stKeys.filter d.keyDiffers).map (fun x => 16 + x.slot))

/-- The bank that a commit writes: the staged content, and one change counted for each setting changed
(R560). -/
def Dev.commitBank (d : Dev) (sets : List Nat) : LcBank :=
  let b := d.lc
  let regs := d.store.stRegs.foldl (fun l p => Sparse.insert l p.1 p.2) b.regs
  let keys := (d.store.stKeys.filter d.keyDiffers).foldl (fun l x =>
    setNth l x.slot { prov := true, key := x.key, priv := x.priv, count := (l.getD x.slot {}).count + 1 }) b.keys
  sets.foldl LcBank.spend { b with valid := true, seq := b.seq + 1, regs := regs, keys := keys }

/-- The content of a setting in a bank, as the change log's CRC covers it: the setting's words ascending, or
the key and its privilege (R561). -/
def LcBank.content (b : LcBank) (setting : Nat) : List Byte :=
  if setting < 16 then
    (rwlRegs.filter (fun a => settingOf a = setting)).flatMap (fun a =>
      wordBytes ((Sparse.find? b.regs a).getD (resetWord a)))
  else
    let k := b.keys.getD (setting - 16) {}
    k.key ++ natBytes 1 k.priv

/-- A change-log entry (R561). -/
def Dev.logEntry (d : Dev) (k i : Nat) (b : LcBank) (setting : Nat) : List Word :=
  let slot := ((d.session? k).map (·.slot)).getD 0
  let w0 := word (setting * 2 ^ 24 + b.left setting * 2 ^ 16 + slot * 256 + (d.keySlot slot).count % 256)
  let seq := nthW (d.nv.clog.getLast?.getD []) 1 + 1 + word i
  let time := if d.time.numbered then d.now else 0
  let ws := [w0, seq, word time, word (time / 2 ^ 32), crc32 (b.content setting), word d.unitId]
  ws ++ [0, crc32 (wordsBytes ws)]

/-- A limited-change bank replaced. -/
def NvSt.putLc (n : NvSt) (k : Nat) (b : LcBank) : NvSt :=
  if k = 1 then { n with lc1 := b } else { n with lc0 := b }

/-- What stands against a COMMIT_LC; 0: nothing (R559 to R561, R565). -/
def Dev.commitWhy (d : Dev) (k : Nat) : Nat :=
  if ! d.mayCommit k then 2
  else if d.mode.erasing then 11
  else if d.store.job.isSome then 7
  else if 1024 < d.nv.clog.length + d.changedSettings.length then 8
  else 0

/-- COMMIT_LC: the change-log entries are written, then the bank not in force, invalid until its header is
written (R560). -/
def Dev.commitCmd (d : Dev) (k : Nat) (req : Word) : Dev :=
  let why := d.commitWhy k
  if why ≠ 0 then d.cmdDone k req 2 why
  else
    let sets := d.changedSettings
    let b := d.commitBank sets
    let n := d.nv.clog.length
    let ents := (List.range sets.length).map (fun i => d.logEntry k i b (nth sets i))
    let job : NvJob := {
      commit := true, lc := b, sess := k, sid := d.sidOf k, req := req, tick := d.tick, taken := true,
      sets := sets, logFrom := n }
    let other := 1 - d.nv.lcNo
    let d := d.updNv (fun v => ({ v with
      clog := v.clog ++ ents, voids := v.voids ++ (List.range sets.length).map (n + ·) }).putLc other
        { b with valid := false })
    ((d.note 5 1 0 [2]).setB R.NV_STAT.storing true).updStore (fun z => { z with job := some job }) |>.showLc

/-- COMMIT_LC (R560). DEDUCED, log entry 54. -/
def execCommitLc (k : Fin 4) (req : Word) (s : State) : Host.Outcome State Fault Refusal :=
  s.onDev (fun d => (d.touch k).once k req (fun d => d.commitCmd k req))

/-- What is staged and does not yet stand in the bank in force stays staged after a commit (R559). -/
def Dev.restage (d : Dev) : Dev :=
  let d := d.updStore (fun z => { z with
    stRegs := z.stRegs.filter (fun p => p.2 ≠ d.lcWord p.1), stKeys := z.stKeys.filter d.keyDiffers })
  d.setB R.NV_STAT.lc_stage (! d.store.stRegs.isEmpty || ! d.store.stKeys.isEmpty)

/-- COMMIT_LC_COMPLETE: the header of the new bank is written and its content stands for what R558 says, or
the commit failed and the old bank stays in force (R542, R558, R560). DEDUCED, log entry 54. -/
def execCommitLcComplete (ok : Bool) (s : State) : Host.Outcome State Fault Refusal :=
  s.onDev (fun d =>
    match d.store.job with
    | some j =>
      if ! j.commit then d
      else
        let d := (d.updStore (fun z => { z with job := none })).setB R.NV_STAT.storing false
        if ok then
          let other := 1 - d.nv.lcNo
          let d := d.updNv (fun v => ({ v with
            voids := v.voids.filter (fun i => decide (i < j.logFrom) || decide (j.logFrom + j.sets.length ≤ i)) }).putLc
              other j.lc)
          let d := if j.sets.contains 1 ∨ j.sets.contains 2 then d.setB R.SF_STAT.pend true else d
          ((d.setB R.NV_EVT.commit true).showLc.restage).answerJob j 0
        else d.answerJob j 9
    | none => d)

end Sys2Proof.Machine
end

