-- ==== Sys2Proof/Machine/RegWrite.lean ====
section
/-! DEFINITION. A write to a register: who may write what and when, ranges, what each access code does, and
the registers whose write is a command (R5 to R12, R300, R381, R458, R498, R509, R516, R533, R545, R622 to
R628). -/

namespace Sys2Proof.Machine

/-- Who writes: a bus master, the host in a session, or the image loader (R545, R574, R627). -/
structure Who where
  /-- The bus master. -/
  m : Master := .host
  /-- The session of a host write. -/
  sess : Option Nat := none
  /-- A load record of the image. -/
  image : Bool := false
  deriving DecidableEq, Repr

/-- The region's rejection bit for a register, where its block has one (R8, R149). -/
def rejBit (r : RegAt) : Option Fld :=
  let p := r.row.base / 0x1000
  if p = 1 then some R.TIM_STAT.cfg_rej
  else if p = 2 then some (if r.row.base < 0x2800 then R.ML_EVT.cfg_rej r.i else R.ML_NET_STAT.cfg_rej)
  else if 0x10 ≤ p ∧ p < 0x14 then some R.ML_NET_STAT.cfg_rej
  else if 0x20 ≤ p ∧ p < 0x28 then some (R.AX_EVT.cfg_rej r.i)
  else if 0x28 ≤ p ∧ p < 0x30 then some (R.AX_CMP_EVT.cfg_rej r.i)
  else if 0x30 ≤ p ∧ p < 0x38 then some (R.PL_EVT.cfg_rej r.i)
  else if 0x40 ≤ p ∧ p < 0x48 then some R.EZ_EVT.cfg_rej
  else if 0x48 ≤ p ∧ p < 0x50 then some R.BR_EVT.cfg_rej
  else if 0x50 ≤ p ∧ p < 0x60 then some R.AT_EVT.cfg_rej
  else if 0x60 ≤ p ∧ p < 0x70 then some R.SF_EVT.cfg_rej
  else if 0x70 ≤ p ∧ p < 0x80 then some R.TW_EVT.cfg_rej
  else if p = 0x80 then some R.VN_EVT.cfg_rej
  else if 0x90 ≤ p ∧ p < 0xA0 then some R.ECC_EVT.cfg_rej
  else if p = 0xA0 then some R.HP_EVT.cfg_rej
  else if p = 0xA1 then some R.SEC_EVT.cfg_rej
  else none

/-- A write that has no effect and sets its block's rejection bit, where there is one (R8). -/
def Dev.rejectReg (d : Dev) (r : RegAt) : Dev × WrRes :=
  match rejBit r with
  | some f => d.rejectAt f
  | none => (d, .rejected 0)

/-- The registers that accept writes only in Load and Service (R31, R112, R149, R216, R259, R260, R300, R381,
R422, R498, R509, the HP_ registers). -/
def serviceOnly : RegName → Bool
  | .TIM_TICK | .ML_CFG | .ML_NET_CFG | .ST_CFG | .EZ_ENG_CFG | .EZ_TMR_OFS | .EZ_TMR_PER | .EZ_THR | .EZ_CNT
  | .BR_CFG | .BR_PM_DATA | .AX_CFG | .PL_CFG | .PL_IO | .PL_MDL | .PL_MDL2 | .PL_POL | .AT_CFG | .AT_RCP_CFG
  | .AT_TASK_CFG | .AT_EDGE_CFG | .TW_CFG | .TW_TIME | .VN_CFG | .HP_CFG | .HP_ADDR | .HP_MAC_LO | .HP_MAC_HI
  | .HP_PORT | .HP_PEER | .ECC_RET => true
  | _ => false

/-- The registers of an axis that accept writes in Load and Service, and otherwise only in Off (R300, R332). -/
def offOnly : RegName → Bool
  | .AX_MOT_R | .AX_MOT_L | .AX_BASE | .AX_ENC_CPR | .AX_ENC_OFS | .AX_SL | .AX_HFI | .AX_OBS | .AX_FB_CFG
  | .AX_FB_POFS | .AX_STP_CFG => true
  | _ => false

/-- The mode and the privilege that a register's own rule asks for are met. -/
def Dev.modeAccepts (d : Dev) (w : Who) (r : RegAt) : Bool :=
  match r.row.name with
  | .SEC_ACT | .SEC_AUTH => d.rmode == mService && w.sess.any (fun k => d.privOf k == 3)
  | .AX_CMP_SPAN | .AX_CMP_CFG2 => ! d.flag (R.AX_CMP_CFG.arm r.i)
  | .BR_PM_DATA => true
  | n =>
    if serviceOnly n then d.loadOrService
    else if offOnly n then d.loadOrService || d.astate r.i == aOff
    else true

/-- The values that a register would hold after the write lie in the ranges that its fields' descriptions
state (R8). -/
def Dev.inRange (d : Dev) (r : RegAt) (v : Word) : Bool :=
  let i := r.i
  match r.row.name with
  | .TIM_EXT => within 20 10000 (R.TIM_EXT.win_ns.get v)
  | .TIM_SLEW => within 1 100 (R.TIM_SLEW.slew_ppm.get v)
  | .ML_GUARD => within 40 2000 ((R.ML_GUARD.guard_ns i).get v)
  | .ML_BAB_CFG => within 1 255 ((R.ML_BAB_CFG.line_lim i).get v) && within 1 255 ((R.ML_BAB_CFG.line_win i).get v)
  | .ST_CFG => within 0 32 ((R.ST_CFG.pos i).get v) && within 0 4 ((R.ST_CFG.ptype i).get v)
  | .ST_SYNC_CFG => within 1 2000 ((R.ST_SYNC_CFG.sync_tol_ns i).get v)
  | .EZ_ENG_CFG => decide (4 ≤ i) || within 1 32 ((R.EZ_ENG_CFG.q_depth i).get v)
  | .EZ_TMR_PER =>
    decide (1 ≤ (R.EZ_TMR_PER.period i).get v) && decide ((R.EZ_TMR_PER.phase i).get v < (R.EZ_TMR_PER.period i).get v)
  | .EZ_TMR_OFS => decide ((R.EZ_TMR_OFS.ofs_ns i).get v < d.fld R.TIM_TICK.tick_ns)
  | .AX_CFG => (R.AX_CFG.kind i).get v != 3
  | .AX_SL => decide ((R.AX_SL.band i).get v < (R.AX_SL.x_spd i).get v)
  | .AX_PLAUS => decide (1 ≤ (R.AX_PLAUS.n i).get v)
  | .AX_CATCH => within 0 7 ((R.AX_CATCH.max i).get v)
  | .AX_AGE_LIM => within 1 254 ((R.AX_AGE_LIM.age_lim i).get v)
  | .AX_REACT => within 0 2 ((R.AX_REACT.grp_flt i).get v) && within 0 2 ((R.AX_REACT.grp_lost i).get v)
  | .AX_PRF_CFG => decide (1 ≤ (R.AX_PRF_CFG.late_lim i).get v)
  | .AX_STP_CFG =>
    decide (1 ≤ (R.AX_STP_CFG.ecyc i).get v) && within 0 8 ((R.AX_STP_CFG.ustep_log2 i).get v) &&
      (R.AX_STP_CFG.stall_act i).get v != 3
  | .AX_STP_CHOP => decide (1 ≤ (R.AX_STP_CHOP.toff i).get v)
  | .AX_STP_STALL => decide (1 ≤ (R.AX_STP_STALL.n_stall i).get v)
  | .AX_CMP_CFG2 => within 1 4 ((R.AX_CMP_CFG2.to_n i).get v)
  | .PL_AGE_LIM => within 1 254 ((R.PL_AGE_LIM.age_lim i).get v)
  | .PL_MDL2 => decide (1 ≤ (R.PL_MDL2.n i).get v)
  | .PL_POL => within 0 1 ((R.PL_POL.mdl_act i).get v)
  | .AT_CFG => within 2 32 (R.AT_CFG.horizon.get v)
  | .AT_TASK_CFG => within 128 1023 ((R.AT_TASK_CFG.thr i r.j).get v)
  | .TW_CFG => decide (1 ≤ R.TW_CFG.miss_lim.get v)
  | .VN_CFG =>
    within 8 128 (R.VN_CFG.dgram.get v) && within 2 16 (R.VN_CFG.size.get v) &&
      decide (d.fld R.VN_WM.hwm ≤ (R.VN_CFG.size.get v - 1) * 16) &&
      (d.flag R.HP_CFG.jumbo || decide (R.VN_CFG.dgram.get v ≤ 22))
  | .VN_WM =>
    decide (R.VN_WM.lwm.get v < R.VN_WM.hwm.get v) && decide (R.VN_WM.hwm.get v ≤ (d.fld R.VN_CFG.size - 1) * 16)
  | .VN_DEC => decide (1 ≤ R.VN_DEC.step_ticks.get v)
  | .HP_CFG => within 1 3600 (R.HP_CFG.idle_s.get v)
  | .SEC_ACT => (List.range 5).all (fun c => actionOf v c != 3)
  | .SEC_AUTH => decide (1 ≤ R.SEC_AUTH.lim.get v)
  | .SF_IN_CFG => within 10 1000 (R.SF_IN_CFG.disc_ms.get v) && within 1 20 (R.SF_IN_CFG.filt.get v)
  | .SF_OUT_CFG => within 1 60 (R.SF_OUT_CFG.tp_s.get v) && within 50 500 (R.SF_OUT_CFG.tp_us.get v)
  | .SF_OUT_RB => within 10 1000 (R.SF_OUT_RB.rb_us.get v)
  | .SF_RST_CFG => within 0 2 (R.SF_RST_CFG.src.get v)
  | .SF_ZONE_CFG => within 1 64 ((R.SF_ZONE_CFG.win i).get v) && within 0 1 ((R.SF_ZONE_CFG.rst_src i).get v)
  | .SF_ZONE_SS1B =>
    decide (1 ≤ (R.SF_ZONE_SS1B.v_zero i).get v) && decide (1 ≤ (R.SF_ZONE_SS1B.t_zero i).get v) &&
      decide (1 ≤ (R.SF_ZONE_SS1B.t_max i).get v)
  | .SF_CONN_CFG => within 0 2 ((R.SF_CONN_CFG.kind i).get v) && within 2 255 ((R.SF_CONN_CFG.wd i).get v)
  | .SF_CONN_SEED => v != 0
  | .SF_AX_CPR => decide (v.toNat ≤ 2 ^ 31)
  | _ => true

/-- The worse of two outcomes of one write. -/
def WrRes.and (a b : WrRes) : WrRes :=
  match a with
  | .ok _ => b
  | _ => a

/-- One more action of a control word, where its bit is 1. -/
def thenDo (p : Dev × WrRes) (c : Bool) (g : Dev → Dev × WrRes) : Dev × WrRes :=
  if c then
    let q := g p.1
    (q.1, p.2.and q.2)
  else p

/-- An action that always takes effect. -/
def always (g : Dev → Dev) (d : Dev) : Dev × WrRes := (g d, .ok 0)

/-- The accepted value stands in the register. -/
def Dev.accept (d : Dev) (a : Nat) (v : Word) : Dev × WrRes := (d.wr a v, .ok 0)

/-- A record of a write to the stream's registers: address, old and new value (R503). -/
def Dev.noteWrite (d : Dev) (a : Nat) (v : Word) : Dev × WrRes :=
  ((d.wr a v).note 5 7 0 [word a, d.rd a, v], .ok 0)

/-- A kernel command (R207, R210): only from the engine that owns the port. -/
def Dev.kernelWr (d : Dev) (w : Who) (k : Nat) (v : Word) : Dev × WrRes :=
  let idx := bits v 11 0
  if w.m.port? ≠ some k ∨ w.sess.isSome ∨ w.image then d.rejectAt R.EZ_EVT.cfg_rej
  else
    match bits v 31 28 with
    | 1 => (d.take k 0, .ok 0)
    | 2 => (d.kWait k 0, .ok 0)
    | 3 => (d.kDone k 0, .ok 0)
    | 4 => (d.signalCnt idx 1 0, .ok 0)
    | 5 => (d.kYield k 0, .ok 0)
    | 6 => (d.kStart (idx % 1024) 0, .ok 0)
    | _ => d.rejectAt R.EZ_EVT.cfg_rej

/-- The timing registers are judged together by R20, R21 and R215 from the first value in force on; the
image's values are judged by the checks of Load (R576). -/
def Dev.timedStore (d : Dev) (w : Who) (d2 : Dev) (rej : Fld) : Dev × WrRes :=
  if w.image then (d2, .ok 0) else d.timedWrite d2 rej

/-- A write to AX_CTRL: cnt_clr, reset, and disable before enable (R296). -/
def Dev.axCtrlWr (d : Dev) (a : Nat) (v : Word) : Dev × WrRes :=
  let p := thenDo (d, .ok 0) (bit v 3) (fun d => d.axCntClr a)
  let p := thenDo p (bit v 2) (fun d => d.axReset a)
  let p := thenDo p (bit v 1) (fun d => d.axDisable a)
  thenDo p (bit v 0 && ! bit v 1) (fun d => d.axEnable a)

/-- A write to AT_RCP_CTRL: the controls in ascending bit. -/
def Dev.rcpCtrlWr (d : Dev) (r : Nat) (v : Word) : Dev × WrRes :=
  let p := thenDo (d, .ok 0) (bit v 0) (fun d => d.rcpStart r (bits v 27 16))
  let p := thenDo p (bit v 1) (fun d => d.rcpHoldCtl r)
  let p := thenDo p (bit v 2) (fun d => d.rcpResume r)
  let p := thenDo p (bit v 3) (fun d => d.rcpAbortCtl r)
  let p := thenDo p (bit v 4) (fun d => d.rcpReset r)
  thenDo p (bit v 5) (fun d => d.rcpResumeJnl r)

/-- A write to PL_CTRL: the controls in ascending bit (R372). -/
def Dev.plCtrlWr (d : Dev) (i : Nat) (v : Word) : Dev × WrRes :=
  let p := thenDo (d, .ok 0) (bit v 0) (fun d => d.plCtl i .auto)
  let p := thenDo p (bit v 1) (fun d => d.plCtl i .manual)
  let p := thenDo p (bit v 2) (fun d => d.plCtl i .resume)
  thenDo p (bit v 3) (fun d => d.plCtl i .reset)

/-- A write to SEC_CTRL, only from a session of the host (SEC_CTRL). -/
def Dev.secCtrlWr (d : Dev) (w : Who) (v : Word) : Dev × WrRes :=
  match w.sess with
  | some k =>
    let p := thenDo (d, .ok 0) (bit v 0) (fun d => d.secTampClr k)
    thenDo p (bit v 1) (fun d => d.secErase k)
  | none => d.rejectAt R.SEC_EVT.cfg_rej

/-- A write to ML_SCHED_CTRL: lead and tgt are stored; abort, then req (R138, R141). -/
def Dev.schedWr (d : Dev) (nv v : Word) : Dev × WrRes :=
  let d := d.wr R.ML_SCHED_CTRL.adr (nv &&& 0x0000FF0F#32)
  let p := thenDo (d, .ok 0) (bit v 30) (always Dev.schedAbort)
  thenDo p (bit v 31) (fun d => d.schedReq (bits nv 15 8) (bits nv 3 0))

/-- A write to a register whose WO fields trigger actions: `v` holds the written bits. -/
def Dev.controlWr (d : Dev) (w : Who) (r : RegAt) (v : Word) : Dev × WrRes :=
  let i := r.i
  match r.row.name with
  | .DEV_CTRL => thenDo (d, .ok 0) (bit v 0) (always (fun d => d.wr R.DEV_CNT.adr 0))
  | .ML_CTRL =>
    thenDo (thenDo (d, .ok 0) (bit v 0) (always (fun d => d.mlCntClr i))) (bit v 1) (fun d => d.rxReopen i)
  | .ST_CTRL =>
    let p := thenDo (d, .ok 0) (bit v 0) (always (fun d => d.stCntClr i))
    let p := thenDo p (bit v 1) (always (fun d => d.stReint i))
    thenDo p (bit v 2) (always (fun d => d.stWinEn i))
  | .EZ_CTRL => thenDo (thenDo (d, .ok 0) (bit v 0) (always Dev.maxClr)) (bit v 1) (always Dev.histClr)
  | .EZ_SIG => d.ezSig w.m (bits v 11 0) 0
  | .EZ_K_CMD => d.kernelWr w i v
  | .BR_CTRL => thenDo (d, .ok 0) (bit v 0) (always Dev.brCntClr)
  | .AX_CTRL => d.axCtrlWr i v
  | .AX_PRF_CMD =>
    let p := d.prfWrite i (bits v 3 0)
    (p.1, .ok p.2)
  | .AX_CMP_CTRL =>
    thenDo (thenDo (d, .ok 0) (bit v 0) (fun d => d.cmpRewind i)) (bit v 1)
      (always (fun d => d.wr (R.AX_CMP_CNT.adr i) 0))
  | .PL_CTRL => d.plCtrlWr i v
  | .PL_GRP_CTRL => thenDo (d, .ok 0) (bit v 0) (always (fun d => d.plGrpCntClr i))
  | .AT_RCP_CTRL => d.rcpCtrlWr i v
  | .SF_DEM => d.sfDemWr v
  | .SF_CTRL => thenDo (d, .ok 0) (bit v 0) (always Dev.sfCntClr)
  | .TW_CTRL =>
    let p := thenDo (d, .ok 0) (bit v 2) (always Dev.twCntClr)
    let p := thenDo p (bit v 1) (always Dev.twResyncWr)
    thenDo p (bit v 0) Dev.twSwitchWr
  | .VN_CTRL => thenDo (d, .ok 0) (bit v 0) (always Dev.vnCntClr)
  | .SK_CTRL => d.skCtrl i v
  | .ECC_CTRL => thenDo (d, .ok 0) (bit v 0) (always Dev.eccCntClr)
  | .SEC_CTRL => d.secCtrlWr w v
  | _ => (d, .ok 0)

/-- A write that the register's mode and range accept takes its value; the registers whose write does more do
it here. `nv` is the word with the written RW and RWS bits taken over. -/
def Dev.valueWr (d : Dev) (w : Who) (r : RegAt) (a : Nat) (nv : Word) : Dev × WrRes :=
  let i := r.i
  match r.row.name with
  | .TIM_CFG => d.timCfgWr nv
  | .TIM_TICK => if w.image ∧ within 15625 250000 (bits nv 17 0) then d.accept a nv else d.timTickWr nv
  | .TIM_TX_OFS => d.timedStore w (d.wr a nv) R.TIM_STAT.cfg_rej
  | .TIM_EPOCH_LO => d.epochLo w.m nv
  | .TIM_EPOCH_HI => d.epochHi w.m nv
  | .EZ_DEADLINE | .EZ_RELEASE => d.timedStore w (d.wr a nv) R.EZ_EVT.cfg_rej
  | .ML_APPLY_OFS =>
    let d2 := d.wr a nv
    d.timedStore w (if w.image then d2.updLine i (fun z => { z with applyOfs := nv.toNat })
      else d2.updLine i (fun z => { z with applyPend := z.applyPend ++ [(d.tick + 2, nv.toNat)] })) (R.ML_EVT.cfg_rej i)
  | .ML_GUARD => d.timedStore w (d.wr a nv) (R.ML_EVT.cfg_rej i)
  | .ML_CFG | .ML_NET_CFG => restartDue (d.accept a nv) true
  | .EZ_ENG_CFG => if 4 ≤ i then (d, .ok 0) else d.accept a nv
  | .BR_PM_DATA => d.pmWrite nv
  | .AX_REF => d.axRefWr i nv
  | .AX_EMU_CFG => d.emuCfgWr i nv
  | .AX_EMU_RES => d.emuResWr i nv
  | .AX_FB_POFS => d.fbPofsWr i nv
  | .AX_CMP_CFG => d.cmpCfgWr i nv
  | .PL_CFG => d.plCfgWr i nv
  | .PL_LIM => d.plCoefWr i 7 nv
  | .PL_KP => d.plCoefWr i 8 nv
  | .PL_KI => d.plCoefWr i 9 nv
  | .PL_KD => d.plCoefWr i 10 nv
  | .VN_WM | .VN_DEC | .VN_CLS => d.noteWrite a nv
  | .ECC_INJ_ADDR => d.eccInjAddrWr nv
  | .ECC_INJ_CTRL => d.eccInjCtrlWr nv
  | .ECC_RET => d.eccRetWr i nv
  | _ => d.accept a nv

/-- A write to a listed register, only the bits of the mask being written (R5, R8, R549). -/
def Dev.regWr (d : Dev) (w : Who) (r : RegAt) (a : Nat) (v mask : Word) : Dev × WrRes :=
  let row := r.row
  let old := d.rd a
  let rw := word (row.maskOf .RW + row.maskOf .RWS)
  let nv := merge old v (mask &&& rw)
  if row.has .RWL then
    if w.image then (d, .rejected 0)
    else if d.inRange r (merge (d.staged a) v (mask &&& word (row.maskOf .RWL))) then d.stageWr w.sess a v mask
    else d.rejectReg r
  else if row.name = .ML_SCHED_CTRL then wroteBy (d.schedWr nv (v &&& mask)) a
  else if row.has .RW || row.has .RWS then
    if d.modeAccepts w r && d.inRange r nv then wroteBy (d.valueWr w r a nv) a
    else d.rejectReg r
  else if row.has .WO then d.controlWr w r (v &&& mask &&& word (row.maskOf .WO))
  else if row.has .W1C then d.accept a (old &&& ~~~ (v &&& mask &&& word (row.maskOf .W1C)))
  else (d, .ok 0)

/-! ## The memory windows (R622, R625, R626) -/

/-- The byte of SRAM behind an address of a memory window: its memory code (R622). -/
def windowCode (a : Nat) : Option Nat :=
  if 0x10000000 ≤ a ∧ a < 0x10600000 then some (memCode 0 (a - 0x10000000))
  else if 0x20000000 ≤ a ∧ a < 0x20100000 then some (memCode 1 (a - 0x20000000))
  else if 0x30000000 ≤ a ∧ a < 0x30100000 then some (memCode 12 (a - 0x30000000))
  else if 0x30100000 ≤ a ∧ a < 0x30200000 then some (memCode 13 (a - 0x30100000))
  else if 0x30200000 ≤ a ∧ a < 0x30240000 then some (memCode 14 (a - 0x30200000))
  else none

/-- A Canvas address lies in the pool of a base register, of a size. -/
def Dev.inPool (d : Dev) (base : Nat) (size a : Nat) : Option Nat :=
  let b := (d.rd base).toNat
  if 0x10000000 ≤ b ∧ b ≤ a ∧ a < b + size then some (a - b) else none

/-- Record i of the pool belongs to recipe r: its header, its steps, their actions and terms (R384, R385). -/
def Dev.rcpOwns (d : Dev) (r i : Nat) : Bool :=
  let h := d.fld (R.AT_RCP_CFG.hdr r)
  let last := d.fld (R.AT_RCP_CFG.last r)
  within h (h + 2 + last) i || (List.range (last + 1)).any (fun k =>
    let x := d.stepRec r k
    (decide (x.act ≤ i) && decide (i < x.act + x.nact)) ||
      (! x.block && decide (x.cond ≤ i) && decide (i < x.cond + x.ng + x.ne)))

/-- A pool record may be written: no recipe that is being read holds it (R390). -/
def Dev.recFree (d : Dev) (i : Nat) : Bool :=
  (List.range 64).all (fun r =>
    d.rstate r == sIdle || d.rstate r == sDone || d.rstate r == sAborted || ! d.rcpOwns r i)

/-- A compare entry may be written: no armed list has it at or before its next entry (R348). -/
def Dev.entryFree (d : Dev) (i : Nat) : Bool :=
  (List.range 16).all (fun l =>
    let s := cmpSpan (d.rd (R.AX_CMP_SPAN.adr l))
    ! d.flag (R.AX_CMP_CFG.arm l) || ! within s.1 s.2 i || decide (d.fld (R.AX_CMP_STAT.next l) < i - s.1))

/-- A write into a window is accepted (R348, R390, R625). -/
def Dev.windowMay (d : Dev) (w : Who) (a : Nat) : Bool :=
  let host := w.sess.any (fun k => 2 ≤ d.privOf k) && d.rmode == mService
  let image := w.image
  match d.inPool R.AT_POOL.adr 0x200000 a, d.inPool R.AX_CMP_POOL.adr 0x80000 a with
  | some o, _ => d.recFree (o / 16)
  | none, some o => d.entryFree (o / 8)
  | none, none =>
    if a < 0x30000000 then image || host
    else if a < 0x30200000 then image || (host && decide (0x40000 ≤ a % 0x100000))
    else image

/-- A write of one word into a window. A host write to the Canvas or the Palette is written at the deadline of
its tick (R626). -/
def Dev.windowWr (d : Dev) (w : Who) (a code : Nat) (v mask : Word) : Dev × WrRes :=
  if ! d.windowMay w a then (d, .rejected 0)
  else
    let put := (List.range 4).filter (fun b => bits mask (8 * b + 7) (8 * b) ≠ 0)
    let nv := merge (d.peekW code) v mask
    if w.sess.isSome ∧ d.time.numbered ∧ memId code ≤ 1 ∧ ! d.easel.closed then
      let ws := put.map (fun b => ({ addr := code + b, bytes := [(wordBytes nv).getD b 0] } : WindowWrite))
      (d.updEasel (fun z => { z with canvasWrites := z.canvasWrites ++ ws }), .ok 0)
    else (put.foldl (fun d b => d.putByte (code + b) ((wordBytes nv).getD b 0)) d, .ok 0)

/-- A write of one word at an address of the map: a listed register, a window, or a bus error (R10, R622 to
R625). DEDUCED, log entry 51. -/
def Dev.busWrite (d : Dev) (w : Who) (a : Nat) (v mask : Word) : Dev × WrRes :=
  if a % 4 ≠ 0 then (d, .busErr)
  else
    match locate a, windowCode a with
    | some r, _ => d.regWr w r a v mask
    | none, some c => d.windowWr w a c v mask
    | none, none => (d, .busErr)

end Sys2Proof.Machine
end

