-- ==== Sys2Proof/Machine/HostRead.lean ====
section
/-! DEFINITION. Reads of the address map by the host: what a read of a register returns and does, the
memory windows, and READ (R10, R40, R519, R547, R622 to R628). -/

namespace Sys2Proof.Machine

/-- What a read comes to. -/
inductive RdRes
  | ok (w : Word)
  | busErr
  | memErr
  deriving DecidableEq, Repr

/-- A word, or an uncorrectable error (R523). -/
def RdRes.of : Option Word → RdRes
  | some w => .ok w
  | none => .memErr

/-- The word of a register whose read does nothing. -/
def Dev.plainWord (d : Dev) (r : RegAt) (a : Nat) : Word :=
  match r.row.name with
  | .DEV_SERIAL => Config.serial
  | .ECC_LOG => d.logWord r.i r.j
  | .NV_CLOG => nthW (d.nv.clog.getD r.i []) r.j
  | .HP_SESS => d.sessWord r.i
  | _ => d.rd a

/-- A time within the present tick at which the host reads: the spec gives none. DESIGN CHOICE, log entry 40. -/
def Dev.drawOfs (d : Dev) : Nat × Dev :=
  let (v, d) := d.draw
  (v.toNat % d.time.tickNs, d)

/-- A read of a listed register by the host (R40, R260, R516, R628). -/
def Dev.regRead (d : Dev) (m : Master) (ofs : Nat) (r : RegAt) (a : Nat) : Dev × RdRes :=
  match r.row.name with
  | .TIM_NOW_LO =>
    let p := d.nowLo m ofs
    (p.1, .ok p.2)
  | .TIM_NOW_HI => (d, .ok (d.nowHi m))
  | .VN_OFS_LO => (d.vnLatch m false, .ok (word d.vn.ofs))
  | .VN_OFS_HI => (d, .ok ((masterGet d.vn.ofsHi m).getD 0))
  | .VN_ACK_LO => (d.vnLatch m true, .ok (word d.vn.ack))
  | .VN_ACK_HI => (d, .ok ((masterGet d.vn.ackHi m).getD 0))
  | .BR_PM_DATA =>
    let p := d.pmRead m
    (p.1, .of p.2)
  | .SK_RD_DATA =>
    let p := d.skRead
    (p.1, .of p.2)
  | _ => (d, .ok (d.plainWord r a))

/-- The host may read a window: the Canvas and the Palette in any mode, the Atelier memories in Service with
privilege 2, the supervisor's memory never (R625). -/
def Dev.windowReads (d : Dev) (k a : Nat) : Bool :=
  decide (a < 0x30000000) || (decide (a < 0x30200000) && d.rmode == mService && decide (2 ≤ d.privOf k))

/-- A read of one word by a session (R547, R622 to R625). -/
def Dev.busRead (d : Dev) (k ofs a : Nat) : Dev × RdRes :=
  match locate a, windowCode a with
  | some r, _ => d.regRead .host ofs r a
  | none, some c =>
    if d.windowReads k a then
      let p := d.readBytes reqShp c 4
      (p.1, .of (p.2.map (fun b => word (bytesNat b))))
    else (d, .busErr)
  | none, none => (d, .busErr)

/-- The words of a READ in range order. -/
def Dev.readAll (d : Dev) (k ofs : Nat) (l : List Nat) : Dev × List RdRes :=
  l.foldl (fun (p : Dev × List RdRes) (a : Nat) =>
    let q := p.1.busRead k ofs a
    (q.1, p.2 ++ [q.2])) (d, [])

/-- The word addresses of the ranges. -/
def rangeAddrs (l : List (Word × Nat)) : List Nat :=
  l.flatMap (fun r => (List.range r.2).map (fun i => r.1.toNat + 4 * i))

/-- The ranges have the form that R547 gives. -/
def rangesFit (l : List (Word × Nat)) : Bool :=
  within 1 16 l.length && l.all (fun r => bits r.1 1 0 == 0 && decide (1 ≤ r.2)) &&
    decide ((l.map (·.2)).sum ≤ 256)

/-- A kind-2 session reads SEC_ and NV_ alone (R565). -/
def bootReads (a : Nat) : Bool := decide (0xA1000 ≤ a) && decide (a < 0xC0000)

/-- What READ answers (R547). -/
def readResponse (tick : Nat) (rs : List RdRes) : Response :=
  if rs.any (fun r => r == .busErr) then { type := 0x90, result := 10 }
  else if rs.any (fun r => r == .memErr) then { type := 0x90, result := 6 }
  else
    { type := 0x90, result := 0
      words := [word tick, word (tick / 2 ^ 32)] ++ rs.map (fun (r : RdRes) => match r with
        | .ok w => w
        | _ => 0) }

/-- READ: every word at one instant (R547). DEDUCED, log entry 50. -/
def Dev.readMsg (d : Dev) (k : Nat) (req : Word) (l : List (Word × Nat)) : Dev :=
  if ! rangesFit l then d.respond k req { type := 0x90, result := 1 }
  else if d.kindOf k = 2 ∧ ! (rangeAddrs l).all bootReads then d.respond k req { type := 0x90, result := 2 }
  else
    let (ofs, d) := if (rangeAddrs l).contains R.TIM_NOW_LO.adr then d.drawOfs else (0, d)
    let p := d.readAll k ofs (rangeAddrs l)
    p.1.respond k req (readResponse p.1.tick p.2)

/-- READ (R547). DEDUCED, log entry 50. -/
def execRead (k : Fin 4) (req : Word) (ranges : List (Word × Nat)) (s : State) :
    Host.Outcome State Fault Refusal :=
  s.onDev (fun d => (d.touch k).once k req (fun d => d.readMsg k req ranges))

/-- The word that a guard compares, and that a WRITE shows after an entry: the register's value, without the
step that a read of BR_PM_DATA or SK_RD_DATA makes (R549, R550). -/
def Dev.lookAt (d : Dev) (k a : Nat) : Dev × Option Word :=
  match locate a, windowCode a with
  | some r, _ =>
    match r.row.name with
    | .BR_PM_DATA => (d, some (match d.pmEngines with
        | e :: _ => d.peekW (memCode (8 + e) (4 * d.fld R.BR_PM_ADDR.addr))
        | [] => 0))
    | .SK_RD_DATA => (d, some (d.peekW (memCode 3 (4 * d.fld R.SK_RD_ADDR.val))))
    | .TIM_NOW_LO =>
      let (ofs, d) := d.drawOfs
      let p := d.nowLo .host ofs
      (p.1, some p.2)
    | _ =>
      match d.regRead .host 0 r a with
      | (d, .ok w) => (d, some w)
      | (d, _) => (d, none)
  | none, some _ =>
    match d.busRead k 0 a with
    | (d, .ok w) => (d, some w)
    | (d, _) => (d, none)
  | none, none => (d, none)

end Sys2Proof.Machine
end

