-- ==== Sys2Proof/Machine/LoadChk.lean ====
section
/-! DEFINITION. The checks on the values in force that Load, SVC_EXIT and RESTART run (R576, R587,
R588), each with the index that DEV_CHK shows where it fails. Check 1 belongs to the placing of the
image. -/

namespace Sys2Proof.Machine

/-- Two elements of a list that stand in a relation: the later one, where such a pair exists. -/
def clash (rel : Nat → Nat → Bool) : List Nat → Option Nat
  | [] => none
  | a :: t => (t.find? (rel a)).orElse (fun _ => clash rel t)

/-- The configurations that the image holds for a station in the modes that list it. -/
def Dev.cfgsOf (d : Dev) (s : Nat) : List StCfg :=
  d.net.stCfgs.filter (fun c => c.addr = s && (d.stLayout? c.mode s).isSome)

/-- A block of 16-bit channels or of points covers an index: `per` of them stand in a word (R156, R157). -/
def StCfg.covers (c : StCfg) (code per p : Nat) : Bool :=
  c.has code && decide (c.blkFirst code ≤ p) && decide (p < c.blkFirst code + per * c.blkWords code)

/-- Check 3: the worst tick's cycles exceed the capacity from the first feedback on (R23). -/
def Dev.cyclesFail (d : Dev) : Option Nat :=
  (d.net.modes.find? (fun m =>
    decide (4 * (d.fld R.EZ_DEADLINE.deadline_ns - m.firstFb) < m.cycles))).map (·.idx)

/-- The most axes that a tick period admits (R30, R263). -/
def axisLimit (tick : Nat) : Nat :=
  if tick < 18000 then 64 else if tick < 21000 then 80 else if tick < 24000 then 96
  else if tick < 28000 then 112 else if tick < 31250 then 120 else 128

/-- Check 4: more axes than the tick admits (R30, R263). -/
def Dev.axisCountFail (d : Dev) : Option Nat :=
  if axisLimit (d.fld R.TIM_TICK.tick_ns) < d.axesUsed.length then some 0 else none

/-- A station that a mode lists has no context in use, or one that disagrees (R136). -/
def Dev.contextFail (d : Dev) (l : Nat) (z : StLayout) : Bool :=
  d.fld (R.ST_CFG.pos z.addr) == 0 || d.fld (R.ST_CFG.line z.addr) != l ||
    d.fld (R.ST_CFG.ptype z.addr) != z.ptype

/-- Half the PWM period of a servo cell's configuration exceeds 65,535 ns (R173). -/
def Dev.pwmFail (d : Dev) (c : StCfg) : Bool :=
  c.f 0 2 0 == 1 &&
    decide (2 * 65535 < (if c.f 1 0 0 = 1 then d.fld R.TIM_TICK.tick_ns / 2 else d.fld R.TIM_TICK.tick_ns))

/-- Check 5: the contents of the schedule modes, the frame and the free part, the PWM period (R101, R136,
R173). -/
def Dev.scheduleFail (d : Dev) : Option Nat :=
  ((d.net.modes.find? (fun m =>
    m.lines.any (fun x => ! x.gapsOk || x.stations.any (d.contextFail x.line)) ||
      d.net.stCfgs.any (fun c => c.mode = m.idx && d.pwmFail c))).map (·.idx)).orElse (fun _ => d.pitchFail)

/-- A signal source or a counter that belongs to Strelrath firmware (R192, R206). -/
def firmwareSource (s : Nat) : Bool := within 0x500 0x57F s || within 0x938 0x93F s

/-- A schedule mode exceeds the link limits or names a reserved resource (R193, R206). -/
def linksFail (m : SchedMode) : Bool :=
  m.lists.any (fun x => decide (64 < x.cnts.length) || firmwareSource x.src || x.cnts.any (fun c => decide (3968 ≤ c))) ||
    decide (8192 < (m.lists.map (fun x => x.cnts.length)).sum) ||
    m.jobs.any (fun j => decide (3968 ≤ j.cnt))

/-- The RW and RWS bits of a register differ from its Reset value. -/
def Dev.named (d : Dev) (a : Nat) : Bool :=
  (d.rd a ^^^ resetWord a) &&& (accMask a .RW ||| accMask a .RWS) != 0

/-- Check 6: link lists, and the threads, counters and timers of Strelrath firmware (R193, R206). -/
def Dev.easelFail (d : Dev) : Option Nat :=
  ((d.net.modes.find? linksFail).map (·.idx)).orElse (fun _ =>
    ((List.range 1024).find? (fun t =>
      if t < 128 then d.named (R.EZ_THR.adr t) else decide (3968 ≤ d.fld (R.EZ_THR.cnt t)))).orElse (fun _ =>
    (List.range 64).find? (fun t =>
      decide (56 ≤ t) && (d.named (R.EZ_TMR_OFS.adr t) || d.named (R.EZ_TMR_PER.adr t)))))

/-- The axes that the image places on a station. -/
def Dev.placed (d : Dev) (s : Nat) : List Nat := d.axesUsed.filter (fun a => d.fld (R.AX_CFG.stn a) = s)

/-- What the servo and stepper checks share: the station, its type, the slot, the speed base, and an encoder
without counts (R262, R320). A station's number of axes is the number that the image places on it, which
its identity must equal (R190). -/
def Dev.axisFail (d : Dev) (a : Nat) : Bool :=
  let s := d.fld (R.AX_CFG.stn a)
  s == 0 || d.fld (R.ST_CFG.ptype s) != d.akind a ||
    decide ((d.placed s).length ≤ d.fld (R.AX_CFG.slot a)) ||
    (d.placed s).any (fun b => b != a && d.fld (R.AX_CFG.slot b) == d.fld (R.AX_CFG.slot a)) ||
    d.fld (R.AX_BASE.n_base a) == 0 ||
    (d.rd (R.AX_ENC_CPR.adr a) == 0 &&
      (d.cfgsOf s).any (fun c => bit (nthW c.words 2) (8 * d.fld (R.AX_CFG.slot a) + 2)))

/-- A configuration of the axis's station shows the slot without an option. -/
def Dev.optMissing (d : Dev) (a opt : Nat) : Bool :=
  (d.cfgsOf (d.fld (R.AX_CFG.stn a))).any (fun c => ! bit (nthW c.words 2) (8 * d.fld (R.AX_CFG.slot a) + opt))

/-- The faults of a servo axis (R262). -/
def Dev.servoFail (d : Dev) (a : Nat) : Bool :=
  let pri := d.fld (R.AX_CFG.ang_pri a)
  let fb := d.fld (R.AX_CFG.ang_fb a)
  let src := fun (x : Nat) => pri == x || fb == x
  let lq := d.fld (R.AX_MOT_L.lq_uh a)
  let ld := d.fld (R.AX_MOT_L.ld_uh a)
  d.axisFail a || d.fld (R.AX_CFG.pp a) == 0 || d.fld (R.AX_BASE.v_base a) == 0 ||
    pri == 0 || fb == pri || (src 1 && d.optMissing a 2) || (src 2 && d.optMissing a 3) ||
    (src 3 && decide (10 * (max lq ld - min lq ld) < ld))

/-- Check 8 (R262). -/
def Dev.servosFail (d : Dev) : Option Nat :=
  (List.range 128).find? (fun a => d.akind a == 1 && d.servoFail a)

/-- The faults of a stepper axis (R320). -/
def Dev.stepperFail (d : Dev) (a : Nat) : Bool :=
  d.axisFail a || d.fld (R.AX_STP_CFG.ecyc a) == 0 || d.fld (R.AX_REF.src a) == 2 ||
    ! d.mode.tables.any (fun t => t.1 == d.fld (R.AX_STP_CFG.tbl a)) ||
    ((d.flag (R.AX_STP_CFG.la_en a) || d.flag (R.AX_STP_CFG.stall_en a)) && d.optMissing a 2) ||
    decide (8 < d.fld (R.AX_STP_CFG.ustep_log2 a))

/-- A microstep table falls below 0 at its start, or falls (R324). -/
def tableFail (t : List (BitVec 16)) : Bool :=
  decide ((t.getD 0 0).toInt < 0) ||
    (List.range 256).any (fun k => decide ((t.getD (k + 1) 0).toInt < (t.getD k 0).toInt))

/-- Check 9 (R320, R324). -/
def Dev.steppersFail (d : Dev) : Option Nat :=
  ((List.range 128).find? (fun a => d.akind a == 2 && d.stepperFail a)).orElse (fun _ =>
    (d.mode.tables.find? (fun t => tableFail t.2)).map (·.1))

/-- The emulation of an axis shares its output, or its station has no PR block for it in a mode in which the
axis is configured (R346). -/
def Dev.emuFail (d : Dev) (a : Nat) : Bool :=
  let s := d.fld (R.AX_EMU_CFG.stn a)
  let o := d.fld (R.AX_EMU_CFG.out a)
  s != 0 &&
    ((d.axesUsed).any (fun b => b != a && d.fld (R.AX_EMU_CFG.stn b) == s && d.fld (R.AX_EMU_CFG.out b) == o) ||
      (d.cfgsOf (d.fld (R.AX_CFG.stn a))).any (fun c => match d.stCfg? s c.mode with
        | some x => ! x.covers 3 2 o
        | none => true))

/-- Check 10 (R346). -/
def Dev.emusFail (d : Dev) : Option Nat := d.axesUsed.find? d.emuFail

/-- The TO entries that a compare list reserves: first and last (R352). -/
def Dev.toSpan (d : Dev) (l : Nat) : Nat × Nat :=
  (d.fld (R.AX_CMP_CFG2.to_first l), d.fld (R.AX_CMP_CFG2.to_first l) + d.fld (R.AX_CMP_CFG2.to_n l) - 1)

/-- The reserved entries of a list exceed its station's TO block in a mode (R352). -/
def Dev.toFail (d : Dev) (l : Nat) : Bool :=
  let s := d.fld (R.AX_CMP_CFG.stn l)
  s != 0 && (d.cfgsOf s).any (fun c => decide (c.blkWords 4 / 2 ≤ (d.toSpan l).2))

/-- Check 11: two armed lists share pool entries, or two lists of a station share reserved entries (R347,
R352). -/
def Dev.comparesFail (d : Dev) : Option Nat :=
  let all := List.range 16
  ((all.filter (fun l => d.flag (R.AX_CMP_CFG.arm l))).find? d.cmpOverlap).orElse (fun _ =>
    ((all.find? d.toFail)).orElse (fun _ =>
      clash (fun a b => d.fld (R.AX_CMP_CFG.stn a) != 0 && d.fld (R.AX_CMP_CFG.stn a) == d.fld (R.AX_CMP_CFG.stn b) &&
        spansMeet (d.toSpan a) (d.toSpan b)) all))

/-- The destination that a loop writes: a loop on its own, or the leader of its group (R364, R367). -/
def Dev.writesAo (d : Dev) (i : Nat) : Bool :=
  d.flag (R.PL_CFG.en i) && d.flag (R.PL_IO.dst i) &&
    (! d.flag (R.PL_CFG.grp_en i) || (d.members (d.fld (R.PL_CFG.grp i))).head? == some i)

/-- The job table entry that computes a loop has another divisor or phase (R362). -/
def Dev.jobDiffers (d : Dev) (i : Nat) : Bool :=
  d.net.modes.any (fun m => m.jobs.any (fun j =>
    (match j.lib with
      | .loop k => k == i
      | .group g => d.inGroup g i
      | _ => false) &&
    (j.divM1 != d.fld (R.PL_CFG.div_m1 i) || j.phase != d.fld (R.PL_CFG.phase i))))

/-- The faults of an enabled loop (R362, R363, R364, R367). -/
def Dev.loopFail (d : Dev) (i : Nat) : Bool :=
  let g := d.members (d.fld (R.PL_CFG.grp i))
  d.jobDiffers i ||
    (d.cfgsOf (d.fld (R.PL_IO.in_stn i))).any (fun c => ! c.covers 10 2 (d.fld (R.PL_IO.in_ch i))) ||
    (d.writesAo i && (d.cfgsOf (d.fld (R.PL_IO.out_stn i))).any (fun c => ! c.covers 2 2 (d.fld (R.PL_IO.out_ch i)))) ||
    (d.flag (R.PL_CFG.grp_en i) && (decide (4 < g.length) || d.fld (R.PL_KI.kt i) == 0 ||
      g.any (fun k => d.fld (R.PL_CFG.div_m1 k) != d.fld (R.PL_CFG.div_m1 i) ||
        d.fld (R.PL_CFG.phase k) != d.fld (R.PL_CFG.phase i))))

/-- Check 12 (R362 to R364, R367). -/
def Dev.loopsFail (d : Dev) : Option Nat :=
  let on := (List.range 384).filter (fun i => d.flag (R.PL_CFG.en i))
  (on.find? d.loopFail).orElse (fun _ =>
    clash (fun a b => d.fld (R.PL_IO.out_stn a) == d.fld (R.PL_IO.out_stn b) &&
      d.fld (R.PL_IO.out_ch a) == d.fld (R.PL_IO.out_ch b)) (on.filter d.writesAo))

/-- Check 13: tasks of another engine's thread, of one thread, or cyclic ones of one timer (R411). Task k of
AT e has the index 64·e + k. -/
def Dev.tasksFail (d : Dev) : Option Nat :=
  let on := (List.range 128).filter (fun k => d.flag (R.AT_TASK_CFG.en (k / 64) (k % 64)))
  let thr := fun (k : Nat) => d.fld (R.AT_TASK_CFG.thr (k / 64) (k % 64))
  let cyc := fun (k : Nat) => ! d.flag (R.AT_TASK_CFG.event (k / 64) (k % 64))
  (on.find? (fun k => d.fld (R.EZ_THR.home (thr k)) != k / 64)).orElse (fun _ =>
    clash (fun a b => thr a == thr b || (cyc a && cyc b &&
      d.fld (R.AT_TASK_CFG.idx (a / 64) (a % 64)) == d.fld (R.AT_TASK_CFG.idx (b / 64) (b % 64)))) on)

/-- The faults of an enabled safety connection that it has on its own (R450). -/
def Dev.connFail (d : Dev) (c : Nat) : Bool :=
  let s := d.fld (R.SF_CONN_CFG.stn c)
  d.rd (R.SF_CONN_SEED.adr c) == 0 || d.fld (R.SF_CONN_CFG.kind c) == 0 ||
    (d.net.stCfgs.any (fun x => x.addr = s && x.f 1 23 16 != d.fld (R.SF_CONN_CFG.wd c)))

/-- A station with a SAFE block whose command arrives later than 10,000 ns after T(k) (R450). -/
def Dev.lateSafe (d : Dev) : Bool :=
  d.net.modes.any (fun m => m.lines.any (fun x => x.stations.any (fun z =>
    decide (10000 < z.cmdArr) && (d.stCfg? z.addr m.idx).any (fun c => c.has 6 || c.has 13))))

/-- Check 14: the safety parameter set (R441, R450). -/
def Dev.safetyFail (d : Dev) : Option Nat :=
  let on := (List.range 64).filter (fun c => d.flag (R.SF_CONN_CFG.en c))
  if d.fld R.SF_OUT_CFG.tp_us ≤ d.fld R.SF_OUT_RB.rb_us ∨ d.lateSafe ∨
      d.fld R.TIM_TICK.tick_ns < d.fld R.EZ_DEADLINE.deadline_ns + 4000 then some 0
  else
    (on.find? d.connFail).orElse (fun _ =>
      (clash (fun a b => d.rd (R.SF_CONN_SEED.adr a) == d.rd (R.SF_CONN_SEED.adr b) ||
        d.fld (R.SF_CONN_ID.cid a) == d.fld (R.SF_CONN_ID.cid b)) on).orElse (fun _ =>
      (List.range 128).find? (fun a => d.flag (R.SF_AX_CFG.mon a) && d.rd (R.SF_AX_CPR.adr a) == 0)))

/-- Check 15: an enabled line of a single installation without an open end (R461). -/
def Dev.openEndFail (d : Dev) : Option Nat :=
  if d.isTwin then none
  else (List.range 8).find? (fun l => d.flag (R.ML_CFG.en l) && ! d.flag (R.ML_CFG.open_end l))

/-- The checks 2 to 15 of R576 by code. DEDUCED, log entry 57. -/
def loadChecks : List (Nat × (Dev → Option Nat)) := [
  (2, Dev.timingFail), (3, Dev.cyclesFail), (4, Dev.axisCountFail), (5, Dev.scheduleFail), (6, Dev.easelFail),
  (7, Dev.releaseFail), (8, Dev.servosFail), (9, Dev.steppersFail), (10, Dev.emusFail), (11, Dev.comparesFail),
  (12, Dev.loopsFail), (13, Dev.tasksFail), (14, Dev.safetyFail), (15, Dev.openEndFail)]

/-- The failed checks, by code and index. -/
def Dev.failedChecks (d : Dev) : List (Nat × Nat) :=
  loadChecks.filterMap (fun (c : Nat × (Dev → Option Nat)) => (c.2 d).map (fun i => (c.1, i)))

/-- Each failed check writes its code and index to DEV_CHK, in ascending order of the codes (R576). -/
def Dev.showChecks (d : Dev) (l : List (Nat × Nat)) (src : Bool) : Dev :=
  l.foldl (fun (d : Dev) (c : Nat × Nat) => d.chk c.1 c.2 src) d

end Sys2Proof.Machine
end

