-- ==== Sys2Proof/Machine/Reset.lean ====
section
/-! DEFINITION. Entering Reset (R494, R570, R581). -/

namespace Sys2Proof.Machine

/-- The device enters Reset: every field takes its Reset value, every session ends, and what waited for the
MRAM is lost. The MRAM, the balls and the fact that the keys were erased since the last power cycle stay
(R565, R570). DEV_MODE shows where the device came from, and why. DEDUCED, log entry 59. -/
def Dev.toReset (d : Dev) (reason : Nat) : Dev :=
  let e : Dev := {
    nv := d.nv, balls := d.balls, free := d.free, out := d.out, host := { erasedBoot := d.host.erasedBoot } }
  (e.set R.DEV_MODE.prev d.omode).set R.DEV_MODE.reason reason

/-- RESET_ASSERT: RST_N or PGOOD goes low (R570). -/
def execResetAssert (s : State) : Host.Outcome State Fault Refusal :=
  s.onDev (fun d =>
    let d := { d with balls := { d.balls with rstN := false } }
    if d.omode = mReset then d else d.toReset 8)

/-- WITHDRAWAL_IDLE: from T(k+2) a unit withdrawn in tick k sends nothing and is in Reset (R494). -/
def execWithdrawalIdle (s : State) : Host.Outcome State Fault Refusal :=
  s.onDev (fun d =>
    match d.twin.present with
    | some k => if k + 2 ≤ d.tick ∧ d.omode ≠ mReset then d.toReset 8 else d
    | none => d)

end Sys2Proof.Machine
end

