-- ==== Sys2Proof/Machine/ModeCmd.lean ====
section
/-! DEFINITION. The mode commands of the host, and the end of Stop (R582 to R588, R591, R592). -/

namespace Sys2Proof.Machine

/-- What stands against a mode command before its own conditions are looked at; 0: nothing. A command that the
mode found before a transition of the same tick would have allowed is REJECTED (R545, R565, R582, R583, R592).
DEDUCED, log entry 59. -/
def Dev.modeWhy (d : Dev) (k code need : Nat) (in_ : List Nat) : Nat :=
  if d.privOf k < need ∨ d.kindOf k = 2 then 2
  else if d.omode = mShadow ∧ code ≠ 0x19 then 4
  else if in_.contains d.omode then 0
  else if d.time.numbered ∧ d.mode.cause.isSome ∧ in_.contains (d.fld R.DEV_MODE.prev) then 11
  else 3

/-- A mode command: judged, answered, and carried out (R583). `may` holds the command's own conditions; what it
finds wrong it may show. The answer goes out before the lanes fall idle. -/
def Dev.modeCmd (d : Dev) (k : Nat) (req : Word) (code need : Nat) (in_ : List Nat) (may : Dev → Dev × Bool)
    (act : Dev → Dev) : Dev :=
  let why := d.modeWhy k code need in_
  if why ≠ 0 then
    (if why = 2 then d else d.setB R.DEV_EVT.cmd_rej true).cmdDone k req code why
  else
    let p := may d
    if p.2 then act (p.1.cmdDone k req code 0)
    else (p.1.setB R.DEV_EVT.cmd_rej true).cmdDone k req code 3

/-- A command without conditions of its own. -/
def unconditional (d : Dev) : Dev × Bool := (d, true)

/-- The checks of R576 on the values in force, without the overlay fallback (R587, R588). -/
def Dev.checked (d : Dev) : Dev × Bool :=
  let l := d.failedChecks
  if l.isEmpty then (d, true) else ((d.showChecks l false).setB R.DEV_EVT.chk true, false)

/-- A mode command of a session, executed once (R541). -/
def modeRow (k : Nat) (req : Word) (g : Dev → Dev) (s : State) : Host.Outcome State Fault Refusal :=
  s.onDev (fun d => (d.touch k).once k req g)

/-- GO_RUN (R583). -/
def Dev.goRunCmd (d : Dev) (k : Nat) (req : Word) : Dev :=
  d.modeCmd k req 0x10 1 [mReady] unconditional (fun d => d.enterMode mRun 1)

/-- GO_RUN (R583). -/
def execGoRun (k : Fin 4) (req : Word) (s : State) : Host.Outcome State Fault Refusal :=
  modeRow k req (fun d => d.goRunCmd k req) s

/-- GO_HOLD (R583, R586). -/
def Dev.goHoldCmd (d : Dev) (k : Nat) (req : Word) : Dev :=
  d.modeCmd k req 0x11 1 [mRun] unconditional (fun d => d.enterMode mHold 1)

/-- GO_HOLD (R583, R586). -/
def execGoHold (k : Fin 4) (req : Word) (s : State) : Host.Outcome State Fault Refusal :=
  modeRow k req (fun d => d.goHoldCmd k req) s

/-- GO_RESUME (R583, R586). -/
def Dev.goResumeCmd (d : Dev) (k : Nat) (req : Word) : Dev :=
  d.modeCmd k req 0x12 1 [mHold] unconditional (fun d => d.enterMode mRun 1)

/-- GO_RESUME (R583, R586). -/
def execGoResume (k : Fin 4) (req : Word) (s : State) : Host.Outcome State Fault Refusal :=
  modeRow k req (fun d => d.goResumeCmd k req) s

/-- GO_READY: only with every axis idle (R583, R584). -/
def Dev.goReadyCmd (d : Dev) (k : Nat) (req : Word) : Dev :=
  d.modeCmd k req 0x13 1 [mRun, mHold] (fun d => (d, d.axesIdle)) (fun d => d.enterMode mReady 1)

/-- GO_READY (R584). -/
def execGoReady (k : Fin 4) (req : Word) (s : State) : Host.Outcome State Fault Refusal :=
  modeRow k req (fun d => d.goReadyCmd k req) s

/-- GO_STOP (R583, R585). -/
def Dev.goStopCmd (d : Dev) (k : Nat) (req : Word) : Dev :=
  d.modeCmd k req 0x14 1 [mRun, mHold] unconditional (fun d => d.enterMode mStop 1)

/-- GO_STOP (R585). -/
def execGoStop (k : Fin 4) (req : Word) (s : State) : Host.Outcome State Fault Refusal :=
  modeRow k req (fun d => d.goStopCmd k req) s

/-- No recipe is in HOLDING or ABORTING, and no STORE or COMMIT_LC runs (R587). -/
def Dev.serviceFree (d : Dev) : Bool :=
  (List.range 64).all (fun r => d.rstate r != sHolding && d.rstate r != sAborting) && d.store.job.isNone

/-- GO_SERVICE (R583, R587). -/
def Dev.goServiceCmd (d : Dev) (k : Nat) (req : Word) : Dev :=
  d.modeCmd k req 0x15 2 [mReady] (fun d => (d, d.serviceFree)) (fun d => d.enterMode mService 1)

/-- GO_SERVICE (R587). -/
def execGoService (k : Fin 4) (req : Word) (s : State) : Host.Outcome State Fault Refusal :=
  modeRow k req (fun d => d.goServiceCmd k req) s

/-- SVC_EXIT: the checks pass and no write awaits RESTART (R583, R587). -/
def Dev.svcExitCmd (d : Dev) (k : Nat) (req : Word) : Dev :=
  d.modeCmd k req 0x16 1 [mService]
    (fun d => ((d.checked).1, (d.checked).2 && ! d.flag R.DEV_STAT.rst_pend)) (fun d => d.enterMode mReady 1)

/-- SVC_EXIT (R587). -/
def execSvcExit (k : Fin 4) (req : Word) (s : State) : Host.Outcome State Fault Refusal :=
  modeRow k req (fun d => d.svcExitCmd k req) s

/-- What RESTART does: the lines fall silent for 2 ticks, rst_pend clears, and the unit enters Listen with a
fresh listen time; its role is decided anew (R60, R588). DEDUCED, log entry 59. -/
def Dev.restartActs (d : Dev) : Dev :=
  let d := (d.setB R.DEV_STAT.rst_pend false).setB R.TW_STAT.role false
  let d := (d.updMode (fun z => { z with idleLeft := 2 })).updTime (fun z => { z with base := z.clock })
  let d := d.updTwin (fun z => { z with roleKnown := false, roleWait := false, roleAt := none, handover := none })
  (d.enterMode mListen 1).takeLines.enterListen

/-- RESTART (R583, R588). -/
def Dev.restartCmd (d : Dev) (k : Nat) (req : Word) : Dev :=
  d.modeCmd k req 0x17 2 [mService] Dev.checked Dev.restartActs

/-- RESTART (R588). -/
def execRestart (k : Fin 4) (req : Word) (s : State) : Host.Outcome State Fault Refusal :=
  modeRow k req (fun d => d.restartCmd k req) s

/-- ALARM_EXIT may lead out of Alarm (R591). -/
def Dev.alarmOver (d : Dev) : Bool :=
  ! d.host.erasedBoot && ! d.flag R.SEC_STAT.erased && d.balls.tamperN && d.balls.voltOk && d.balls.tempOk &&
    d.balls.clkOk && decide (d.failuresNow.length < d.fld R.SEC_AUTH.lim) && d.axesIdle

/-- ALARM_EXIT (R583, R591, R593). -/
def Dev.alarmExitCmd (d : Dev) (k : Nat) (req : Word) : Dev :=
  d.modeCmd k req 0x18 1 [mAlarm] (fun d => (d, d.alarmOver))
    (fun d => (d.setB R.DEV_STAT.alarm_pend false).backToReady 1)

/-- ALARM_EXIT (R591). -/
def execAlarmExit (k : Fin 4) (req : Word) (s : State) : Host.Outcome State Fault Refusal :=
  modeRow k req (fun d => d.alarmExitCmd k req) s

/-- The modes that accept RESET: every one but Reset, Self-test and Lock-out (R583). -/
def resetModes : List Nat := [mLoad, mListen, mShadow, mReady, mRun, mHold, mStop, mService, mAlarm]

/-- RESET (R577, R583). -/
def Dev.resetCmd (d : Dev) (k : Nat) (req : Word) : Dev :=
  d.modeCmd k req 0x19 1 resetModes unconditional (fun d => d.toReset 1)

/-- RESET (R583). -/
def execReset (k : Fin 4) (req : Word) (s : State) : Host.Outcome State Fault Refusal :=
  modeRow k req (fun d => d.resetCmd k req) s

/-- STOP_COMPLETE: every axis has come to rest and no SS1 monitoring runs (R585). -/
def execStopComplete (s : State) : Host.Outcome State Fault Refusal :=
  s.onDev (fun d =>
    if d.omode = mStop ∧ d.axesIdle ∧ d.saf.mons.isEmpty then d.enterMode mReady 10 else d)

/-- DEV_CNT_CLR (R595). -/
def execDevCntClr (s : State) : Host.Outcome State Fault Refusal :=
  s.onDev (fun d => d.wr R.DEV_CNT.adr 0)

end Sys2Proof.Machine
end

