-- ==== Sys2Proof/Machine/HostWrite.lean ====
section
/-! DEFINITION. WRITE, CMD and the register write of the address map (R477, R545, R549 to R551, R564). -/

namespace Sys2Proof.Machine

/-! ## What stands against a WRITE -/

/-- The address of an entry. -/
def WEntry.adr (e : WEntry) : Nat := (e.addrOp &&& 0xFFFFFFFC#32).toNat

/-- The op of an entry: 0 write, 1 guard. -/
def WEntry.op (e : WEntry) : Nat := bits e.addrOp 1 0

/-- The entries have the form that R549 gives. -/
def entriesFit (l : List WEntry) : Bool := within 1 64 l.length && l.all (fun e => decide (e.op ≤ 1))

/-- An address lies in a pool that is written in any mode (R625). -/
def Dev.poolAddr (d : Dev) (a : Nat) : Bool :=
  (d.inPool R.AT_POOL.adr 0x200000 a).isSome || (d.inPool R.AX_CMP_POOL.adr 0x80000 a).isSome

/-- A write that is accepted only in Load and Service, which needs privilege 2 (R31, R545, R533, R625). -/
def Dev.configures (d : Dev) (e : WEntry) : Bool :=
  let a := e.adr
  match locate a with
  | some r =>
    serviceOnly r.row.name || r.row.name == .ECC_INJ_ADDR || r.row.name == .ECC_INJ_CTRL ||
      (r.row.name == .TIM_CFG &&
        let nv := merge (d.rd a) e.value e.mask
        d.timeModes != (bits nv 0 0, bits nv 1 1))
  | none => (windowCode a).isSome && ! d.poolAddr a

/-- A write in Alarm that goes on: SF_DEM and W1C clears (R564). -/
def alarmWrites (e : WEntry) : Bool :=
  match locate e.adr with
  | some r => r.row.name == .SF_DEM || (r.row.has .W1C && ! r.row.has .RW && ! r.row.has .RWS && ! r.row.has .WO)
  | none => false

/-- A write that acts on axes, loops, groups, recipes, tasks, compare lists, schedule modes or the epoch, and is
neither a W1C clear nor a counter clear (R477). -/
def Dev.actsOn (d : Dev) (e : WEntry) : Bool :=
  let a := e.adr
  let v := (e.value &&& e.mask).toNat
  match locate a with
  | some r =>
    let n := r.row.name
    if n = .AX_CTRL then v % 16 != 8
    else if n = .AX_CMP_CTRL then v % 4 != 2
    else if n = .PL_GRP_CTRL ∨ (r.row.has .W1C ∧ ¬ r.row.has .RW) then false
    else within 0x20000 0x3FFFF a || within 0x50000 0x5FFFF a || n == .ML_SCHED_CTRL || n == .TIM_EPOCH_LO ||
      n == .TIM_EPOCH_HI
  | none => d.poolAddr a

/-- What stands against a WRITE as a whole; 0: nothing (R477, R545, R549, R564, R565, R569, R582). -/
def Dev.writeWhy (d : Dev) (k : Nat) (l : List WEntry) : Nat :=
  let ws := l.filter (fun e => e.op = 0)
  if ! entriesFit l then 1
  else if d.kindOf k = 2 ∨ d.privOf k = 0 ∨ (d.privOf k = 1 ∧ ws.any d.configures) then 2
  else if d.rmode = mLoad then 3
  else if d.rmode = mAlarm ∧ ! ws.all alarmWrites then
    (if d.time.numbered ∧ d.mode.cause.isSome then 11 else 3)
  else if d.isStandby ∧ d.rmode ≠ mService ∧ ws.any d.actsOn then 4
  else 0

/-! ## The entries of a WRITE (R549, R550) -/

/-- What one entry came to. -/
structure EntRes where
  /-- Status (R550). -/
  status : Nat := 0
  /-- Detail (R550). -/
  detail : Nat := 0
  /-- The register's value after the entry. -/
  value : Word := 0
  /-- A profile command: the axis, and its place among the commands of the tick (R307). -/
  prf : Option (Nat × Nat) := none
  deriving DecidableEq, Repr

/-- A value that no read gives: left open by the spec. DESIGN CHOICE, log entry 52. -/
def Dev.openWord (d : Dev) (w : Option Word) : Word × Dev :=
  match w with
  | some w => (w, d)
  | none =>
    let (v, d) := d.draw
    (v.extractLsb' 0 32, d)

/-- A guard is evaluated: it holds when the register under the mask equals the value (R549). -/
def Dev.guardEntry (d : Dev) (k : Nat) (e : WEntry) : Dev × EntRes :=
  let (d, w) := d.lookAt k e.adr
  let st := match w with
    | some w => if w &&& e.mask = e.value then 1 else 2
    | none => 5
  let (v, d) := d.openWord w
  (d, { status := st, value := v })

/-- The place of a profile command that an entry issues, among the commands of the tick for its axis. -/
def Dev.prfPlace (d : Dev) (e : WEntry) : Option (Nat × Nat) :=
  match locate e.adr with
  | some r => if r.row.name = .AX_PRF_CMD then some (r.i, (d.prf r.i).cmds.length) else none
  | none => none

/-- A write entry takes effect, judged against the state that stands (R549, R550). -/
def Dev.writeEntry (d : Dev) (k : Nat) (e : WEntry) : Dev × EntRes :=
  let at_ := d.prfPlace e
  let p := d.busWrite { sess := some k } e.adr e.value e.mask
  let (d, w) := p.1.lookAt k e.adr
  let (v, d) := d.openWord w
  (d, match p.2 with
    | .ok x => { status := 0, detail := x, value := v, prf := at_ }
    | .rejected x => { status := 3, detail := if x = 8 then 8 else 0, value := v }
    | .busErr => { status := 5, value := v })

/-- An entry of a WRITE whose guards fail: guards report, nothing is written (R549, R550). -/
def Dev.heldEntry (d : Dev) (k : Nat) (e : WEntry) : Dev × EntRes :=
  if e.op = 1 then d.guardEntry k e
  else
    let (d, w) := d.lookAt k e.adr
    let (v, d) := d.openWord w
    (d, { status := 4, value := v })

/-- An entry of a WRITE whose guards hold: the guards have been judged against the state before it. -/
def Dev.appliedEntry (d : Dev) (k : Nat) (e : WEntry) : Dev × EntRes :=
  if e.op = 1 then
    let (d, w) := d.lookAt k e.adr
    let (v, d) := d.openWord w
    (d, { status := 1, value := v })
  else d.writeEntry k e

/-- The entries in order. -/
def Dev.entries (d : Dev) (l : List WEntry) (g : Dev → WEntry → Dev × EntRes) : Dev × List EntRes :=
  l.foldl (fun (p : Dev × List EntRes) (e : WEntry) =>
    let q := g p.1 e
    (q.1, p.2 ++ [q.2])) (d, [])

/-- The two words of an entry in the response; a profile command has the result that the commands of the tick
for its axis give it (R307, R549, R550). -/
def Dev.entryWords (d : Dev) (x : EntRes) : List Word :=
  let detail := match x.prf with
    | some (a, n) => (((d.prfJudge a).2.find? (fun y => y.1 = n)).map (·.2)).getD x.detail
    | none => x.detail
  [word (x.status + 256 * detail), x.value]

/-- The response to a WRITE whose entries have been judged. -/
def Dev.writeDone (d : Dev) (k : Nat) (req : Word) (result : Nat) (l : List EntRes) : Dev :=
  d.respond k req { type := 0x91, result := result, words := l.flatMap d.entryWords }

/-- A WRITE that waits for the profile commands of its tick to be judged: its session, its request and its
entries. -/
abbrev WaitingWrite : Type := Nat × Word × List EntRes

/-- A WRITE takes effect: it is answered at once where it is turned away or a guard fails, else once the commands
of the tick have been judged (R542, R549). DEDUCED, log entry 51. -/
def Dev.writeApply (d : Dev) (k : Nat) (req : Word) (l : List WEntry) : Dev × Option WaitingWrite :=
  let why := d.writeWhy k l
  if why ≠ 0 then
    ((if why ≤ 2 then d else d.noteRej why 0).writeDone k req why [], none)
  else
    let gs := d.entries (l.filter (fun e => e.op = 1)) (fun d e => d.guardEntry k e)
    if gs.2.any (fun x => x.status != 1) then
      let p := d.entries l (fun d e => d.heldEntry k e)
      ((p.1.noteRej 5 0).writeDone k req 5 p.2, none)
    else
      let p := (gs.1.note 5 1 0).entries l (fun d e => d.appliedEntry k e)
      (p.1, some (k, req, p.2))

/-- The waiting WRITEs are answered in the order in which they took effect. -/
def Dev.answerWrites (d : Dev) (l : List WaitingWrite) : Dev :=
  l.foldl (fun (d : Dev) (x : WaitingWrite) => d.writeDone x.1 x.2.1 0 x.2.2) d

/-- A WRITE on its own (R549). -/
def Dev.writeNow (d : Dev) (k : Nat) (req : Word) (l : List WEntry) : Dev :=
  let p := d.writeApply k req l
  p.1.answerWrites p.2.toList

/-- WRITE (R549). -/
def execWrite (k : Fin 4) (req : Word) (entries : List WEntry) (s : State) : Host.Outcome State Fault Refusal :=
  s.onDev (fun d => (d.touch k).once k req (fun d => d.writeNow k req entries))

/-- REGISTER_WRITE: a firmware engine writes over the register bus, a session as an entry of a WRITE (R5, R6, R8,
R10, R545, R549). -/
def execRegisterWrite (by_ : Actor) (addr v mask : Word) (s : State) : Host.Outcome State Fault Refusal :=
  s.onDev (fun d =>
    match by_ with
    | .firmware m => (d.busWrite { m := m } addr.toNat v mask).1
    | .session k =>
      let e : WEntry := { addrOp := addr, value := v, mask := mask }
      if (d.session? k).isSome ∧ d.writeWhy k [e] = 0 then
        (d.busWrite { sess := some k } e.adr v mask).1
      else d)

/-! ## CMD (R551) -/

/-- A CMD payload names a command and has its form (R551, R562). -/
def cmdFits (ws : List Word) : Bool :=
  match ws with
  | c :: args =>
    if c = 4 then args.length == 9 && nthW args 0 &&& 0xFFFFFCF8#32 == 0
    else args.isEmpty && (within 1 3 c.toNat || within 0x10 0x19 c.toNat)
  | [] => false

/-- What stands against a CMD before its own rule is asked; 0: nothing (R564, R565, R569). -/
def Dev.cmdWhy (d : Dev) (k : Nat) (ws : List Word) : Nat :=
  let c := (nthW ws 0).toNat
  if ! cmdFits ws then 1
  else if d.kindOf k = 2 ∧ c ≠ 2 ∧ c ≠ 4 then 2
  else if d.omode = mLoad ∧ c ≠ 0x19 then 3
  else if d.rmode = mAlarm ∧ c ≤ 4 then (if d.time.numbered ∧ d.mode.cause.isSome then 11 else 3)
  else 0

/-- A CMD takes effect (R551). -/
def Dev.cmdNow (d : Dev) (k : Nat) (req : Word) (ws : List Word) : Dev :=
  let why := d.cmdWhy k ws
  let c := (nthW ws 0).toNat
  if why ≠ 0 then d.cmdDone k req c why
  else
    match c with
    | 1 => d.storeCmd k req
    | 2 => d.commitCmd k req
    | 3 => d.discardCmd k req
    | 4 => d.provisionCmd k req (bits (nthW ws 1) 2 0) (bits (nthW ws 1) 9 8) (wordsBytes (ws.drop 2))
    | 0x10 => d.goRunCmd k req
    | 0x11 => d.goHoldCmd k req
    | 0x12 => d.goResumeCmd k req
    | 0x13 => d.goReadyCmd k req
    | 0x14 => d.goStopCmd k req
    | 0x15 => d.goServiceCmd k req
    | 0x16 => d.svcExitCmd k req
    | 0x17 => d.restartCmd k req
    | 0x18 => d.alarmExitCmd k req
    | 0x19 => d.resetCmd k req
    | _ => d

/-! ## The messages of a tick (R59, R63) -/

/-- A message that waited for its tick takes effect. The WRITEs before a command are answered before it, where
the command may end their session. -/
def Dev.hostMsg (p : Dev × List WaitingWrite) (m : HostMsg) : Dev × List WaitingWrite :=
  let d := p.1
  if (d.session? m.sess).isNone then p
  else
    match m.body with
    | .write l =>
      let q := d.writeApply m.sess m.req l
      (q.1, p.2 ++ q.2.toList)
    | .cmd ws =>
      if nthW ws 0 = 0x19 then ((d.answerWrites p.2).cmdNow m.sess m.req ws, [])
      else (d.cmdNow m.sess m.req ws, p.2)

/-- The host messages of the tick take effect in the order in which they were received (R59, R63).
DEDUCED, log entry 51. -/
def Dev.hostMsgs (d : Dev) : Dev :=
  let l := d.host.inbox
  let p := l.foldl Dev.hostMsg (d.updHost (fun h => { h with inbox := [] }), [])
  p.1.answerWrites p.2

end Sys2Proof.Machine
end

