-- ==== Sys2Proof/Machine/Session.lean ====
section
/-! DEFINITION. Opening and closing sessions: HELLO, CHALLENGE, AUTH, CLOSE, PING, and the timeouts
(R539, R543 to R546). -/

namespace Sys2Proof.Machine

/-- The host port answers: it is enabled, and the mode is neither Reset nor Self-test (R569, R578). -/
def Dev.hostUp (d : Dev) : Bool :=
  d.omode != mReset && d.omode != mSelfTest && bit (nthW d.host.cfg 0) 0

/-- The session idle timeout the port runs with, in seconds (R543, R578). -/
def Dev.idleLimit (d : Dev) : Nat := bits (nthW d.host.cfg 0) 31 16

/-- The session identities in use, the challenges' included. -/
def Dev.sidsUsed (d : Dev) : List Word :=
  d.host.sessions.filterMap (fun x => x.map (·.sid)) ++ d.host.challenges.map (·.sid)

/-- A new random session identity: not zero, not in use (R543). -/
def Dev.freshSid (d : Dev) : Word × Dev :=
  let (v, d) := d.draw
  let w : Word := v.extractLsb' 0 32
  let used := d.sidsUsed
  let l := (List.range (used.length + 2)).map (fun i => w + word i)
  ((l.find? (fun x => x != 0 && ! used.contains x)).getD 1, d)

/-- Why a HELLO cannot be granted; 0: it is granted (R546, R565). DEDUCED, log entry 48. -/
def Dev.helloWhy (d : Dev) (slot kind : Nat) : Nat :=
  let boot := d.flag R.SEC_STAT.boot
  if slot = 0 ∨ 7 < slot ∨ 2 < kind then 2
  else if d.host.erasedBoot ∨ boot ≠ (kind = 2) then 2
  else if kind ≠ 2 ∧ ! (d.keySlot slot).prov then 2
  else if 4 ≤ (d.host.sessions.filter Option.isSome).length then 2
  else if kind = 1 then
    if d.rmode ≠ mService then 3
    else if (d.keySlot slot).priv ≠ 3 ∨ d.host.sessions.any (fun x => x.any (fun x => x.kind == 1)) then 2
    else 0
  else 0

/-- A HELLO that names an unprovisioned slot is an authentication failure (R567). -/
def Dev.helloFails (d : Dev) (slot kind : Nat) : Bool :=
  decide (1 ≤ slot) && decide (slot ≤ 7) && decide (kind < 2) && ! d.flag R.SEC_STAT.boot &&
    ! (d.keySlot slot).prov

/-- HELLO is answered with CHALLENGE: with a new session identity and a fresh nonce, or with sid 0 and the
reason (R539, R543). -/
def Dev.hello (d : Dev) (slot kind : Nat) (nonce : List Byte) (req : Word) (src : Word) (port : BitVec 16) :
    Dev :=
  if ! d.hostUp then d
  else
    let why := d.helloWhy slot kind
    let d := if d.helloFails slot kind then d.authFailure else d
    let (v, d) := d.draw
    let dn := natBytes 16 v.toNat
    let words := [word d.unitId, Config.serial] ++ bytesWords dn
    if why ≠ 0 then d.emit (.shp 0 0x02 0 req why words [] src port)
    else
      let (sid, d) := d.freshSid
      (d.updHost (fun h => { h with challenges := h.challenges ++ [{
        sid := sid, slot := slot, kind := kind, hostNonce := nonce, devNonce := dn, at_ := d.time.clock,
        srcAddr := src, srcPort := port }] })).emit (.shp sid 0x02 0 req 0 words [] src port)

/-- HELLO (R543). -/
def execHello (slot kind : Nat) (nonce : List Byte) (src : Word) (port : BitVec 16) (s : State) :
    Host.Outcome State Fault Refusal :=
  s.onDev (fun d => d.hello slot kind nonce 0 src port)

/-- The 96 bytes of session keys of a handshake (R544, R565). DEDUCED, log entry 49. -/
def Dev.sessionKeys (d : Dev) (c : Challenge) : List Byte :=
  hkdf (if c.kind = 2 then Config.bootKey else (d.keySlot c.slot).key) (c.hostNonce ++ c.devNonce)
    (ascii "SHP1" ++ wordBytes c.sid ++ natBytes 1 c.slot ++ natBytes 1 c.kind)

/-- The session that a valid AUTH opens (R543, R544, R545). DEDUCED, log entry 48. -/
def Dev.opened (d : Dev) (c : Challenge) (seq : Nat) : Session :=
  let ks := d.sessionKeys c
  { kind := c.kind, slot := c.slot, priv := if c.kind = 2 then 0 else (d.keySlot c.slot).priv, sid := c.sid,
    kIn := ks.take 32, kOut := (ks.drop 32).take 32, kWrap := ks.drop 64, seqIn := seq, seqOut := 1,
    last := d.time.clock, srcAddr := c.srcAddr, srcPort := c.srcPort }

/-- AUTH: with the right tag and the nonces of its challenge it opens the session and is answered AUTH_OK;
with a wrong tag it is not answered and counts as an authentication failure (R543, R567). Where by now the
session cannot be granted, the answer carries the reason. DEDUCED, log entry 48. -/
def Dev.auth (d : Dev) (sid : Word) (seq : Nat) (req : Word) (hostNonce devNonce tag : List Byte) : Dev :=
  if ! d.hostUp then d
  else
    match d.host.challenges.find? (fun c => c.sid = sid) with
    | none => d.bump R.HP_CNT.tag
    | some c =>
      let x := d.opened c seq
      if tag ≠ shpTag x.kIn 0x03 sid seq req 0 (bytesWords (hostNonce ++ devNonce)) then
        (d.bump R.HP_CNT.tag).authFailure
      else if seq = 0 ∨ hostNonce ≠ c.hostNonce ∨ devNonce ≠ c.devNonce then d.bump R.HP_CNT.tag
      else
        let d := d.updHost (fun h => { h with challenges := h.challenges.filter (fun q => q.sid ≠ sid) })
        let why := d.helloWhy c.slot c.kind
        let words := [word (d.idleLimit * 65536 + x.priv)]
        let d := d.emit (.shp sid 0x04 1 req why words (shpTag x.kOut 0x04 sid 1 req why words)
          c.srcAddr c.srcPort)
        if why ≠ 0 then d
        else
          let k := (d.host.sessions.findIdx? Option.isNone).getD 0
          (d.updHost (fun h => { h with sessions := setNth h.sessions k (some x) })).showSessions

/-- AUTH (R543). -/
def execAuth (sid : Word) (seq : Nat) (hostNonce devNonce tag : List Byte) (s : State) :
    Host.Outcome State Fault Refusal :=
  s.onDev (fun d => d.auth sid seq 0 hostNonce devNonce tag)

/-- CLOSE is answered, and the session closes (R539, R543). -/
def Dev.closeMsg (d : Dev) (k : Nat) (req : Word) : Dev :=
  (d.respond k req { type := 0x85 }).closeSession k

/-- CLOSE (R543). -/
def execClose (k : Fin 4) (s : State) : Host.Outcome State Fault Refusal := s.onDev (fun d => d.closeMsg k 0)

/-- PING keeps the session alive and is answered (R539). -/
def Dev.pingMsg (d : Dev) (k : Nat) (req : Word) : Dev :=
  (d.touch k).once k req (fun d => d.respond k req { type := 0x86 })

/-- PING (R539). -/
def execPing (k : Fin 4) (s : State) : Host.Outcome State Fault Refusal := s.onDev (fun d => d.pingMsg k 0)

/-- CHALLENGE_TIMEOUT: the handshake lapses (R543). -/
def execChallengeTimeout (sid : Word) (s : State) : Host.Outcome State Fault Refusal :=
  s.onDev (fun d => d.updHost (fun h => { h with challenges := h.challenges.filter (fun c => c.sid ≠ sid) }))

/-- SESSION_IDLE_TIMEOUT: no valid message for idle_s seconds: the session closes (R543). -/
def execSessionIdleTimeout (k : Fin 4) (s : State) : Host.Outcome State Fault Refusal :=
  s.onDev (fun d => if (d.session? k).isSome then (d.setB R.HP_EVT.close true).closeSession k else d)

end Sys2Proof.Machine
end

