-- ==== Sys2Proof/Machine/HostPort.lean ====
section
/-! DEFINITION. The host port: frames and datagrams, the dispatch of SHP messages, ARP and the link (R535,
R536, R538 to R543, R546). -/

namespace Sys2Proof.Machine

/-- The largest frame payload that the port runs with (R535). -/
def Dev.maxFrame (d : Dev) : Nat := if bit (nthW d.host.cfg 0) 8 then 9000 else 1500

/-- The command port and the stream port that the port runs with. -/
def Dev.hostPorts (d : Dev) : Nat × Nat := (bits (nthW d.host.cfg 4) 15 0, bits (nthW d.host.cfg 4) 31 16)

/-- The frame and its datagram pass R535 and R536. -/
def Dev.frameOk (d : Dev) (f : HostFrame) : Bool :=
  let peer := nthW d.host.cfg 5
  ! f.vlan && decide (f.size ≤ d.maxFrame) && f.udp && ! f.optionsOrFragment && f.dst == nthW d.host.cfg 1 &&
    (f.dstPort.toNat == d.hostPorts.1 || f.dstPort.toNat == d.hostPorts.2) &&
    (peer == 0 || f.src == peer) && ! f.sumBad

/-- The session that a message names. -/
def Dev.sessOf (d : Dev) (sid : Word) : Option Nat :=
  (List.range 4).find? (fun k => (d.session? k).any (fun x => x.sid == sid))

/-- HELLO as a datagram brings it: one whose form is not that of R539 cannot be granted. -/
def Dev.helloFrame (d : Dev) (f : HostFrame) : Dev :=
  let w := nthW f.words 0
  let ok := f.clean && f.words.length == 5 && f.len == 20 && bits w 31 16 == 0 && f.sid == 0
  d.hello (if ok then bits w 7 0 else 0) (bits w 15 8) ((wordsBytes (f.words.drop 1)).take 16) f.req f.src f.srcPort

/-- AUTH as a datagram brings it: the answer goes to where it came from (R536, R543). -/
def Dev.authFrame (d : Dev) (f : HostFrame) : Dev :=
  let d := d.updHost (fun h => { h with challenges := h.challenges.map (fun c =>
    if c.sid = f.sid then { c with srcAddr := f.src, srcPort := f.srcPort } else c) })
  d.auth f.sid f.seq f.req ((wordsBytes f.words).take 16) ((wordsBytes f.words).drop 16) f.tag

/-- Words three at a time: the entries of a WRITE. -/
def entriesOf : List Word → List WEntry
  | a :: v :: m :: t => { addrOp := a, value := v, mask := m } :: entriesOf t
  | _ => []

/-- Words two at a time: the ranges of a READ. -/
def rangesOf : List Word → List (Word × Nat)
  | a :: n :: t => (a, n.toNat) :: rangesOf t
  | _ => []

/-- A message that belongs to the next tick instant: it waits for it, or takes effect at once while no tick is
numbered; one that waits already waits once (R59, R60, R541). -/
def Dev.latchMsg (d : Dev) (m : HostMsg) : Dev :=
  if d.time.numbered then
    if d.host.inbox.any (fun x => x.sess == m.sess && x.req == m.req) then d
    else d.updHost (fun h => { h with inbox := h.inbox ++ [m] })
  else
    let p := Dev.hostMsg (d, []) m
    p.1.answerWrites p.2

/-- A message whose form is wrong is answered BAD_MSG (R542). -/
def Dev.badMsg (d : Dev) (k : Nat) (req : Word) (type : Nat) : Dev :=
  d.respond k req { type := (type + 0x80) % 256, result := 1 }

/-- A message of a session whose tag and seq are right, and which is no repetition (R539, R541). -/
def Dev.sessionMsg (d : Dev) (k : Nat) (f : HostFrame) (formed : Bool) : Dev :=
  let n := f.words.length
  if ! formed then d.badMsg k f.req f.type
  else
    match f.type with
    | 0x05 => if n = 0 then d.closeMsg k f.req else d.badMsg k f.req f.type
    | 0x06 => if n = 0 then d.respond k f.req { type := 0x86 } else d.badMsg k f.req f.type
    | 0x10 => if n % 2 = 0 then d.readMsg k f.req (rangesOf f.words) else d.badMsg k f.req f.type
    | 0x11 => d.latchMsg { sess := k, req := f.req, body := .write (if n % 3 = 0 then entriesOf f.words else []) }
    | 0x12 => d.latchMsg { sess := k, req := f.req, body := .cmd f.words }
    | _ => d.badMsg k f.req f.type

/-- A message that names a session: without an open session of its sid, with a wrong tag, or with a seq that is
not above the highest accepted, it is discarded and counted (R540). -/
def Dev.sessionFrame (d : Dev) (f : HostFrame) : Dev :=
  match d.sessOf f.sid with
  | none => d.bump R.HP_CNT.tag
  | some k =>
    match d.session? k with
    | none => d
    | some x =>
      if f.tag ≠ shpTag x.kIn f.type f.sid f.seq f.req 0 f.words ∨ f.seq ≤ x.seqIn then d.bump R.HP_CNT.tag
      else
        let d := (d.touch k).updSession k (fun x => { x with
          seqIn := f.seq, srcAddr := f.src, srcPort := f.srcPort })
        let formed := f.clean && f.len == 4 * f.words.length
        if f.type = 0x21 then
          if formed ∧ f.words.length = 3 ∧ 4096 ≤ (nthW f.words 2).toNat then
            d.streamAck k (bytesNat (wordsBytes (f.words.take 2))) (nthW f.words 2).toNat f.src f.srcPort
          else d
        else d.once k f.req (fun d => d.sessionMsg k f formed)

/-- A datagram that the port accepts, on the port of its type (R539). -/
def Dev.datagram (d : Dev) (f : HostFrame) : Dev :=
  let stm := f.type == 0x21
  if f.ver ≠ 1 ∨ f.dstPort.toNat ≠ (if stm then d.hostPorts.2 else d.hostPorts.1) then d
  else if f.type = 0x01 then d.helloFrame f
  else if f.type = 0x03 then d.authFrame f
  else d.sessionFrame f

/-- HOST_FRAME_RX (R535, R536). DEDUCED, log entry 47. -/
def execHostFrameRx (f : HostFrame) (s : State) : Host.Outcome State Fault Refusal :=
  s.onDev (fun d =>
    if ! d.hostUp || ! d.host.link then d
    else if d.frameOk f then d.datagram f
    else d.bump R.HP_CNT.frame)

/-- ARP_REQUEST: the device answers for the address that it runs with (R535). -/
def execArpRequest (target : Word) (s : State) : Host.Outcome State Fault Refusal :=
  s.onDev (fun d =>
    if d.hostUp ∧ d.host.link ∧ target = nthW d.host.cfg 1 then d.emit (.arpReply target) else d)

/-- HOST_BLOCK_LOCK_LOSS (R535, HP_EVT). -/
def execHostBlockLockLoss (s : State) : Host.Outcome State Fault Refusal :=
  s.onDev (fun d =>
    if d.host.link then
      ((d.updHost (fun h => { h with link := false })).setB R.HP_STAT.link false).setB R.HP_EVT.link_loss true
    else d)

/-- HOST_BLOCK_LOCK_GAIN: with the lanes idle in Reset and Self-test there is no lock to gain (R535, R569). -/
def execHostBlockLockGain (s : State) : Host.Outcome State Fault Refusal :=
  s.onDev (fun d =>
    if d.omode = mReset ∨ d.omode = mSelfTest then d
    else (d.updHost (fun h => { h with link := true })).setB R.HP_STAT.link true)

end Sys2Proof.Machine
end

