-- ==== Sys2Proof/Machine/Start.lean ====
section
/-! DEFINITION. Start-up: leaving Reset, Self-test, and Load with its image, its overlays, its checks and its
end (R456, R460, R527, R528, R532, R552 to R558, R566, R570 to R579). -/

namespace Sys2Proof.Machine

/-! ## Leaving Reset (R570) -/

/-- The word that the settings bank in force holds for a register, before NV_STAT shows the bank. -/
def Dev.bankWord (d : Dev) (addr : Nat) : Option Word :=
  d.nv.bankNo.bind (fun k => Sparse.find? (if k = 1 then d.nv.bank1 else d.nv.bank0).recs addr)

/-- The retired pages of the stored list are mapped to spares, and the list applied is logged (R532).
DEDUCED, log entry 56. -/
def Dev.mapRetired (d : Dev) : Dev :=
  let l := (List.range 64).filterMap (fun i =>
    match d.bankWord (R.ECC_RET.adr i) with
    | some w => if bit w 31 then some (i, w) else none
    | none => none)
  let d := l.foldl (fun (d : Dev) (p : Nat × Word) => d.wr (R.ECC_RET.adr p.1) (p.2 &&& 0x800FFFFF#32)) d
  let d := { d with ecc := { d.ecc with
    retired := l.map (fun (p : Nat × Word) => (d.fld (R.ECC_RET.mem p.1), d.fld (R.ECC_RET.page p.1))) } }
  let d := d.set R.ECC_STAT.retired l.length
  if l.isEmpty then d else d.logErr 8 0 0 l.length

/-- The TAMPER_N latch is read: it shows in SEC_STAT and trips class 0, under the stored action; without a key
there is nothing left to erase (R12, R566). DEDUCED, log entry 55. -/
def Dev.readLatch (d : Dev) : Dev :=
  if d.nv.tamper then
    let act := actionOf ((d.bankWord R.SEC_ACT.adr).getD (resetWord R.SEC_ACT.adr)) 0
    let keys := (if d.nv.lcNo = 1 then d.nv.lc1 else d.nv.lc0).keys.any (·.prov)
    (d.setB R.SEC_STAT.tamp true).tripWith 0 (if act = 2 ∧ ! keys then 1 else act)
  else d

/-- The device leaves Reset (R460, R565, R566, R570). -/
def Dev.leaveReset (d : Dev) (roleB powerUp : Bool) : Dev :=
  let d : Dev := { nv := d.nv, balls := d.balls, free := d.free, out := d.out,
                   host := { erasedBoot := d.host.erasedBoot && ! powerUp } }
  let d := d.updBalls (fun b => { b with
    rstN := true, pgood := true, presentN := false, roleB := roleB })
  let d := d.set R.TW_STAT.unit (b2n roleB)
  let d := d.set R.ECC_LOG_STAT.next (d.nv.logNext % 1024)
  d.readLatch.mapRetired.enterMode mSelfTest 0

/-- RESET_RELEASE: RST_N, PGOOD and PRESENT_N have held their release levels for 10 ms. After a power-up outside
its order the state is undefined (R570, R601). DESIGN CHOICE, log entry 66. -/
def execResetRelease (roleB powerUp orderOk : Bool) (s : State) : Host.Outcome State Fault Refusal :=
  if s.dev.omode ≠ mReset then .next s
  else if powerUp && ! orderOk then .fault .powerUpUndefined
  else s.onDev (fun d => d.leaveReset roleB powerUp)

/-! ## Self-test (R571, R572) -/

/-- The change-log entries of a commit whose header was never written are void (R560). DEDUCED, log entry 54. -/
def Dev.voidCommits (d : Dev) : Dev :=
  if d.nv.voids.isEmpty then d
  else
    let log := (List.range d.nv.clog.length).map (fun i =>
      let ws := d.nv.clog.getD i []
      if d.nv.voids.contains i then setNth ws 6 1 else ws)
    (d.updNv (fun n => { n with clog := log, voids := [] })).setB R.NV_EVT.void_ true

/-- The safety channels read the architecture and the parameter set of the limited-change bank in force; every
enabled zone is in STO (R423, R429, R571, R575). DEDUCED, log entry 57. -/
def Dev.takeSafety (d : Dev) : Dev :=
  let d := rwlRegs.foldl (fun d a => d.wr a (merge (d.rd a) (d.lcWord a) (accMask a .RWL))) d
  let d := d.setB R.SF_STAT.arch (d.flag R.SF_ARCH.arch_sel)
  let d := d.setB R.SF_STAT.gesso (! d.flag R.SF_ARCH.arch_sel)
  let d := d.wr R.SF_PARAM.adr (crc32 (d.lc.content 1))
  d.zonesUsed.foldl (fun d z => d.set (R.SF_ZONE_STAT.zstate z) 3) d

/-- A step of Self-test failed: the device halts and logs the failure (R528, R572). DEDUCED, log entry 56. -/
def Dev.selfTestFails (d : Dev) (r : SelfTest) : Dev :=
  let cause := if r.failed ≤ 2 then 1 else r.failed - 1
  let d := (d.setB R.DEV_STAT.halt true).set R.DEV_STAT.halt_cause cause
  let d := if r.failed = 3 then d.set R.SF_STAT.lo_cause 2 else d
  let d := match r.checker with
    | some (m, c) => if r.failed = 2 then (d.setB R.ECC_STAT.st_fail true).logErr 6 0 (memCode m 0) c else d
    | none => d
  (d.note 2 0 0 [word cause]).showAlarmN

/-- The six HP_ words that the port runs with, from the registers (R578). -/
def Dev.hostWords (d : Dev) : List Word :=
  [R.HP_CFG.adr, R.HP_ADDR.adr, R.HP_MAC_LO.adr, R.HP_MAC_HI.adr, R.HP_PORT.adr, R.HP_PEER.adr].map d.rd

/-- The settings bank in force overrides each RWS field it holds; NV_STAT shows it (R557, R575). -/
def Dev.overlay (d : Dev) : Dev :=
  rwsRegs.foldl (fun (d : Dev) (a : Nat) => d.wr a (d.stored a (d.rd a))) d

/-- The port runs from the entry into Load with the stored HP_ values, or with their Reset values (R578). -/
def Dev.hostStart (d : Dev) : Dev :=
  let ws := [R.HP_CFG.adr, R.HP_ADDR.adr, R.HP_MAC_LO.adr, R.HP_MAC_HI.adr, R.HP_PORT.adr, R.HP_PEER.adr].map
    (fun (a : Nat) => d.stored a (resetWord a))
  d.updHost (fun h => { h with cfg := ws })

/-- Without a key in slot 0 the device applies the settings bank to the Reset values and enters Service in the
bootstrap state (R565, R577). -/
def Dev.bootstrap (d : Dev) : Dev := (d.overlay.setB R.SEC_STAT.boot true).enterMode mService 9

/-- Every step of Self-test passed: the banks show, the memories hold 0, the safety channels have their
parameters, and the device enters Load (R527, R555, R571, R577). -/
def Dev.selfTestPasses (d : Dev) : Dev :=
  let d := (d.showBank.showLc).voidCommits.takeSafety
  let d := { d with mem := [], ecc := { d.ecc with flips := [] } }
  let d := (d.enterMode mLoad 0).hostStart
  if (d.keySlot 0).prov then d else d.bootstrap

/-- SELF_TEST_DONE (R571, R572). -/
def execSelfTestDone (r : SelfTest) (s : State) : Host.Outcome State Fault Refusal :=
  s.onDev (fun d =>
    if d.omode ≠ mSelfTest ∨ d.flag R.DEV_STAT.halt then d
    else
      let d := d.updTime (fun z => { z with clock := z.clock + r.ms * 1000000 })
      let d := d.set R.DEV_START.selftest_ms (satN 8 r.ms)
      if r.failed = 0 then d.selfTestPasses else d.selfTestFails r)

/-! ## The image (R552, R553, R574) -/

/-- The regions and windows that a load record may address, by first address and end (R574, R622). -/
def loadRegions : List (Nat × Nat) := [
  (0x0, 0x1000), (0x1000, 0x2000), (0x2000, 0x3000), (0x10000, 0x14000), (0x20000, 0x30000), (0x30000, 0x40000),
  (0x40000, 0x48000), (0x48000, 0x50000), (0x50000, 0x60000), (0x60000, 0x70000), (0x70000, 0x80000),
  (0x80000, 0x90000), (0x90000, 0xA0000), (0xA0000, 0xC0000), (0x10000000, 0x10600000),
  (0x20000000, 0x20100000), (0x30000000, 0x30100000), (0x30100000, 0x30200000), (0x30200000, 0x30240000)]

/-- The destination of a record lies within one region or window (R574). -/
def recFits (r : LoadRec) : Bool :=
  let n := if r.kind = 1 then 1 else r.count
  decide (r.kind ≤ 2) && within 1 16777215 r.count && r.addr % 4 == 0 &&
    loadRegions.any (fun p => decide (p.1 ≤ r.addr) && decide (r.addr + 4 * n ≤ p.2))

/-- A record is applied word by word; false: one of its writes was rejected (R574). -/
def Dev.placeRec (d : Dev) (r : LoadRec) : Dev × Bool :=
  (List.range r.count).foldl (fun (p : Dev × Bool) (i : Nat) =>
    let q := p.1.busWrite { image := true } (if r.kind = 1 then r.addr else r.addr + 4 * i)
      (nthW r.data (if r.kind = 2 then 0 else i)) 0xFFFFFFFF#32
    (q.1, p.2 && q.2 matches .ok _)) (d, true)

/-- The records in body order; the number of the first that fails check 1 (R574, R576). -/
def Dev.placeAll (d : Dev) (l : List LoadRec) : Dev × Option Nat :=
  let p := l.foldl (fun (p : Dev × Nat × Option Nat) (r : LoadRec) =>
    let q := if recFits r then p.1.placeRec r else (p.1, false)
    (q.1, p.2.1 + 1, p.2.2.orElse (fun _ => if q.2 then none else some p.2.1))) (d, 0, none)
  (p.1, p.2.2)

/-- What the image says beside its records (R20, R136, R156, R324, R472).
DESIGN CHOICE, log entry 12. PRESUMED, log entry 58. -/
def Dev.imageFacts (d : Dev) (img : LoadImage) : Dev :=
  let d := d.updNet (fun z => { z with modes := img.modes, stCfgs := img.stCfgs })
  let d := d.updMode (fun z => { z with stateImage := img.stateImage, tables := img.tables, copyMap := img.copyMap })
  let d := d.updTwin (fun z => { z with slow := img.slowPages })
  (d.wr R.AT_POOL.adr img.atPool).wr R.AX_CMP_POOL.adr img.cmpPool

/-- Why an image is refused before its checks; 0: it is not (R552, R553, R577). -/
def Dev.imageWhy (d : Dev) (img : LoadImage) : Nat :=
  if ! img.flashOk then 4
  else if ! img.headerOk then 5
  else if sha256 img.publicKey ≠ (d.keySlot 0).key then 6
  else if ! ecdsaVerify img.publicKey img.digest img.signature then 7
  else 0

/-- The device halts in Load (R576, R577). -/
def Dev.haltLoad (d : Dev) (cause : Nat) : Dev :=
  ((d.setB R.DEV_STAT.halt true).set R.DEV_STAT.halt_cause cause).showAlarmN

/-- The journal scan: per recipe the latest valid entry is copied to its resume record (R420). -/
def Dev.scanJournal (d : Dev) : Dev :=
  let good := fun (e : JnlEntry) => nthW e.words 31 == crc32 (wordsBytes (e.words.take 31))
  let ok := (d.nv.journal.map (·.2)).filter good
  let d := d.set R.AT_JNL_STAT.bad (d.nv.journal.length - ok.length)
  let d := (d.set R.AT_JNL_STAT.valid ok.length).wr R.AT_JNL_SEQ.adr d.nv.jnlSeq
  (List.range 64).foldl (fun (d : Dev) (r : Nat) =>
    let last := (ok.filter (fun e => e.recipe = r)).foldl (fun (b : Option JnlEntry) (e : JnlEntry) =>
      match b with
      | some x => if laterWord (nthW e.words 1) (nthW x.words 1) then some e else b
      | none => some e) none
    match last with
    | some e =>
      let t := bits (nthW e.words 0) 31 24
      (d.pokeWords (d.recCode (130560 + 8 * r)) (e.words.take 32)).setB (R.AT_RCP_STAT.jnl_valid r)
        (decide (1 ≤ t) && decide (t ≤ 3))
    | none => d) d

/-! ## The checks and the end of Load (R576 to R578) -/

/-- The registers that the settings overlay changed have the values that the image left (R576). -/
def Dev.dropOverlay (d : Dev) : Dev :=
  rwsRegs.foldl (fun (d : Dev) (a : Nat) =>
    d.wr a (merge (d.rd a) (Sparse.get resetWord d.store.image a) (accMask a .RWS))) d

/-- The checks of R576, with the overlay dropped where it alone fails them; false: the device halts.
DEDUCED, log entry 57. -/
def Dev.judgeLoad (d : Dev) (rec_ : Option Nat) : Dev × Bool :=
  let l := (rec_.map (fun i => (1, i))).toList ++ d.failedChecks
  if l.isEmpty then (d, true)
  else
    let e := d.dropOverlay
    if rec_.isNone && e.failedChecks.isEmpty then
      let e := (e.showChecks l true).setB R.DEV_STAT.ovl_rej true
      (e.event 2 R.DEV_EVT.ovl_rej, true)
    else (d.showChecks l false, false)

/-- A register is of the unit-local set (R471). -/
def unitLocal (a : Nat) : Bool :=
  match locate a with
  | some r => r.row.name == .TIM_PORT || r.row.name == .ECC_CFG || r.row.name == .ECC_RET || decide (0xA0000 ≤ a)
  | none => true

/-- The RWS fields of a unit that its partner must share, with their addresses (R471). -/
def Dev.sharedWords (d : Dev) : List Word :=
  ((sortNat rwsRegs).filter (fun a => ! unitLocal a)).flatMap (fun a => [word a, d.rd a &&& accMask a .RWS])

/-- cfg_crc of a unit that leaves Load (R471). -/
def Dev.cfgCrc (d : Dev) (digest : List Byte) : Word :=
  crc32 (digest ++ wordsBytes (d.sharedWords ++ [d.rd R.SF_PARAM.adr, word (d.fld R.SF_STAT.arch)]))

/-- The job table of the mode in force overwrites the job counters (R216). DEDUCED, log entry 57. -/
def Dev.jobCounters (d : Dev) : Dev :=
  let m := d.fld R.ML_NET_CFG.init_sched
  let d := d.updEasel (fun z => { z with jobsFrom := m })
  (((d.schedMode? m).map (·.jobs)).getD []).foldl (fun (d : Dev) (j : JobDef) =>
    (d.set (R.EZ_CNT.kind j.cnt) 1).set (R.EZ_CNT.tgt j.cnt) j.idx) d

/-- Every feedback slot has the age 255 until a segment arrives (R111, R631). -/
def Dev.freshSlots (d : Dev) : Dev :=
  (d.net.modes.flatMap (fun m => m.lines.flatMap (·.stations))).foldl (fun (d : Dev) (z : StLayout) =>
    d.pokeW (memCode 0 z.fbAddr) 0xFF) d

/-- Where the values in force differ from those the port runs with, it closes every session and reopens
(R578). -/
def Dev.hostReopen (d : Dev) : Dev :=
  if d.host.cfg = d.hostWords then d else (d.closeAll).updHost (fun h => { h with cfg := d.hostWords })

/-- The device leaves Load for Listen (R576, R578, R579). -/
def Dev.leaveLoad (d : Dev) (img : LoadImage) : Dev :=
  let d := d.jobCounters.freshSlots
  let d := d.wr R.TW_CFG_CRC.adr (d.cfgCrc img.digest)
  let d := (d.wr R.DEV_IMG_LEN.adr img.len).wr R.DEV_IMG_BUILD.adr img.build
  let d := d.wr R.DEV_IMG_HASH.adr (word (bytesNat (img.digest.take 4)))
  let d := (List.range 8).foldl (fun (d : Dev) (l : Nat) => d.updLine l (fun z => { z with
    guardNs := d.fld (R.ML_GUARD.guard_ns l), applyOfs := d.fld (R.ML_APPLY_OFS.apply_ofs_ns l) })) d
  let d := d.updEasel (fun z => { z with
    deadlineNs := d.fld R.EZ_DEADLINE.deadline_ns, releaseNs := d.fld R.EZ_RELEASE.release_ns })
  (d.hostReopen.enterMode mListen 0).takeLines.enterListen

/-- The image is placed, verified, overlaid and checked (R552, R553, R557, R574 to R577). DEDUCED, log entry 57. -/
def Dev.load (d : Dev) (img : LoadImage) : Dev :=
  let readable := img.flashOk && img.headerOk
  let p := if readable then (d.imageFacts img).placeAll img.recs else (d, none)
  let rec_ := if img.bodyOk then p.2 else some (p.2.getD img.recs.length)
  let why := d.imageWhy img
  if why ≠ 0 then p.1.haltLoad why
  else
    let d := p.1.updStore (fun z => { z with image := p.1.regs })
    let hash := word (bytesNat (img.digest.take 4))
    let d := d.setB R.NV_STAT.img_chg (d.settings?.any (fun b => b.hash != hash))
    let d := d.overlay.scanJournal
    let q := d.judgeLoad rec_
    if q.2 then q.1.leaveLoad img else q.1.haltLoad 8

/-- LOAD_DONE (R576, R577). -/
def execLoadDone (img : LoadImage) (s : State) : Host.Outcome State Fault Refusal :=
  s.onDev (fun d =>
    if d.omode ≠ mLoad ∨ d.flag R.DEV_STAT.halt then d
    else
      let d := d.updTime (fun z => { z with clock := z.clock + img.ms * 1000000 })
      let d := (d.set R.DEV_START.load_ms (satN 12 img.ms)).setB R.DEV_STAT.slow (img.flashOk && img.slow)
      d.load img)

end Sys2Proof.Machine
end

