-- ==== Sys2Proof/Machine/Tasks.lean ====
section
/-! DEFINITION. The edge units and the delivery of a tick's triggers to the event tasks (R413, R416). -/

namespace Sys2Proof.Machine

/-- An edge unit's point may be evaluated now: data of age 0, and of an asynchronous station a time stamp
not evaluated yet (R416). -/
def Dev.edgeDue (d : Dev) (u : Nat) : Bool :=
  let s := d.fld (R.AT_EDGE_CFG.stn u)
  d.flag (R.AT_EDGE_CFG.en u) && d.slotAge s == 0 &&
    (! d.stAsync s || (d.edge u).lastTs != some (d.stTs s))

/-- A counted edge: rise or fall moves on, AT_EDGE_T takes its time, and the unit releases event tasks
where its trig field selects the edge (R413, R416). -/
def Dev.edgeCount (d : Dev) (u : Nat) (up : Bool) (t : Word) : Dev :=
  let d := d.bumpMod (if up then R.AT_EDGE_CNT.rise u else R.AT_EDGE_CNT.fall u)
  let d := d.wr (R.AT_EDGE_T.adr u) t
  if d.fld (R.AT_EDGE_CFG.trig u) / (if up then 1 else 2) % 2 = 1 then
    { d with rcp := { d.rcp with triggers := d.rcp.triggers ++ [(1, u)] } }
  else d

/-- One evaluation of an edge unit; the first one only takes the value (R416). -/
def Dev.edgeEval (d : Dev) (u : Nat) : Dev :=
  if d.edgeDue u then
    let s := d.fld (R.AT_EDGE_CFG.stn u)
    match d.diPoint s (d.fld (R.AT_EDGE_CFG.point u)) with
    | some v =>
      let old := (d.edge u).last
      let d := d.updEdge u (fun _ => { last := some v, lastTs := some (d.stTs s) })
      if old = some (! v) then
        d.edgeCount u v (if d.stAsync s then d.stTs s else BitVec.ofNat 32 d.now)
      else d
    | none => d
  else d

/-- The 256 edge units at EZ_DEADLINE (R416). -/
def Dev.edgeTick (d : Dev) : Dev := (List.range 256).foldl Dev.edgeEval d

/-- The event tasks by ascending task index, with their thread and trigger (R413). -/
def Dev.eventTasks (d : Dev) : List (Nat × Nat × Nat) :=
  ((List.range 2).flatMap (fun e => (List.range 64).map (fun k => (e, k)))).filterMap (fun p =>
    if d.flag (R.AT_TASK_CFG.en p.1 p.2) ∧ d.flag (R.AT_TASK_CFG.event p.1 p.2) then
      some (d.fld (R.AT_TASK_CFG.thr p.1 p.2), d.fld (R.AT_TASK_CFG.trig p.1 p.2),
        d.fld (R.AT_TASK_CFG.idx p.1 p.2))
    else none)

/-- The triggers of the tick reach the event tasks at EZ_DEADLINE: each is one signal on the counter of
the task's thread (R413). -/
def Dev.deliverTriggers (d : Dev) : Dev :=
  let ts := d.rcp.triggers
  let at_ := d.easel.deadlineNs
  let d := d.eventTasks.foldl (fun (d : Dev) (p : Nat × Nat × Nat) =>
    (ts.filter (fun t => t == (p.2.1, p.2.2))).foldl (fun (d : Dev) (_ : Nat × Nat) =>
      d.signalCnt (d.fld (R.EZ_THR.cnt p.1)) 1 at_) d) d
  { d with rcp := { d.rcp with triggers := [] } }

end Sys2Proof.Machine
end

