-- ==== Sys2Proof/Machine/Tick.lean ====
section
/-! DEFINITION. The turn of a tick: EZ_DEADLINE, the state copy, the tick instant and the start of the frames
(chapter 1, R13 to R15, R26, R27, R200, R626), and the debug port (R617). -/

namespace Sys2Proof.Machine

/-! ## The timed-output lists of the next command (R186, R352, R398, R402) -/

/-- Insertion before the first element with no smaller key. -/
def insertBy {α : Type} (key : α → Nat) (x : α) : List α → List α
  | [] => [x]
  | y :: t => if key x ≤ key y then x :: y :: t else y :: insertBy key x t

/-- The elements in ascending key, equal ones in their order. -/
def orderBy {α : Type} (key : α → Nat) (l : List α) : List α := l.foldr (insertBy key) []

/-- The two words of a TO entry (R166). -/
def toWords (id output act fire : Nat) : List Word := [word (id * 65536 + output * 256 + act * 16), word fire]

/-- The recipe entries that a station's next command carries, those staged earlier first: action IDs rise from
one staging to the next, so the older ID lies further behind the allocator (R186, R400). -/
def Dev.rcpInOrder (d : Dev) (s : Nat) : List StagedTo :=
  orderBy (fun e => (e.id + 0x6FFF - d.rcp.nextId) % 0x6FFF) (d.rcpCarried s)

/-- The TO block of a station's next command: the reserved entries of each compare list in order of fire time,
the recipe entries in the others, zeros where none stands (R166, R186, R352, R398). -/
def Dev.toBlock (d : Dev) (s entries : Nat) : List Word :=
  let lists := (List.range 16).filter (fun l => d.fld (R.AX_CMP_CFG.stn l) == s)
  let first := fun (l : Nat) => d.fld (R.AX_CMP_CFG2.to_first l)
  let owner := fun (i : Nat) => lists.find? (fun l => first l ≤ i && decide (i < first l + d.fld (R.AX_CMP_CFG2.to_n l)))
  let none_ : List Word := [0, 0]
  ((List.range entries).foldl (fun (acc : List Word × List StagedTo) i =>
    match owner i with
    | some l =>
      match (orderBy (fun (e : CmpEntry) => e.fire) (d.cmpCarried l (d.tick + 1)))[i - first l]? with
      | some e => (acc.1 ++ toWords e.id (d.fld (R.AX_CMP_CFG.out l)) e.act e.fire, acc.2)
      | none => (acc.1 ++ none_, acc.2)
    | none =>
      match acc.2 with
      | e :: t => (acc.1 ++ toWords e.id e.output e.kind e.fire, t)
      | [] => (acc.1 ++ none_, [])) ([], d.rcpInOrder s)).1

/-- The retractions that a station's next command carries, with their fire times: of recipes and of compare
lists, while the frame leaves before the fire time (R356, R402). -/
def Dev.retractions (d : Dev) (s : Nat) : List (Nat × Nat) :=
  let leaves := d.now + d.time.tickNs + d.fld R.TIM_TX_OFS.tx_ofs_ns
  let rcps := d.rcp.rcps.flatMap (fun p => (p.2.staged.filter (fun e =>
    e.stn == s && e.retr && decide (leaves < e.fire))).map (fun e => (e.id, e.fire)))
  let cmps := d.cmps.flatMap (fun p => if d.fld (R.AX_CMP_CFG.stn p.1) = s then
    (p.2.staged.filter (fun e => e.retr && decide (leaves < e.fire))).map (fun e => (e.id, e.fire)) else [])
  orderBy (fun (x : Nat × Nat) => x.2) (rcps ++ cmps)

/-- Two action IDs to a word, the first in the low half (R166). -/
def rtWords : List Nat → List Word
  | a :: b :: t => word (b * 65536 + a) :: rtWords t
  | [a] => [word a]
  | [] => []

/-- A block of a station's command in the layout that the commands of this tick are written in. -/
def Dev.putBlk (d : Dev) (s code : Nat) (ws : Nat → List Word) : Dev :=
  match d.stBlk s code with
  | some (o, n, _) =>
    match d.cmdCode? s o with
    | some c => d.pokeWords c (fitWords (ws n) n)
    | none => d
  | none => d

/-- The TO and RT blocks of every station's next command stand in the Canvas by EZ_DEADLINE (R26, R398).
DEDUCED, log entry 29. -/
def Dev.writeLists (d : Dev) : Dev :=
  let sts : List Nat := match d.schedMode? d.cmdMode with
    | some m => m.lines.flatMap (fun (y : LineLayout) => y.stations.map (fun (z : StLayout) => z.addr))
    | none => []
  sts.foldl (fun d s =>
    (d.putBlk s 4 (fun n => d.toBlock s (n / 2))).putBlk s 5 (fun _ => rtWords ((d.retractions s).map (fun (x : Nat × Nat) => x.1)))) d

/-! ## EZ_DEADLINE (R18, R111, R146, R200, R483, R501, R548, R626) -/

/-- The registers that derive from the commits of the tick show them (R548). -/
def Dev.showCommits (d : Dev) : Dev :=
  (d.easel.shown.foldl (fun d p => d.wr p.1 p.2) d).updEasel (fun z => { z with shown := [] })

/-- The age that each axis computes with, and Lost where it has passed the limit (R146, R297). An axis whose
station is absent has no feedback to lose (R631). DEDUCED, log entry 21. -/
def Dev.axesAge (d : Dev) : Dev :=
  d.axesUsed.foldl (fun d a =>
    let s := d.fld (R.AX_CFG.stn a)
    let age := d.slotAge s
    let d := d.set (R.AX_STATE.age a) (min 255 age)
    if (d.head s).everValid ∧ d.fldT (R.AX_AGE_LIM.age_lim a) < age then d.axLost a else d) d

/-- The recipe firmware's work of a tick: decisions, staging, and actions that have fired (R392 to R399). -/
def Dev.recipeTick (d : Dev) : Dev :=
  let rs := List.range 64
  rs.foldl Dev.dropFired ((rs.foldl Dev.rcpEval d).stageAll)

/-- The host's window writes of the tick are written after its commits (R626). DEDUCED, log entry 53. -/
def Dev.windowWrites (d : Dev) : Dev :=
  let l := d.easel.canvasWrites
  ((l.foldl (fun d w => d.putBytes w.addr w.bytes) d).updEasel (fun z => { z with canvasWrites := [] })).updTwin
    (fun z => { z with wroteWin := l })

/-- The classes of the events that the record of the tick takes (TIM_EVT_LAST). -/
def Dev.evtClasses (d : Dev) : Nat :=
  ((List.range 6).map (fun c => if d.evts.any (fun e => e.cls = c) then 2 ^ c else 0)).sum

/-- All that happens at T(n) + EZ_DEADLINE and follows from it within the tick: the Easel closes the tick's jobs;
the slots age and stations, axes and monitorings are judged; the recipes, profiles and pulse trains of the next
command are computed and the timed-output lists written; the host's window writes follow; the partner and the
fitness are judged; edge units and triggers are served, a STORE takes its values, and the trace rows and the
records of the tick are written (R26, R61). DEDUCED, log entry 14. -/
def Dev.deadline (d : Dev) : Dev :=
  let d := d.closeJobs.showCommits.netDeadline.domDeadline
  let d := d.ss1Tick.pduTick.axesAge
  let d := d.recipeTick.prfSteps.emuTicks.writeLists.windowWrites
  let d := d.partnerTick.fitness.twinCounts
  let d := d.edgeTick.deliverTriggers.storeTake.skTick
  let d := d.updTime (fun z => { z with evtCls := d.evtClasses })
  d.vnAppend

/-- EZ_DEADLINE (R200): once in a numbered tick. -/
def execEzDeadline (s : State) : Host.Outcome State Fault Refusal :=
  s.onDev (fun d => if d.time.numbered ∧ ! d.easel.closed then d.deadline else d)

/-! ## The state copy (R26, R256, R475, R476) -/

/-- The registers in which the copied objects keep their state (R475). -/
def copiedRegs : List Nat :=
  let ax := (List.range 128).flatMap (fun a => [R.AX_STATE.adr a, R.AX_CNT.adr a, R.AX_PRF_STAT.adr a,
    R.AX_PRF_POS.adr a, R.AX_PRF_VEL.adr a, R.AX_FB_POS.adr a, R.AX_FB_SPD.adr a, R.AX_FB_STAT.adr a])
  let pl := (List.range 384).flatMap (fun i => [R.PL_STATE.adr i, R.PL_SP.adr i, R.PL_MAN.adr i, R.PL_OUT.adr i])
  let grp := (List.range 96).map R.PL_GRP_STAT.adr
  let cmp := (List.range 16).flatMap (fun l => [R.AX_CMP_CFG.adr l, R.AX_CMP_STAT.adr l, R.AX_CMP_LAST.adr l])
  let rcp := (List.range 64).flatMap (fun r => [R.AT_RCP_STAT.adr r, R.AT_RCP_ELAP.adr r, R.AT_RCP_LAYER.adr r])
  let edge := (List.range 256).flatMap (fun u => [R.AT_EDGE_CNT.adr u, R.AT_EDGE_T.adr u])
  ax ++ pl ++ grp ++ cmp ++ rcp ++ edge ++ [R.ML_SCHED_STAT.adr, R.ML_SCHED_TICK.adr]

/-- What the copy of the present tick carries: the loop, profile, recipe and staging state, the bytes of the
image's copy map and the host's window writes, the pending schedule change, the operating mode and the epoch, and
the registers written in the tick (R26, R475). A committed epoch offset that waits for the tick instant is
carried as its value. DEDUCED, log entry 45. -/
def Dev.copyImage (d : Dev) : CopyImage :=
  let val := fun (a : Nat) => match d.time.epochPend with
    | some v => if a = R.TIM_EPOCH_HI.adr then v.extractLsb' 32 32
        else if a = R.TIM_EPOCH_LO.adr then v.extractLsb' 0 32 else d.rd a
    | none => d.rd a
  let epoch := if d.time.epochPend.isSome then [R.TIM_EPOCH_LO.adr, R.TIM_EPOCH_HI.adr] else []
  let bytes := (d.mode.copyMap.flatMap (fun p => (d.peek p.1 p.2).zipIdx.map (fun (q : Byte × Nat) => (p.1 + q.2, q.1)))) ++
    d.twin.wroteWin.flatMap (fun w => (d.peek w.addr w.bytes.length).zipIdx.map (fun (q : Byte × Nat) => (w.addr + q.2, q.1)))
  { tick := d.tick, mode := d.omode, epoch := d.fld R.TW_STAT.epoch,
    regs := (copiedRegs ++ d.twin.wrote ++ epoch).map (fun a => (a, val a)),
    canvas := bytes, axes := d.axes, decs := d.decs, prfs := d.prfs, cmps := d.cmps, loops := d.loops,
    grps := d.grps, rcps := d.rcp.rcps, nextId := d.rcp.nextId, usedIds := d.rcp.usedIds, edges := d.rcp.edges,
    sched := d.sched, pend := d.flag R.ML_SCHED_STAT.pend, target := d.net.target, reqTick := d.net.reqTick,
    decided := d.net.decided, commit := d.net.commit, abortReq := d.net.abortReq, cancelLeft := d.net.cancelLeft }

/-- The state copy of the present tick: with a payload that meets no uncorrectable byte it is good; its end is
reckoned from the deadline at 16 bytes of framing for each started KiB, 4 bytes of copy CRC and 3.125 GB/s
(R26, R476, R523, TW_COPY). DEDUCED, log entry 44. -/
def Dev.sendCopy (d : Dev) : Dev :=
  let size := d.mode.stateImage
  let good := d.mode.copyMap.all (fun p => ! d.anyBad p.1 p.2)
  let bytes := size + 16 * ((size + 1023) / 1024) + 4
  let endNs := d.easel.deadlineNs + bytes * 8 / 25
  let d := if good then d else
    d.mode.copyMap.foldl (fun d p => (d.readBytes reqTwin p.1 p.2).1) d
  ((d.twSend (.copy size d.copyImage good)).set R.TW_COPY.size (satN 16 size)).set R.TW_COPY.end_4ns (satN 16 (endNs / 4))

/-- STATE_COPY: the active unit of a twin whose copies run, once the deadline has passed and no commit is in
progress (R26, R256, R472). -/
def execStateCopy (s : State) : Host.Outcome State Fault Refusal :=
  s.onDev (fun d =>
    if d.time.numbered ∧ d.easel.closed ∧ d.isActive ∧ d.twUp ∧ d.twin.copyOn ∧
        (List.range 4).all (fun e => ! (d.eng e).busy) then d.sendCopy
    else d)

/-! ## The tick instant (R13, R27, R32, R58 to R63, R198, R214) -/

/-- A share of a window of time, UQ0.16 (R214). -/
def loadOf (busy window : Nat) : Nat := if window = 0 then 0 else satN 16 (busy * 65536 / window)

/-- The dispatcher's figures of the tick that ends, and its own state for the one that begins (R195, R200, R214,
EZ_DEADLINE, EZ_RELEASE, EZ_TICK_JOBS, EZ_TICK_REL, EZ_ENG_FIN). DEDUCED, log entry 46. -/
def Dev.easelTick (d : Dev) : Dev :=
  let t := d.time.tickNs
  let d := (List.range 3).foldl (fun d k => if (d.running k).isSome then d.accrue k t else d) d
  let z := d.easel
  let d := ((d.set R.EZ_TICK_JOBS.skipped (satN 8 z.skipCnt)).set R.EZ_TICK_JOBS.aborted (satN 8 z.abortCnt)).set
    R.EZ_TICK_JOBS.done (satN 16 z.doneCnt)
  let d := (d.set R.EZ_TICK_REL.late_rel (satN 16 z.lateRel)).set R.EZ_TICK_REL.rel (satN 16 z.relCnt)
  let d := (List.range 4).foldl (fun d e =>
    let f := satN 16 (nth z.fin e / 4)
    (d.set (R.EZ_ENG_FIN.fin_4ns e) f).raise (R.EZ_ENG_FIN.fin_max_4ns e) f) d
  let busy := (List.range 7).map (fun e => ((nth z.busyNow e) :: (z.busy.getD e [])).take 1024)
  let d := (List.range 7).foldl (fun d e =>
    let l := busy.getD e []
    let d := (d.set (R.EZ_ENG_LOAD.load_1 e) (loadOf (nth l 0) t)).set (R.EZ_ENG_LOAD.load_32 e)
      (loadOf (l.take 32).sum (32 * t))
    d.set (R.EZ_ENG_LOAD1K.load_1k e) (loadOf l.sum (1024 * t))) d
  d.updEasel (fun z => { z with
    sources := [], released := false, closed := false,
    deadlineNs := d.fld R.EZ_DEADLINE.deadline_ns, releaseNs := d.fld R.EZ_RELEASE.release_ns,
    doneCnt := 0, abortCnt := 0, skipCnt := 0, relCnt := 0, lateRel := 0, fin := [0, 0, 0, 0],
    busyNow := [0, 0, 0, 0, 0, 0, 0], thrAt := [0, 0, 0], busy := busy })

/-- The event classes of the completed tick are shown, and ticks of two or more counted (TIM_EVT_LAST). -/
def Dev.evtLast (d : Dev) : Dev :=
  let c := d.time.evtCls
  let n := ((List.range 6).filter (fun k => c / 2 ^ k % 2 == 1)).length
  let d := d.set R.TIM_EVT_LAST.cls c
  if 2 ≤ n then d.bump R.TIM_EVT_LAST.coinc_cnt else d

/-- The twin's state of one tick ends with it (R469, R475, R478, TW_STAT.hb). DEDUCED, log entry 44. -/
def Dev.twinTurn (d : Dev) : Dev :=
  (d.setB R.TW_STAT.hb d.twin.hbNow).updTwin (fun z => { z with
    hbNow := false, cycNow := false, frameNow := false, wrote := [], wroteWin := [],
    diffStns := z.diffNow, diffNow := [] })

/-- What a safety function has demanded of an axis takes effect with the axis computation of the new tick:
Stopping of an SS1 of an earlier tick, and Safe-off where no permission stands (R431). -/
def Dev.axSafety (d : Dev) (a : Nat) : Dev :=
  let d := match (d.ax a).ss1 with
    | some k =>
      if k < d.tick then
        (if d.axDriven a then d.axStop a false else d).updAx a (fun x => { x with ss1 := none })
      else d
    | none => d
  if d.axPermitted a then d else d.axSafeOff a

/-- The device at T(n): the tick that ends is closed and shown, the number advances, changes that wait for a tick
instant take effect, and the standby takes the copy (R27, R32, R42, R49, R58, R198, R201, R302, R472, R489).
DEDUCED, log entry 14. -/
def Dev.turn (d : Dev) : Dev :=
  let n := d.tick
  let d := d.updTime (fun z => { z with tick := n + 1, clock := z.clock + z.tickNs })
  let d := d.wr R.TIM_TICK_CNT.adr (word (n + 1))
  let d := ((d.evtLast.edgeTurn.easelTick).updMode (fun m => { m with idleLeft := m.idleLeft - 1 })).updTime
    (fun z => { z with tickOut := d.rd R.TIM_TICK_OUT.adr, tickOutEn := d.flag R.TIM_CFG.tick_out_en })
  let d := (d.twinTurn.copyTick n).roleTick
  let d := d.netTick.epochTake
  let d := { d with regsT := d.regs }
  let d := d.axesUsed.foldl (fun d a => (d.prfTick a).axSafety a) d
  let d := (List.range 16).foldl Dev.cmpTick d
  let d := d.pduClear
  (d.updEasel (fun z => { z with jobsFrom := d.cmdMode })).loadCounters.showEasel

/-- The host messages of the tick take effect, last of all classes (R59, R61); causes and erasures of the tick
are then past (R565, R582). DEDUCED, log entry 14. -/
def Dev.hostTurn (d : Dev) : Dev := d.hostMsgs.updMode (fun m => { m with cause := none, erasing := false })

/-- The device's part of a tick instant: none before its first tick (R60). Where the deadline of the tick that
ends has not been taken, its work is done now. DEDUCED, log entry 13. -/
def Dev.tickInstant (d : Dev) : Dev :=
  let d := if d.time.numbered ∧ ! d.easel.closed then d.deadline else d
  let d := { d.coldAbortTick with out := [] }
  if d.time.numbered then d.turn.hostTurn else d

/-- TICK_INSTANT: stations sample and number the next tick, the device turns to it (R13, R82, R163, R169).
DEDUCED, log entry 14. -/
def execTickInstant (samples : List StSample) (s : State) : Host.Outcome State Fault Refusal :=
  let fore := s.dev.flag R.TIM_CFG.forerunner
  .next { s with
    dev := s.dev.tickInstant,
    stations := s.stations.map (fun (p : Nat × StationSt) =>
      let ok := [0, 1].all (fun side => ! ((p.2.ports.getD side {}).link) || s.dev.linkHeld p.1 side)
      (p.1, p.2.tickInstant fore ok (samples.find? (fun x => x.addr = p.1)))) }

/-! ## The start of the frames (R14, R24, R66, R75 to R78, R90, R115, R464, R469) -/

/-- The header word of a segment (R76). -/
def segHdr (ptype words kind valid addr : Nat) : Word :=
  word (ptype * 2 ^ 24 + words * 2 ^ 16 + valid * 2 ^ 9 + kind * 2 ^ 8 + addr)

/-- The command words of one axis within a payload, switched off where the axis entered a state without a
switching bridge before this tick, whatever its job wrote (R292, R431). -/
def Dev.axOverlay (d : Dev) (ws : List Word) (a : Nat) : List Word :=
  let n := if d.akind a = 1 then 4 else 3
  let off := [aOff, aCoasting, aLost, aFault, aSafeOff].contains (d.astate a) && decide ((d.ax a).stateTick < d.tick)
  if off then setNth ws (1 + n * d.fld (R.AX_CFG.slot a))
      (if d.akind a = 1 then (d.idleWords a).headD 0 else d.stpWord0 a false true)
  else ws

/-- The safety PDUs of the frame within a payload (R157, R444). -/
def Dev.safeOverlay (d : Dev) (s : Nat) (ws : List Word) : List Word :=
  match d.stBlkM d.sched s 6 with
  | some (o, n, _) => ws.take o ++ fitWords ((d.connsOf s).flatMap d.pduFor) n ++ ws.drop (o + n)
  | none => ws

/-- The command segment of a station, read from the Canvas by the line port. An uncorrectable byte, or a standby
whose segments are not selectable, gives the complement of its CRC (R75, R76, R90, R464). DEDUCED, log entry 64. -/
def Dev.cmdSeg (d : Dev) (z : StLayout) : Dev × Seg :=
  let code := memCode 0 z.cmdAddr
  let ws := d.peekWords code z.cmdWords
  let (d, r) := d.readBytes reqLine code (4 * z.cmdWords)
  let ws := (d.axesUsed.filter (fun a => d.fld (R.AX_CFG.stn a) == z.addr)).foldl d.axOverlay ws
  let ws := d.safeOverlay z.addr ws
  let bad := r.isNone || (d.isStandby && ! d.twin.sel)
  (d, { hdr := segHdr z.ptype z.cmdWords 0 1 z.addr, words := ws, crc := if bad then .complement else .correct })

/-- The placeholder of a station's feedback (R78). -/
def placeholder (z : StLayout) : Seg :=
  { hdr := segHdr z.ptype z.fbWords 1 0 z.addr, words := List.replicate z.fbWords 0 }

/-- The head segment of a line's frame (R77, R127, R139, R143). -/
def Dev.headSeg (d : Dev) (l : Nat) : HeadSeg :=
  let cancel := decide (0 < d.net.cancelLeft)
  let since := d.net.reqTick + (if d.isStandby then 2 else 1)
  let ann := d.flag R.ML_SCHED_STAT.pend && decide (since ≤ d.tick) && decide (d.tick < d.net.target)
  { reint := (((d.line l).reintCur).map (·.1)).getD 0, cancel := cancel, ann := ann && ! cancel,
    tgt := if cancel || ann then d.fld R.ML_SCHED_STAT.pend_tgt else 0, sched := d.sched,
    tgtTick := if cancel || ann then word d.net.target else 0, applyOfs := (d.line l).applyOfs }

/-- The CYC frame of a line is sent: command and collect segments in the order in which the frame reaches the
stations (R66, R75). -/
def Dev.sendCyc (d : Dev) (l : Nat) : Dev :=
  let up := ((d.layout? d.sched l).getD {}).stations
  let sts := if d.unitId = 0 then up else up.reverse
  let p := sts.foldl (fun (p : Dev × List Seg) z =>
    let (d, g) := p.1.cmdSeg z
    (d, p.2 ++ [g])) (d, [])
  let d := p.1
  (d.emit (.cyc l { hdr := d.hdrAt (d.fld R.TIM_TX_OFS.tx_ofs_ns), head := d.headSeg l, cmds := p.2,
                    fbs := sts.map placeholder })).bump (R.ML_CNT.cnt l 0)

/-- The CST frame of a line (R115). -/
def Dev.sendCst (d : Dev) (l : Nat) : Dev :=
  let h := d.hdrAt (d.fld R.TIM_TX_OFS.tx_ofs_ns)
  d.emit (.cst l { hdr := { h with act := false, lead := true, epoch := 0 }, tickNs := d.time.tickNs,
                   initSched := d.fld R.ML_NET_CFG.init_sched, phase := b2n (d.net.hstate == .coldD) })

/-- The heartbeat of the unit (R469). -/
def Dev.heartbeat (d : Dev) : Heartbeat :=
  { unit := d.unitId, act := d.isActive, lead := d.leads, fit := d.flag R.TW_STAT.fit, leaving := d.twin.leaving,
    mode := d.omode, tstate := d.tstate, epoch := d.fld R.TW_STAT.epoch, tick := word d.tick,
    relReq := ((List.range 8).map (fun l => if d.lineCut l then 2 ^ l else 0)).sum, cfgCrc := d.rd R.TW_CFG_CRC.adr }

/-- The frames of the tick: CST frames in COLD_C and COLD_D, CYC frames in GATHER and SYNCED, on every enabled line
with link; then the heartbeat, the TIME frame and the slow-state pages of the twin link, and IDENT until the partner's has
arrived (R14, R115, R116, R469 to R472). -/
def Dev.frames (d : Dev) : Dev :=
  let ls := d.linesOn.filter (fun l => d.flag (R.ML_STAT.link l))
  let d := match d.net.hstate with
    | .coldC | .coldD => ls.foldl Dev.sendCst d
    | .gather | .synced => ls.foldl Dev.sendCyc d
    | .listen | .follow => d
  let d := if d.tstate = tIdent ∧ ! d.twin.identRx then d.sendIdent else d
  ((d.twSend (.heartbeat d.heartbeat)).sendTime).sendPages

/-- FRAME_TX_START (R14, R588). -/
def execFrameTxStart (s : State) : Host.Outcome State Fault Refusal :=
  s.onDev (fun d => if d.time.numbered ∧ d.txOn then d.frames else d)

/-! ## The debug port (R617) -/

/-- DEBUG_PORT_ACCESS: an identification read is always answered; once key slot 0 is provisioned the port answers
nothing else; before, the spec permits other accesses and does not say what they do (R617).
DESIGN CHOICE, log entry 67. -/
def execDebugPortAccess (idRead : Bool) (s : State) : Host.Outcome State Fault Refusal :=
  if idRead then s.onDev (fun d => d.emit .debugId)
  else if (s.dev.keySlot 0).prov then s.onDev (fun d => d.emit .debugNone)
  else .refused .debugPortUndescribed

end Sys2Proof.Machine
end

