-- ==== Sys2Proof/Machine/Dispatch.lean ====
section
/-! DEFINITION. The dispatch: one arm per command, each one call of its meaning. -/

namespace Sys2Proof.Machine

/-- The effect of a command on everything but the queue. -/
def exec (i : Instr) (s : State) : Host.Outcome State Fault Refusal :=
  match i with
  | .tickInstant samples => Sys2Proof.Machine.execTickInstant samples s
  | .frameTxStart => Sys2Proof.Machine.execFrameTxStart s
  | .tickOutPulse => Sys2Proof.Machine.execTickOutPulse s
  | .extTickEdge ofsNs => Sys2Proof.Machine.execExtTickEdge ofsNs s
  | .extTickLost => Sys2Proof.Machine.execExtTickLost s
  | .timNowLoRead m ofsNs => Sys2Proof.Machine.execTimNowLoRead m ofsNs s
  | .timEpochLoWrite m v => Sys2Proof.Machine.execTimEpochLoWrite m v s
  | .timEpochHiWrite m v => Sys2Proof.Machine.execTimEpochHiWrite m v s
  | .timCfgWrite tick v => Sys2Proof.Machine.execTimCfgWrite tick v s
  | .ezDeadline => Sys2Proof.Machine.execEzDeadline s
  | .stateCopy => Sys2Proof.Machine.execStateCopy s
  | .ezRelease => Sys2Proof.Machine.execEzRelease s
  | .easelTimer k => Sys2Proof.Machine.execEaselTimer k s
  | .feedbackSegmentRx line seg atNs eccBad => Sys2Proof.Machine.execFeedbackSegmentRx line seg atNs eccBad s
  | .safetyPduRx c pdu => Sys2Proof.Machine.execSafetyPduRx c pdu s
  | .jobDispatch => Sys2Proof.Machine.execJobDispatch s
  | .jobStart e atNs => Sys2Proof.Machine.execJobStart e atNs s
  | .mpy e f1 => Sys2Proof.Machine.execMpy e f1 s
  | .mac e f1 => Sys2Proof.Machine.execMac e f1 s
  | .msu e f1 => Sys2Proof.Machine.execMsu e f1 s
  | .mpys e f1 => Sys2Proof.Machine.execMpys e f1 s
  | .macs e f1 => Sys2Proof.Machine.execMacs e f1 s
  | .msus e f1 => Sys2Proof.Machine.execMsus e f1 s
  | .clr e m => Sys2Proof.Machine.execClr e m s
  | .adda e a c => Sys2Proof.Machine.execAdda e a c s
  | .suba e a c => Sys2Proof.Machine.execSuba e a c s
  | .mova e a c => Sys2Proof.Machine.execMova e a c s
  | .sha e a imm => Sys2Proof.Machine.execSha e a imm s
  | .norm e a g => Sys2Proof.Machine.execNorm e a g s
  | .expa e a g => Sys2Proof.Machine.execExpa e a g s
  | .insa e a d lane => Sys2Proof.Machine.execInsa e a d lane s
  | .exta e a imm d lane => Sys2Proof.Machine.execExta e a imm d lane s
  | .vadd e f1 => Sys2Proof.Machine.execVadd e f1 s
  | .vsub e f1 => Sys2Proof.Machine.execVsub e f1 s
  | .vmin e f1 => Sys2Proof.Machine.execVmin e f1 s
  | .vmax e f1 => Sys2Proof.Machine.execVmax e f1 s
  | .vmov e f1 => Sys2Proof.Machine.execVmov e f1 s
  | .vneg e f1 => Sys2Proof.Machine.execVneg e f1 s
  | .ldd e a r => Sys2Proof.Machine.execLdd e a r s
  | .std e a r => Sys2Proof.Machine.execStd e a r s
  | .ldh e a r lane => Sys2Proof.Machine.execLdh e a r lane s
  | .sth e a r lane => Sys2Proof.Machine.execSth e a r lane s
  | .ldbh e a r => Sys2Proof.Machine.execLdbh e a r s
  | .ldg e a r => Sys2Proof.Machine.execLdg e a r s
  | .stg e a r => Sys2Proof.Machine.execStg e a r s
  | .lda e a c => Sys2Proof.Machine.execLda e a c s
  | .sta e a c sh => Sys2Proof.Machine.execSta e a c sh s
  | .ldx e a c => Sys2Proof.Machine.execLdx e a c s
  | .stx e a c => Sys2Proof.Machine.execStx e a c s
  | .movi e g imm => Sys2Proof.Machine.execMovi e g imm s
  | .movhi e g imm => Sys2Proof.Machine.execMovhi e g imm s
  | .addi e g imm => Sys2Proof.Machine.execAddi e g imm s
  | .addg e g k => Sys2Proof.Machine.execAddg e g k s
  | .subg e g k => Sys2Proof.Machine.execSubg e g k s
  | .cmpg e g k => Sys2Proof.Machine.execCmpg e g k s
  | .cmpi e g imm => Sys2Proof.Machine.execCmpi e g imm s
  | .movs e g s1 => Sys2Proof.Machine.execMovs e g s1 s
  | .movp e g s1 => Sys2Proof.Machine.execMovp e g s1 s
  | .jst e g k => Sys2Proof.Machine.execJst e g k s
  | .b e cond target => Sys2Proof.Machine.execB e cond target s
  | .rpti e count last => Sys2Proof.Machine.execRpti e count last s
  | .rptg e g last => Sys2Proof.Machine.execRptg e g last s
  | .xin e p q n => Sys2Proof.Machine.execXin e p q n s
  | .xinComplete e => Sys2Proof.Machine.execXinComplete e s
  | .waitx e => Sys2Proof.Machine.execWaitx e s
  | .endJob e => Sys2Proof.Machine.execEndJob e s
  | .nop e => Sys2Proof.Machine.execNop e s
  | .jobCommitComplete e atNs => Sys2Proof.Machine.execJobCommitComplete e atNs s
  | .take k atNs => Sys2Proof.Machine.execTake k atNs s
  | .wait k atNs => Sys2Proof.Machine.execWait k atNs s
  | .done k atNs => Sys2Proof.Machine.execDone k atNs s
  | .sig k cnt atNs => Sys2Proof.Machine.execSig k cnt atNs s
  | .yield k atNs => Sys2Proof.Machine.execYield k atNs s
  | .start k thread atNs => Sys2Proof.Machine.execStart k thread atNs s
  | .ezSig m v atNs => Sys2Proof.Machine.execEzSig m v atNs s
  | .ezHistClr => Sys2Proof.Machine.execEzHistClr s
  | .ezMaxClr => Sys2Proof.Machine.execEzMaxClr s
  | .spillReadback eccBad => Sys2Proof.Machine.execSpillReadback eccBad s
  | .brPmDataWrite m v => Sys2Proof.Machine.execBrPmDataWrite m v s
  | .brPmDataRead m => Sys2Proof.Machine.execBrPmDataRead m s
  | .brCntClr => Sys2Proof.Machine.execBrCntClr s
  | .cycRx line f1 atNs lastNs => Sys2Proof.Machine.execCycRx line f1 atNs lastNs s
  | .cstRx line f1 => Sys2Proof.Machine.execCstRx line f1 s
  | .almRx line f1 atNs lastNs => Sys2Proof.Machine.execAlmRx line f1 atNs lastNs s
  | .frameCut line atNs addr => Sys2Proof.Machine.execFrameCut line atNs addr s
  | .reservedFrameRx line type => Sys2Proof.Machine.execReservedFrameRx line type s
  | .mbxRequest line addr => Sys2Proof.Machine.execMbxRequest line addr s
  | .mbxReplyRx line r atNs lastNs => Sys2Proof.Machine.execMbxReplyRx line r atNs lastNs s
  | .readId st index count => Sys2Proof.Machine.execReadId st index count s
  | .writeCfg st index words => Sys2Proof.Machine.execWriteCfg st index words s
  | .commitCfg st mode crc => Sys2Proof.Machine.execCommitCfg st mode crc s
  | .readCfg st index count => Sys2Proof.Machine.execReadCfg st index count s
  | .readDiag st index count => Sys2Proof.Machine.execReadDiag st index count s
  | .dropCfg st mode => Sys2Proof.Machine.execDropCfg st mode s
  | .bcnTx => Sys2Proof.Machine.execBcnTx s
  | .bcnRx p f1 atNs => Sys2Proof.Machine.execBcnRx p f1 atNs s
  | .delayExchangeStart egressPs => Sys2Proof.Machine.execDelayExchangeStart egressPs s
  | .dreqRx p ingressPs turnaroundPs => Sys2Proof.Machine.execDreqRx p ingressPs turnaroundPs s
  | .drspRx p atNs ingressPs turnaroundPs => Sys2Proof.Machine.execDrspRx p atNs ingressPs turnaroundPs s
  | .lineLinkLoss p => Sys2Proof.Machine.execLineLinkLoss p s
  | .lineLinkGain p => Sys2Proof.Machine.execLineLinkGain p s
  | .mlRxReopen line => Sys2Proof.Machine.execMlRxReopen line s
  | .mlCntClr line => Sys2Proof.Machine.execMlCntClr line s
  | .listenTimeExpiry => Sys2Proof.Machine.execListenTimeExpiry s
  | .coldDEntry => Sys2Proof.Machine.execColdDEntry s
  | .gatherEntry => Sys2Proof.Machine.execGatherEntry s
  | .gatherTimeout => Sys2Proof.Machine.execGatherTimeout s
  | .followSynced => Sys2Proof.Machine.execFollowSynced s
  | .roleWaitTimeout => Sys2Proof.Machine.execRoleWaitTimeout s
  | .leaderLossBeforeSync => Sys2Proof.Machine.execLeaderLossBeforeSync s
  | .windowsReenable st => Sys2Proof.Machine.execWindowsReenable st s
  | .stReint st => Sys2Proof.Machine.execStReint st s
  | .stWinEn st => Sys2Proof.Machine.execStWinEn st s
  | .stCntClr st => Sys2Proof.Machine.execStCntClr st s
  | .schedReq lead tgt => Sys2Proof.Machine.execSchedReq lead tgt s
  | .schedAbort => Sys2Proof.Machine.execSchedAbort s
  | .schedDecision => Sys2Proof.Machine.execSchedDecision s
  | .schedSwitch => Sys2Proof.Machine.execSchedSwitch s
  | .stationCycRx st side f1 ingressNs atNs residence => Sys2Proof.Machine.execStationCycRx st side f1 ingressNs atNs residence s
  | .stationApplyDeadline st => Sys2Proof.Machine.execStationApplyDeadline st s
  | .stationApply st => Sys2Proof.Machine.execStationApply st s
  | .timedOutputFire st id => Sys2Proof.Machine.execTimedOutputFire st id s
  | .stationAlarmSlot st => Sys2Proof.Machine.execStationAlarmSlot st s
  | .stationPduEval st unit conn pdu => Sys2Proof.Machine.execStationPduEval st unit conn pdu s
  | .axEnable a => Sys2Proof.Machine.execAxEnable a s
  | .axDisable a => Sys2Proof.Machine.execAxDisable a s
  | .axReset a => Sys2Proof.Machine.execAxReset a s
  | .axCntClr a => Sys2Proof.Machine.execAxCntClr a s
  | .axRefWrite a v => Sys2Proof.Machine.execAxRefWrite a v s
  | .coastTimeout a => Sys2Proof.Machine.execCoastTimeout a s
  | .catchTimeout a => Sys2Proof.Machine.execCatchTimeout a s
  | .brakeReleaseDone a => Sys2Proof.Machine.execBrakeReleaseDone a s
  | .stoppingDone a => Sys2Proof.Machine.execStoppingDone a s
  | .triesReset a => Sys2Proof.Machine.execTriesReset a s
  | .stepperCatchDone a => Sys2Proof.Machine.execStepperCatchDone a s
  | .holdCurrentTimeout a => Sys2Proof.Machine.execHoldCurrentTimeout a s
  | .moveAbs a => Sys2Proof.Machine.execMoveAbs a s
  | .moveRel a => Sys2Proof.Machine.execMoveRel a s
  | .stop a => Sys2Proof.Machine.execStop a s
  | .flush a => Sys2Proof.Machine.execFlush a s
  | .prfReservedOp a op => Sys2Proof.Machine.execPrfReservedOp a op s
  | .profileLateStop a => Sys2Proof.Machine.execProfileLateStop a s
  | .axEmuCfgWrite a res v => Sys2Proof.Machine.execAxEmuCfgWrite a res v s
  | .axFbPofsWrite a v => Sys2Proof.Machine.execAxFbPofsWrite a v s
  | .compareEvaluation l => Sys2Proof.Machine.execCompareEvaluation l s
  | .axCmpArm l v => Sys2Proof.Machine.execAxCmpArm l v s
  | .axCmpRewind l => Sys2Proof.Machine.execAxCmpRewind l s
  | .axCmpCntClr l => Sys2Proof.Machine.execAxCmpCntClr l s
  | .plAuto n => Sys2Proof.Machine.execPlAuto n s
  | .plManual n => Sys2Proof.Machine.execPlManual n s
  | .plResume n => Sys2Proof.Machine.execPlResume n s
  | .plReset n => Sys2Proof.Machine.execPlReset n s
  | .plCfgWrite n v => Sys2Proof.Machine.execPlCfgWrite n v s
  | .plCoefWrite n k v => Sys2Proof.Machine.execPlCoefWrite n k v s
  | .plGrpCntClr g => Sys2Proof.Machine.execPlGrpCntClr g s
  | .recipeStart r step => Sys2Proof.Machine.execRecipeStart r step s
  | .recipeHold r => Sys2Proof.Machine.execRecipeHold r s
  | .recipeResume r => Sys2Proof.Machine.execRecipeResume r s
  | .recipeAbort r => Sys2Proof.Machine.execRecipeAbort r s
  | .recipeReset r => Sys2Proof.Machine.execRecipeReset r s
  | .resumeJnl r => Sys2Proof.Machine.execResumeJnl r s
  | .stepStart r => Sys2Proof.Machine.execStepStart r s
  | .actionTo r stn output ofsNs act => Sys2Proof.Machine.execActionTo r stn output ofsNs act s
  | .actionDo r stn point on => Sys2Proof.Machine.execActionDo r stn point on s
  | .actionAo r stn chan v => Sys2Proof.Machine.execActionAo r stn chan v s
  | .actionSp r loop rampUs target => Sys2Proof.Machine.execActionSp r loop rampUs target s
  | .spRampStep r => Sys2Proof.Machine.execSpRampStep r s
  | .actionLoop r loop auto => Sys2Proof.Machine.execActionLoop r loop auto s
  | .actionMove r a target rel => Sys2Proof.Machine.execActionMove r a target rel s
  | .actionStop r a => Sys2Proof.Machine.execActionStop r a s
  | .actionSpd r a v => Sys2Proof.Machine.execActionSpd r a v s
  | .actionArm r l arm => Sys2Proof.Machine.execActionArm r l arm s
  | .actionFlag r flag on => Sys2Proof.Machine.execActionFlag r flag on s
  | .actionSig r cnt => Sys2Proof.Machine.execActionSig r cnt s
  | .actionCnt r c v add => Sys2Proof.Machine.execActionCnt r c v add s
  | .retractionJudgement r id => Sys2Proof.Machine.execRetractionJudgement r id s
  | .journalCommit ok => Sys2Proof.Machine.execJournalCommit ok s
  | .safeInputChange b level => Sys2Proof.Machine.execSafeInputChange b level s
  | .safeInputFiltered b => Sys2Proof.Machine.execSafeInputFiltered b s
  | .discrepancyTimeout => Sys2Proof.Machine.execDiscrepancyTimeout s
  | .channelCompare agree crcOk => Sys2Proof.Machine.execChannelCompare agree crcOk s
  | .ss1TmaxExpiry a => Sys2Proof.Machine.execSs1TmaxExpiry a s
  | .ss1Standstill a => Sys2Proof.Machine.execSs1Standstill a s
  | .readbackFault hs => Sys2Proof.Machine.execReadbackFault hs s
  | .testPulse hs ok => Sys2Proof.Machine.execTestPulse hs ok s
  | .pduWatchdogExpiry c => Sys2Proof.Machine.execPduWatchdogExpiry c s
  | .joiningRelease z => Sys2Proof.Machine.execJoiningRelease z s
  | .sfDemSto mask => Sys2Proof.Machine.execSfDemSto mask s
  | .sfDemSs1 mask => Sys2Proof.Machine.execSfDemSs1 mask s
  | .sfCntClr => Sys2Proof.Machine.execSfCntClr s
  | .safetyReset zone pulseMs => Sys2Proof.Machine.execSafetyReset zone pulseMs s
  | .lockoutRetestDone pass => Sys2Proof.Machine.execLockoutRetestDone pass s
  | .twBlockLockGain => Sys2Proof.Machine.execTwBlockLockGain s
  | .twBlockLockLoss => Sys2Proof.Machine.execTwBlockLockLoss s
  | .twHbRx hb => Sys2Proof.Machine.execTwHbRx hb s
  | .ident pairId unit cfgCrc => Sys2Proof.Machine.execIdent pairId unit cfgCrc s
  | .copy ofs data last crc img => Sys2Proof.Machine.execCopy ofs data last crc img s
  | .relay line seg atNs => Sys2Proof.Machine.execRelay line seg atNs s
  | .time txTime txPs rxTime rxPs ingressPs => Sys2Proof.Machine.execTime txTime txPs rxTime rxPs ingressPs s
  | .health w => Sys2Proof.Machine.execHealth w s
  | .rsync page data last => Sys2Proof.Machine.execRsync page data last s
  | .handover target => Sys2Proof.Machine.execHandover target s
  | .leaving => Sys2Proof.Machine.execLeaving s
  | .resyncReq => Sys2Proof.Machine.execResyncReq s
  | .resyncDone => Sys2Proof.Machine.execResyncDone s
  | .refuse reason => Sys2Proof.Machine.execRefuse reason s
  | .healthReport => Sys2Proof.Machine.execHealthReport s
  | .healthMissing => Sys2Proof.Machine.execHealthMissing s
  | .twLinkSilence => Sys2Proof.Machine.execTwLinkSilence s
  | .linesDeadHandover => Sys2Proof.Machine.execLinesDeadHandover s
  | .twSwitch => Sys2Proof.Machine.execTwSwitch s
  | .twResync => Sys2Proof.Machine.execTwResync s
  | .twCntClr => Sys2Proof.Machine.execTwCntClr s
  | .presentNDeassert => Sys2Proof.Machine.execPresentNDeassert s
  | .withdrawalIdle => Sys2Proof.Machine.execWithdrawalIdle s
  | .streamAck s1 ack win => Sys2Proof.Machine.execStreamAck s1 ack win s
  | .streamDatagram => Sys2Proof.Machine.execStreamDatagram s
  | .streamResend => Sys2Proof.Machine.execStreamResend s
  | .streamStall => Sys2Proof.Machine.execStreamStall s
  | .vnCntClr => Sys2Proof.Machine.execVnCntClr s
  | .vnOfsLoRead m ack => Sys2Proof.Machine.execVnOfsLoRead m ack s
  | .skArm u => Sys2Proof.Machine.execSkArm u s
  | .skDisarm u => Sys2Proof.Machine.execSkDisarm u s
  | .skForce u => Sys2Proof.Machine.execSkForce u s
  | .skRdDataRead m => Sys2Proof.Machine.execSkRdDataRead m s
  | .scrubAccess => Sys2Proof.Machine.execScrubAccess s
  | .errorLogCommit => Sys2Proof.Machine.execErrorLogCommit s
  | .eccInjCtrlWrite v => Sys2Proof.Machine.execEccInjCtrlWrite v s
  | .eccRetWrite n v => Sys2Proof.Machine.execEccRetWrite n v s
  | .eccCntClr => Sys2Proof.Machine.execEccCntClr s
  | .hostFrameRx f1 => Sys2Proof.Machine.execHostFrameRx f1 s
  | .arpRequest target => Sys2Proof.Machine.execArpRequest target s
  | .hello slot kind nonce src port => Sys2Proof.Machine.execHello slot kind nonce src port s
  | .auth sid seq hostNonce devNonce tag => Sys2Proof.Machine.execAuth sid seq hostNonce devNonce tag s
  | .close s1 => Sys2Proof.Machine.execClose s1 s
  | .ping s1 => Sys2Proof.Machine.execPing s1 s
  | .read s1 req ranges => Sys2Proof.Machine.execRead s1 req ranges s
  | .write s1 req entries => Sys2Proof.Machine.execWrite s1 req entries s
  | .store s1 req => Sys2Proof.Machine.execStore s1 req s
  | .storeComplete ok => Sys2Proof.Machine.execStoreComplete ok s
  | .commitLc s1 req => Sys2Proof.Machine.execCommitLc s1 req s
  | .discardLc s1 req => Sys2Proof.Machine.execDiscardLc s1 req s
  | .provision s1 req slot priv wrapped => Sys2Proof.Machine.execProvision s1 req slot priv wrapped s
  | .challengeTimeout sid => Sys2Proof.Machine.execChallengeTimeout sid s
  | .sessionIdleTimeout s1 => Sys2Proof.Machine.execSessionIdleTimeout s1 s
  | .tamperTrip => Sys2Proof.Machine.execTamperTrip s
  | .vbatBrownout => Sys2Proof.Machine.execVbatBrownout s
  | .voltageTrip => Sys2Proof.Machine.execVoltageTrip s
  | .temperatureTrip => Sys2Proof.Machine.execTemperatureTrip s
  | .clockTrip => Sys2Proof.Machine.execClockTrip s
  | .secErase s1 => Sys2Proof.Machine.execSecErase s1 s
  | .secTampClr s1 => Sys2Proof.Machine.execSecTampClr s1 s
  | .resetAssert => Sys2Proof.Machine.execResetAssert s
  | .resetRelease roleB powerUp orderOk => Sys2Proof.Machine.execResetRelease roleB powerUp orderOk s
  | .selfTestDone r => Sys2Proof.Machine.execSelfTestDone r s
  | .loadDone img => Sys2Proof.Machine.execLoadDone img s
  | .goRun s1 req => Sys2Proof.Machine.execGoRun s1 req s
  | .goHold s1 req => Sys2Proof.Machine.execGoHold s1 req s
  | .goResume s1 req => Sys2Proof.Machine.execGoResume s1 req s
  | .goReady s1 req => Sys2Proof.Machine.execGoReady s1 req s
  | .goStop s1 req => Sys2Proof.Machine.execGoStop s1 req s
  | .goService s1 req => Sys2Proof.Machine.execGoService s1 req s
  | .svcExit s1 req => Sys2Proof.Machine.execSvcExit s1 req s
  | .restart s1 req => Sys2Proof.Machine.execRestart s1 req s
  | .alarmExit s1 req => Sys2Proof.Machine.execAlarmExit s1 req s
  | .reset s1 req => Sys2Proof.Machine.execReset s1 req s
  | .stopComplete => Sys2Proof.Machine.execStopComplete s
  | .devCntClr => Sys2Proof.Machine.execDevCntClr s
  | .registerWrite by_ addr v mask => Sys2Proof.Machine.execRegisterWrite by_ addr v mask s
  | .stationCstRx st side f1 ingressNs => Sys2Proof.Machine.execStationCstRx st side f1 ingressNs s
  | .extTickColdStartTimeout => Sys2Proof.Machine.execExtTickColdStartTimeout s
  | .hostBlockLockLoss => Sys2Proof.Machine.execHostBlockLockLoss s
  | .hostBlockLockGain => Sys2Proof.Machine.execHostBlockLockGain s
  | .commitLcComplete ok => Sys2Proof.Machine.execCommitLcComplete ok s
  | .resyncPassEnd => Sys2Proof.Machine.execResyncPassEnd s
  | .twFrameDiscard reserved => Sys2Proof.Machine.execTwFrameDiscard reserved s
  | .safetyDiagnosticTest pass => Sys2Proof.Machine.execSafetyDiagnosticTest pass s
  | .safeReadbackChange hs level => Sys2Proof.Machine.execSafeReadbackChange hs level s
  | .debugPortAccess idRead => Sys2Proof.Machine.execDebugPortAccess idRead s
  | .stationPowerUp st kept ident => Sys2Proof.Machine.execStationPowerUp st kept ident s
  | .configurationLost st mode => Sys2Proof.Machine.execConfigurationLost st mode s
  | .reservedOpcode e op => Sys2Proof.Machine.execReservedOpcode e op s

end Sys2Proof.Machine
end

