-- ==== Sys2Proof/Safety.lean ====
section
/-! DEFINITION. What counts as a safe run, and the words that claims use: invariants, readiness of an
engine, and what a command leaves as it was. -/

namespace Sys2Proof

open Machine

/-- A step runs: it answers a next state. -/
def Runs (s : State) : Prop := ∃ t, step s = .next t

/-- The registers are in canonical form. -/
def RegsOk (d : Dev) : Prop := Sparse.wf resetWord d.regs = true

/-- The memory is in canonical form. -/
def MemOk (d : Dev) : Prop := Memory.wf d.mem = true

/-- The stations stand by strictly rising address, each under its own address. -/
def StationsOk (s : State) : Prop :=
  (s.stations.map Prod.fst).Pairwise (· < ·) ∧ ∀ p ∈ s.stations, p.2.addr = p.1

/-- Every station holds at most as many timed-output entries as its identity record declares
(R152, R180). -/
def TosOk (s : State) : Prop :=
  ∀ p ∈ s.stations, p.2.tos.length ≤ (nthW p.2.ident 3).toNat / 256 % 256

/-- Every register outside a list of addresses reads as before. -/
def RegsKept (s t : State) (l : List Nat) : Prop := ∀ a, a ∉ l → t.dev.rd a = s.dev.rd a

/-- Everything but the registers of the device is as it was. -/
def OnlyRegs (s t : State) : Prop := { t with dev := { t.dev with regs := s.dev.regs } } = s

/-- Every bit of every register outside the listed fields reads as before. -/
def BitsKept (s t : State) (l : List Fld) : Prop :=
  ∀ a i, i < 32 → (∀ f ∈ l, f.adr ≠ a ∨ i < f.lo ∨ f.hi < i) →
    (t.dev.rd a).getLsbD i = (s.dev.rd a).getLsbD i

/-- The listed fields read the listed values, and nothing else of the block differs. -/
def FieldsSet (s t : State) (l : List (Fld × Nat)) : Prop :=
  (∀ p ∈ l, t.dev.fld p.1 = p.2) ∧ BitsKept s t (l.map Prod.fst) ∧ OnlyRegs s t

/-- The listed fields read 0, and nothing else of the block differs. -/
def FieldsCleared (s t : State) (l : List Fld) : Prop := FieldsSet s t (l.map (fun f => (f, 0)))

/-- The whole of a register, as a field. -/
def wholeReg (a : Nat) : Fld := ⟨a, 31, 0⟩

/-- The stations and the queue are as they were. -/
def OnlyDev (s t : State) : Prop := { t with dev := s.dev } = s

/-- Every byte of memory reads as before. -/
def MemKept (s t : State) : Prop := ∀ a, t.dev.byteAt a = s.dev.byteAt a

/-- Engine e runs custom code, does not wait, and the word at its program counter is readable without
error. -/
def EngineReady (s : State) (e : Nat) : Prop :=
  (s.dev.eng e).runs = true ∧
  ∀ i, i < 4 → s.dev.flipAt (memCode (8 + e) (4 * (s.dev.eng e).pc.toNat) + i) = 0

/-- Engine e holds after an instruction what `w` holds, but for what every instruction moves: the
program counter, the block repeats with their counters and SR.depth, and the count of cycles, which
rises by n. -/
def EngineHas (t : State) (e : Nat) (w : BrEng) (n : Nat) : Prop :=
  let g := t.dev.eng e
  { g with pc := w.pc, rpts := w.rpts, lc := w.lc, sr := w.sr, cycles := w.cycles } = w ∧
  (∀ i, i < 10 → g.sr.getLsbD i = w.sr.getLsbD i) ∧
  g.cycles = w.cycles + n ∧
  (w.rpts = [] → g.pc = w.pc + 1) ∧
  t.dev.fld (R.BR_E_STAT.pc e) = g.pc.toNat

/-- Nothing but engine e and what BR_E_STAT shows of it differs. -/
def EngineOnly (s t : State) (e : Nat) : Prop :=
  (∀ k, k ≠ e → t.dev.eng k = s.dev.eng k) ∧ RegsKept s t [R.BR_E_STAT.adr e] ∧
  { t with dev := { t.dev with engs := s.dev.engs, regs := s.dev.regs } } = s

/-- Accumulator k and its hold bit are as they were. -/
def AccKept (g g' : BrEng) (k : Fin 4) : Prop := g'.acc.get k = g.acc.get k ∧ g'.held k = g.held k

/-- Accumulator k took a cleared or loaded value; one that is held takes it, and loses its hold, only
where the hold may be lifted (R235, R236). -/
def AccLoaded (g g' : BrEng) (k : Fin 4) (x : Int) : Prop :=
  if g.held k = true ∧ g.mayLift k = false then AccKept g g' k
  else g'.acc.get k = BitVec.ofInt 40 x ∧ g'.held k = false

/-- An exact result overflows an accumulator (R229). -/
def accOverflow (x : Int) : Prop := x < -(2 ^ 39) ∨ 2 ^ 39 - 1 < x

/-- Accumulator k took the exact result of an add: the result itself where it fits, the nearer end of
the range with hold and aov set where it does not; a held one is left unchanged (R229, R234, R235). -/
def AccAdded (g g' : BrEng) (k : Fin 4) (x : Int) : Prop :=
  (g.held k = true → AccKept g g' k) ∧
  (g.held k = false → ¬ accOverflow x → (g'.acc.get k).toInt = x ∧ g'.held k = false) ∧
  (g.held k = false → accOverflow x →
    (g'.acc.get k).toInt = (if 0 < x then 2 ^ 39 - 1 else -(2 ^ 39)) ∧ g'.held k = true)

/-- The pointer of a memory operand after its access, with SR.cbx (R240, R241). -/
def PointerMoved (g g' : BrEng) (m : MemOp) : Prop :=
  let pt := g.pt.get m.p
  let bs := g.bs.get m.p
  let cl := g.cl.get m.p
  let inside := bs.toNat ≤ pt.toNat ∧ pt.toNat < bs.toNat + cl.toNat
  (∀ k, k ≠ m.p → g'.pt.get k = g.pt.get k) ∧
  (m.am = 0 ∨ m.am = 3 → g'.pt.get m.p = pt) ∧
  (m.am = 1 ∨ (m.am = 2 ∧ cl = 0) → g'.pt.get m.p = pt + g.st.get m.p) ∧
  (m.am = 2 ∧ cl ≠ 0 → g'.pt.get m.p =
    BitVec.ofInt 32 (bs.toNat + ((pt.toNat : Int) - bs.toNat + (g.st.get m.p).toInt) % cl.toNat)) ∧
  (g'.sr.getLsbD 6 = true ↔ g.sr.getLsbD 6 = true ∨ (m.am = 2 ∧ cl ≠ 0 ∧ ¬ inside))

/-- The address that a memory operand uses (R240). -/
def operandAddress (g : BrEng) (m : MemOp) : Nat :=
  if m.am = 3 then (g.pt.get m.p + m.disp.signExtend 32).toNat else (g.pt.get m.p).toNat

/-- The byte i of the n bytes at an address, as the job on engine e sees them: in the Canvas window its own
posted bytes before the committed contents (R221, R226). -/
def jobByte (s : State) (e a n i : Nat) : Byte :=
  match jobMem a n with
  | some (.canvas o) =>
    (postedByte (s.dev.eng e).commit (o + i)).getD (s.dev.byteAt (memCode 0 (o + i)))
  | some m => s.dev.byteAt (m.code e + i)
  | none => 0

/-- A load of n bytes can be served: aligned, inside the job's map, without an error in its bytes, and no
outstanding XIN copy writes any of them (R221, R222, R251, R255). -/
def LoadReady (s : State) (e a n : Nat) : Prop :=
  a % n = 0 ∧
  (∃ m, jobMem a n = some m ∧ ∀ i, i < n → s.dev.flipAt (m.code e + i) = 0) ∧
  ∀ x ∈ (s.dev.eng e).xins, a + n ≤ x.dst ∨ x.dst + x.words.length ≤ a

/-- Engine e executed a load of n bytes at an address: as `EngineHas`, with the wait of the window in its
cycles, and nothing but the engine, what BR_E_STAT shows and the count of free values differs (R248). -/
def Loaded (s t : State) (e a _n : Nat) (w : BrEng) : Prop :=
  (∃ wait, EngineHas t e w (1 + wait) ∧ (a < 0x80000 → wait = 0) ∧ wait ≤ 32 ∧ (0x20000000 ≤ a → wait ≤ 20)) ∧
  (∀ k, k ≠ e → t.dev.eng k = s.dev.eng k) ∧ RegsKept s t [R.BR_E_STAT.adr e] ∧
  { t with dev := { t.dev with engs := s.dev.engs, regs := s.dev.regs, free := s.dev.free } } = s

/-- Engine e stored bytes at an address: in local memory at once, in the Canvas window into its commit
buffer, and no other byte of memory reads otherwise (R221, R225, R226). -/
def Stored (s t : State) (e a : Nat) (bs : List Byte) : Prop :=
  match jobMem a bs.length with
  | some (.canvas o) => MemKept s t ∧
      (t.dev.eng e).commit = (s.dev.eng e).commit ++ [{ addr := o, bytes := bs }]
  | _ =>
    (∀ i, i < bs.length → t.dev.byteAt (memCode (4 + e) (a + i)) = bs.getD i 0) ∧
    (∀ c, c < memCode (4 + e) a ∨ memCode (4 + e) a + bs.length ≤ c → t.dev.byteAt c = s.dev.byteAt c) ∧
    (t.dev.eng e).commit = (s.dev.eng e).commit

/-- A store of n bytes can be taken: aligned, into local memory, or into the Canvas window while the commit
buffer has room (R221, R222, R226). -/
def StoreReady (s : State) (e a n : Nat) : Prop :=
  a % n = 0 ∧ ((∃ o, jobMem a n = some (.local_ o)) ∨
    ((∃ o, jobMem a n = some (.canvas o)) ∧ (s.dev.eng e).commit.length < 256))

/-- Whatever a store by engine e may change: the engine, what BR_E_STAT shows, and of the memory its
bytes with what the checker and the twin link keep of a write; every station and every other unit is as it
was. -/
def StoreOnly (s t : State) (e : Nat) : Prop :=
  (∀ k, k ≠ e → t.dev.eng k = s.dev.eng k) ∧
  RegsKept s t [R.BR_E_STAT.adr e, R.ECC_INJ_CTRL.adr] ∧
  { t with dev := { t.dev with engs := s.dev.engs, regs := s.dev.regs, mem := s.dev.mem,
                               ecc := s.dev.ecc, twin := s.dev.twin } } = s

/-- Every engine keeps its limits: 3 active block repeats, 4 outstanding copies, and 256 posted stores that
lie in the Canvas (R226, R243, R251). -/
def EnginesOk (s : State) : Prop :=
  ∀ e : Fin 4, (s.dev.eng e).rpts.length ≤ 3 ∧ (s.dev.eng e).xins.length ≤ 4 ∧
    (s.dev.eng e).commit.length ≤ 256 ∧
    ∀ p ∈ (s.dev.eng e).commit, p.addr + p.bytes.length ≤ 0x600000

/-- The dispatcher has four local queues and three thread engines, and every thread that is ready, running or
pre-empted is one of the 1,024 (R203, R205). -/
def EaselOk (s : State) : Prop :=
  s.dev.easel.queues.length = 4 ∧ s.dev.easel.threads.length = 3 ∧
  (∀ r, some r ∈ s.dev.easel.threads → r < 1024) ∧
  (∀ x ∈ s.dev.easel.ready, x.job = false → x.idx < 1024) ∧ ∀ x ∈ s.dev.easel.preempted, x.idx < 1024

/-- Every counter of a source's link list is the counter of a unit that exists (R191). -/
def LinksOk (s : State) (src : Nat) : Prop := ∀ c ∈ s.dev.links src, c < 4096

/-- The registers that show ready entries, spill and jobs in flight. -/
def easelRegs : List Nat :=
  [R.EZ_SPILL.adr, R.EZ_STAT.adr] ++ (List.range 7).map (fun e => R.EZ_ENG_DEPTH.adr e)

/-- The ready entries with one more at the end: on-chip while fewer than 512 stand there and its list has none
spilled, else in the spill region (R211, R212). -/
def readyWith (s : State) (r : ReadyEnt) : List ReadyEnt :=
  let old := s.dev.easel.ready
  let sp := decide (512 ≤ (old.filter (fun x => ! x.spilled)).length) ||
    old.any (fun x => x.spilled && x.job == r.job && x.eng == r.eng && x.prio == r.prio)
  old ++ [{ r with spilled := sp }]

/-- Each counter of a source's link list is decremented by the times it stands there, not below 0; the counter
of a job that is not due, and every other counter, keeps its value (R191, R192, R198). -/
def SourceSignalled (s t : State) (src : Nat) : Prop :=
  ∀ c, c < 4096 →
    t.dev.fld (R.EZ_CNT.cur c) =
      if s.dev.fld (R.EZ_CNT.kind c) = 1 ∧ s.dev.fld (R.EZ_CNT.tgt c) ∉ s.dev.easel.due then
        s.dev.fld (R.EZ_CNT.cur c)
      else s.dev.fld (R.EZ_CNT.cur c) - (s.dev.links src).count c

/-- A count rose by one, or stands at its all-ones value. -/
def CountedOnce (s t : State) (f : Fld) : Prop :=
  t.dev.fld f = min (2 ^ f.width - 1) (s.dev.fld f + 1)

/-- A babble was counted on a line port, whatever else it led to (R104). -/
def BabbleCounted (s t : State) (l : Nat) : Prop :=
  CountedOnce s t (R.ML_CNT.cnt l 8) ∧ t.dev.flag (R.ML_EVT.babble l) = true ∧ MemKept s t ∧ OnlyDev s t

/-- A line port of the head is enabled and has link. -/
def lineOn (s : State) (l : Nat) : Prop :=
  l < 8 ∧ s.dev.lineEn l = true ∧ s.dev.flag (R.ML_STAT.link l) = true

/-- The operating mode is entered: code, previous mode, reason and carried mode are shown and the transition is
counted; entering the mode that stands changes none of them (R568, R592, R595). -/
def ModeEntered (s t : State) (new reason : Nat) : Prop :=
  t.dev.omode = new ∧
  (s.dev.omode ≠ new →
    t.dev.fld R.DEV_MODE.prev = s.dev.omode ∧ t.dev.fld R.DEV_MODE.reason = reason ∧
    t.dev.fld R.DEV_MODE.carried = carriedOn s.dev.omode new reason ∧ t.dev.flag R.DEV_EVT.mode = true ∧
    CountedOnce s t R.DEV_CNT.trans) ∧
  (s.dev.omode = new → t.dev.rd R.DEV_MODE.adr = s.dev.rd R.DEV_MODE.adr ∧
    t.dev.rd R.DEV_CNT.adr = s.dev.rd R.DEV_CNT.adr)

/-- The unit takes the active role at SYNCED; a device in Listen goes on to Ready, or to Alarm where a trip is
pending (R461, R462, R579). -/
def BecameActive (s t : State) : Prop :=
  t.dev.flag R.TW_STAT.role = true ∧ t.dev.twin.roleKnown = true ∧ t.dev.twin.roleWait = false ∧
  t.dev.twin.sel = true ∧
  (s.dev.omode = mListen → t.dev.omode = if s.dev.flag R.DEV_STAT.alarm_pend then mAlarm else mReady) ∧
  (s.dev.omode ≠ mListen → t.dev.omode = s.dev.omode)

/-- At SYNCED the unit decides its role: alone it is active; in a twin it is standby where the partner is
active, active where it is unit A or leads the time, and waits otherwise (R461, R462, R579). -/
def RoleDecided (s t : State) : Prop :=
  let leads := s.dev.flag R.TIM_STAT.leads = true
  (s.dev.isTwin = false ∨ (s.dev.twin.pAct = false ∧ (s.dev.unitId = 0 ∨ leads)) → BecameActive s t) ∧
  (s.dev.isTwin = true → s.dev.twin.pAct = true →
    t.dev.flag R.TW_STAT.role = false ∧ t.dev.twin.roleKnown = true ∧
    (s.dev.omode = mListen → t.dev.omode = if s.dev.flag R.DEV_STAT.alarm_pend then mAlarm else mShadow)) ∧
  (s.dev.isTwin = true → s.dev.twin.pAct = false → s.dev.unitId ≠ 0 → ¬ leads →
    t.dev.twin.roleWait = true ∧ t.dev.omode = s.dev.omode)

/-- Every station but one is as it was, and so is the device. -/
def OnlyStation (s t : State) (a : Nat) : Prop :=
  t.dev = s.dev ∧ t.pending = s.pending ∧ ∀ b, b ≠ a → t.stn? b = s.stn? b

/-- An event bit is set and one event recorded; nothing else of the block differs. -/
def EventRaised (s t : State) (f : Fld) : Prop :=
  t.dev.flag f = true ∧ BitsKept s t [f] ∧ t.dev.evts.length = s.dev.evts.length + 1 ∧
  { t with dev := { t.dev with regs := s.dev.regs, evts := s.dev.evts } } = s

/-- A register took a word by a write: every other register but the listed ones reads as before, and outside
Load and Service the write is carried to the partner unit (R475). -/
def RegWritten (s t : State) (a : Nat) (w : Word) (l : List Nat) : Prop :=
  t.dev.rd a = w ∧ RegsKept s t (a :: l) ∧ (s.dev.loadOrService = false → a ∈ t.dev.twin.wrote) ∧
  MemKept s t ∧ OnlyDev s t

/-- The registers that a change of an axis's state touches: its own, and those that show its compare lists. -/
def axisRegs (a : Nat) : List Nat :=
  [R.AX_STATE.adr a, R.AX_CNT.adr a, R.AX_PRF_STAT.adr a, R.AX_PRF_EVT.adr a] ++
  (List.range 16).map R.AX_CMP_STAT.adr ++ (List.range 16).map R.AX_CMP_EVT.adr

/-- An axis entered a state: it is shown, its time runs from the present tick, the recipes' tasks see the change,
and every other axis keeps its state; of the registers only those of the axis and the listed ones differ
(R292, R293). -/
def AxisEntered (s t : State) (a st : Nat) (l : List Nat) : Prop :=
  t.dev.astate a = st ∧ (t.dev.ax a).stateTick = s.dev.tick ∧ (5, a) ∈ t.dev.rcp.triggers ∧
  (∀ b, b < 128 → b ≠ a → t.dev.astate b = s.dev.astate b) ∧ RegsKept s t (axisRegs a ++ l) ∧
  MemKept s t ∧ OnlyDev s t

/-- A recipe control was refused with a cause, and nothing else of the block differs (R422). -/
def RecipeRefused (s t : State) (r cause : Nat) : Prop :=
  t.dev.flag (R.AT_RCP_EVT.ctrl_rej r) = true ∧ t.dev.fld (R.AT_RCP_STAT.cause r) = cause ∧
  BitsKept s t [R.AT_RCP_EVT.ctrl_rej r, R.AT_RCP_STAT.cause r] ∧
  { t with dev := { t.dev with regs := s.dev.regs, evts := s.dev.evts } } = s

/-- Only the listed registers may read otherwise, and every other recipe and every byte of memory is as it
was. -/
def RecipeOnly (s t : State) (r : Nat) (l : List Nat) : Prop :=
  (∀ q, q ≠ r → t.dev.recipe q = s.dev.recipe q) ∧
  RegsKept s t ([R.AT_RCP_STAT.adr r, R.AT_RCP_ELAP.adr r, R.AT_RCP_EVT.adr r] ++ l) ∧ MemKept s t ∧ OnlyDev s t

/-- A journal entry of a recipe with its type and step stands in the queue (R418, R419). -/
def Journaled (t : State) (r type step : Nat) : Prop :=
  ∃ e ∈ t.dev.rcp.queue, nthW e.words 0 = word (type * 2 ^ 24 + r * 65536 + step)

/-- Every recipe that runs or waits has no hold block, so that holding it writes no point. -/
def HoldsQuietly (s : State) : Prop :=
  ∀ r, r < 64 → s.dev.rstate r = sRun ∨ s.dev.rstate r = sWait → bits (nthW (s.dev.rcpHdr r) 5) 11 0 = 0xFFF

/-- Nothing but the device differs, and no byte of memory where no hold block runs. -/
def DevOrHold (s t : State) : Prop := OnlyDev s t ∧ (HoldsQuietly s → MemKept s t)

/-- A zone stands in a state: it grants permission in RUN and SS1, and without permission every axis that it
covers is in Safe-off (R428, R429, R431). -/
def ZoneIn (t : State) (z st : Nat) : Prop :=
  t.dev.zstate z = st ∧ (t.dev.flag (R.SF_ZONE_STAT.perm z) = true ↔ st = zRun ∨ st = zSs1) ∧
  (st ≠ zRun → st ≠ zSs1 → ∀ a, a < 128 → t.dev.axUsed a = true → t.dev.zoneCovers z a = true →
    t.dev.astate a = aSafeOff)

/-- A zone has met the demands that stand: STO before SS1, back to RUN from STO without a demand where the release
needs no reset and no connection is starting (R429, R430, R449). -/
def ZoneMet (s t : State) (z : Nat) : Prop :=
  let dem := t.dev.demands z
  let sto := dem.any (t.dev.demIsSto z) = true
  let st := s.dev.zstate z
  let toSto := (st = zRun ∨ st = zSs1) ∧ sto
  let toSs1 := st = zRun ∧ dem ≠ [] ∧ ¬ sto
  let toRun := st = zSto ∧ dem = [] ∧ t.dev.flag (R.SF_ZONE_CFG.man_rst z) = false ∧ t.dev.zoneStarting z = false
  (toSto → ZoneIn t z zSto) ∧ (toSs1 → ZoneIn t z zSs1) ∧ (toRun → ZoneIn t z zRun) ∧
  (¬ toSto → ¬ toSs1 → ¬ toRun → t.dev.zstate z = st) ∧
  t.dev.flag (R.SF_ZONE_STAT.dem z) = ! dem.isEmpty

/-- Every zone in use has met its demands, and a demand that was not there before took the device to Stop from Run
and Hold where a zone asks for it (R428 to R431). -/
def DemandsMet (s t : State) : Prop :=
  (∀ z, z < 16 → if s.dev.flag (R.SF_ZONE_CFG.en z) = true then ZoneMet s t z
    else t.dev.zstate z = s.dev.zstate z) ∧
  (let stops := (s.dev.omode = mRun ∨ s.dev.omode = mHold) ∧ ∃ z, z < 16 ∧
    s.dev.flag (R.SF_ZONE_CFG.en z) = true ∧ s.dev.flag (R.SF_ZONE_CFG.dev_stop z) = true ∧
    ∃ k ∈ t.dev.demands z, k ∉ s.dev.demands z
   (stops → t.dev.omode = mStop) ∧ (¬ stops → t.dev.omode = s.dev.omode)) ∧ DevOrHold s t

/-- A device fault: lock-out with its first cause, every zone in use LOCKED, the output pair off, and the mode
Lock-out from Listen on (R451, R581). -/
def DeviceFaulted (s t : State) (cause : Nat) : Prop :=
  t.dev.flag R.SF_STAT.lockout = true ∧
  t.dev.fld R.SF_STAT.lo_cause = (if s.dev.flag R.SF_STAT.lockout = true then s.dev.fld R.SF_STAT.lo_cause
    else cause) ∧
  (s.dev.flag R.SF_STAT.lockout = false → t.dev.flag R.SF_EVT.lockout = true) ∧
  (∀ z, z < 16 → s.dev.flag (R.SF_ZONE_CFG.en z) = true →
    ZoneIn t z zLocked ∧ t.dev.fld (R.SF_ZONE_STAT.lock_cause z) = 1) ∧
  t.dev.flag R.SF_OUT_STAT.cmd_hs = false ∧ t.dev.flag R.SF_OUT_STAT.cmd_ls = false ∧
  t.dev.omode = (if s.dev.omode = mReset ∨ s.dev.omode = mSelfTest ∨ s.dev.omode = mLoad then s.dev.omode
    else mLockout) ∧ DevOrHold s t

/-- A zone that was not LOCKED is, with a cause; one that was keeps its cause; a zone not in use is none
(R429, R447). -/
def ZoneFaulted (s t : State) (z cause : Nat) : Prop :=
  s.dev.flag (R.SF_ZONE_CFG.en z) = true → t.dev.zstate z = zLocked ∧
    (s.dev.zstate z ≠ zLocked → ZoneIn t z zLocked ∧ t.dev.fld (R.SF_ZONE_STAT.lock_cause z) = cause ∧
      t.dev.flag R.SF_EVT.zone_lock = true)

/-- Of the registers only the listed ones may read otherwise; memory, stations and queue are as they were. -/
def Only (s t : State) (l : List Nat) : Prop := RegsKept s t l ∧ MemKept s t ∧ OnlyDev s t

/-- What a unit sends on the twin link: something while the link is up in a twin installation, else nothing
(R461, R494). -/
def TwinSent (s t : State) (l : List Out) : Prop :=
  t.dev.out = s.dev.out ++ if s.dev.twUp = true then l else []

/-- A twin event is raised (R497). -/
def TwinEvent (s t : State) (f : Fld) : Prop :=
  t.dev.flag f = true ∧ t.dev.evts.length = s.dev.evts.length + 1

/-- The active unit has begun a handover: HANDOVER is sent with the next tick as its target, from whose frame on it
carries act = 0 (R490). -/
def HandoverStarted (s t : State) : Prop :=
  t.dev.twin.handover = some (s.dev.tick + 1) ∧ t.dev.twin.roleAt = some (s.dev.tick + 1, false, none) ∧
  TwinSent s t [.ctrl 1 (s.dev.tick + 1)]

/-- The identity check has begun with the stored pairing identity, and an IDENT frame is sent (R471, R498). -/
def IdentStarted (s t : State) (sent : List Out) : Prop :=
  t.dev.tstate = tIdent ∧ t.dev.rd R.TW_PAIR.adr = s.dev.lcWord R.TW_PAIR.adr ∧ t.dev.twin.identRx = false ∧
  t.dev.twin.resyncRun = false ∧ t.dev.twin.copyOn = false ∧ t.dev.out = s.dev.out ++ sent

/-- A resync runs: the active unit has the whole slow-state image to send, the standby's commands are not
selectable (R464, R472, R473). -/
def ResyncRuns (s t : State) : Prop :=
  t.dev.tstate = tResync ∧ t.dev.twin.resyncRun = true ∧ t.dev.twin.copyOn = true ∧
  t.dev.twin.sel = s.dev.isActive ∧ t.dev.flag R.TW_EVT.resync = true ∧
  t.dev.twin.dirty = (if s.dev.isActive = true then s.dev.twin.slow else s.dev.twin.dirty) ∧
  t.dev.fld R.TW_RSYNC.pages_left = min 1024 t.dev.twin.dirty.length

/-- The host port has its four sessions (R546). -/
def HostOk (s : State) : Prop := s.dev.host.sessions.length = 4

/-- A message of a session as it goes out: under the session's next seq, with a tag under its key (R538, R540). -/
def sentTo (x : Session) (type : Nat) (req : Word) (r : Response) (dst : Word) (port : BitVec 16) : Out :=
  .shp x.sid type (x.seqOut + 1) req r.result r.words
    (shpTag x.kOut type x.sid (x.seqOut + 1) req r.result r.words) dst port

/-- A session when a valid message of it has just arrived (R543). -/
def touched (s : State) (x : Session) : Session := { (x) with last := s.dev.time.clock }

/-- A request of session k, which stood as x when it was answered, was answered last: the response went to the source
of the session's latest message, and it is kept with the last 16 (R536, R541). -/
def Answered (s t : State) (k : Nat) (x : Session) (req : Word) (r : Response) : Prop :=
  t.dev.out = s.dev.out ++ [sentTo x r.type req r x.srcAddr x.srcPort] ∧
  t.dev.session? k = some { (x) with
    seqOut := x.seqOut + 1, kept := ((req, r) :: x.kept.filter (fun p => p.1 ≠ req)).take 16 }

/-- The request was answered, and nothing differs but the session, what was sent, the events of the tick and the listed
registers. -/
def AnsweredOnly (s t : State) (k : Nat) (x : Session) (req : Word) (r : Response) (l : List Nat) : Prop :=
  Answered s t k x req r ∧ (∀ j, j ≠ k → t.dev.session? j = s.dev.session? j) ∧ RegsKept s t l ∧
  { (t) with dev := { t.dev with
      host := { t.dev.host with sessions := s.dev.host.sessions }
      out := s.dev.out, evts := s.dev.evts, regs := s.dev.regs } } = s

/-- A request that session k has not made before: no response to it is kept, and it does not run (R541). -/
def FreshRequest (s : State) (k : Nat) (req : Word) (x : Session) : Prop :=
  s.dev.session? k = some x ∧ s.dev.keptFor k req = none ∧ s.dev.stillRuns x.sid req = false

/-- The frame and its datagram are not discarded by R535 and R536. -/
def FrameAccepted (s : State) (f : HostFrame) : Prop :=
  let w := nthW s.dev.host.cfg
  f.vlan = false ∧ f.size ≤ (if bit (w 0) 8 = true then 9000 else 1500) ∧ f.udp = true ∧
  f.optionsOrFragment = false ∧ f.dst = w 1 ∧
  (f.dstPort.toNat = bits (w 4) 15 0 ∨ f.dstPort.toNat = bits (w 4) 31 16) ∧ (w 5 = 0 ∨ f.src = w 5) ∧
  f.sumBad = false

/-- Every key slot of a limited-change bank is erased (R565). -/
def LcErased (b : LcBank) : Prop :=
  ∀ i, (b.keys.getD i {}).prov = false ∧ (b.keys.getD i {}).priv = 0 ∧ ∀ x ∈ (b.keys.getD i {}).key, x = 0

/-- The keys are erased, every session is closed, and none opens until the next power cycle (R565). -/
def KeysErased (t : State) : Prop :=
  LcErased t.dev.nv.lc0 ∧ LcErased t.dev.nv.lc1 ∧ (∀ k, k < 4 → t.dev.session? k = none) ∧
  t.dev.host.challenges = [] ∧ t.dev.host.erasedBoot = true ∧ t.dev.flag R.SEC_STAT.erased = true ∧
  t.dev.flag R.SEC_EVT.erase = true ∧ ∀ j, t.dev.store.job = some j → LcErased j.lc

/-- A security class tripped under its action: shown and recorded; action 2 erases the keys; actions 1 and 2 leave the
alarm pending and take the device to Alarm from every mode but Reset, Self-test, Load and Lock-out
(R563, R564, R591). -/
def Tripped (s t : State) (c act : Nat) : Prop :=
  t.dev.flag ⟨R.SEC_STAT.adr, c, c⟩ = true ∧ t.dev.flag ⟨R.SEC_EVT.adr, c, c⟩ = true ∧
  (act = 2 → KeysErased t) ∧
  (let alarms := act = 1 ∨ act = 2
   let stays := s.dev.omode = mReset ∨ s.dev.omode = mSelfTest ∨ s.dev.omode = mLoad ∨ s.dev.omode = mLockout
   (alarms → t.dev.flag R.DEV_STAT.alarm_pend = true) ∧ (alarms → ¬ stays → t.dev.omode = mAlarm) ∧
   (¬ alarms ∨ stays → t.dev.omode = s.dev.omode) ∧
   (¬ alarms → t.dev.flag R.DEV_STAT.alarm_pend = s.dev.flag R.DEV_STAT.alarm_pend ∧ t.dev.nv.lc0 = s.dev.nv.lc0 ∧
     t.dev.nv.lc1 = s.dev.nv.lc1 ∧ (∀ k, t.dev.session? k = s.dev.session? k) ∧ MemKept s t)) ∧ DevOrHold s t

/-- The device is in Reset, for a reason: every register but DEV_MODE has its Reset value, every byte of memory is 0,
every session is gone, and only the MRAM and what is outside the device stay (R570, R581). -/
def InReset (s t : State) (reason : Nat) : Prop :=
  t.dev.omode = mReset ∧ t.dev.fld R.DEV_MODE.prev = s.dev.omode ∧ t.dev.fld R.DEV_MODE.reason = reason ∧
  (∀ a, a ≠ R.DEV_MODE.adr → t.dev.rd a = resetWord a) ∧ (∀ c, t.dev.byteAt c = 0) ∧
  (∀ k, t.dev.session? k = none) ∧ t.dev.nv = s.dev.nv ∧ t.dev.store.job = none ∧
  t.dev.host.erasedBoot = s.dev.host.erasedBoot ∧ OnlyDev s t

end Sys2Proof
end

