-- ==== Sys2Proof/Certificates/Slice0/Obligations.lean ====
section
/-! DEFINITION. The statements for the provers, written from the numbered rules of the spec. -/

open Sys2Proof Sys2Proof.Machine

/-- A step takes the command at the front of the queue and is that command on the state with the queue's rest; on
an empty queue the block idles (the model's own queue, log entry 2). The model's own choices and readings in it:
log entry 2. -/
def Obligations.StepRunsTheFrontCommand : Prop :=
  (∀ (s : State) (c : Instr) (rest : List Instr), s.pending = c :: rest →
    step s = exec c { s with pending := rest }) ∧
  (∀ s : State, s.pending = [] → step s = .next s)

/-- No command touches the queue of commands (the model's own queue, log entry 2). Every command but two answers a
next state in every state. The model's own choices and readings in it: log entries 2, 3. -/
def Obligations.CommandsLeaveTheQueueAndComplete : Prop :=
  (∀ (c : Instr) (s t : State), exec c s = .next t → t.pending = s.pending) ∧
  (∀ (c : Instr) (s : State), (∀ a b o, c ≠ .resetRelease a b o) → (∀ b, c ≠ .debugPortAccess b) →
    ∃ t, exec c s = .next t)

/-- RESET_RELEASE faults exactly where mode Reset ends a power-up out of order (R601). The model's own choices and
readings in it: log entry 66. -/
def Obligations.PowerUpOutOfOrderFaults : Prop :=
  ∀ (s : State) (roleB powerUp orderOk : Bool),
    (s.dev.omode = mReset → powerUp = true → orderOk = false →
      exec (.resetRelease roleB powerUp orderOk) s = .fault .powerUpUndefined) ∧
    (¬ (s.dev.omode = mReset ∧ powerUp = true ∧ orderOk = false) →
      ∃ t, exec (.resetRelease roleB powerUp orderOk) s = .next t ∧ t.stations = s.stations ∧
        (s.dev.omode ≠ mReset → t = s))

/-- The debug port: an identification read is answered always; with key slot 0 provisioned any other access is
answered by nothing; otherwise the access is refused by name, since the spec does not say what it does (R617, log
entry 67). The model's own choices and readings in it: log entries 13, 67. -/
def Obligations.DebugPort : Prop :=
  ∀ s : State,
    (∃ t, exec (.debugPortAccess true) s = .next t ∧
      t = { s with dev := { s.dev with out := s.dev.out ++ [.debugId] } }) ∧
    ((s.dev.keySlot 0).prov = true → ∃ t, exec (.debugPortAccess false) s = .next t ∧
      t = { s with dev := { s.dev with out := s.dev.out ++ [.debugNone] } }) ∧
    ((s.dev.keySlot 0).prov = false → exec (.debugPortAccess false) s = .refused .debugPortUndescribed)

/-- The rows of the device leave every station as it is: a station changes only by a row that names it as receiver
or sender, and by the rows that act on both sides of a line. A row of one station leaves every other station and
the device as they are; STATION_CYC_RX alone may also count a time step in the device's ST_CNT_SYNC and ST_EVT
(R153, R155). The model's own choices and readings in it: log entry 69. -/
def Obligations.CommandsStayOnTheirSide : Prop :=
  (∀ (c : Instr) (s t : State), exec c s = .next t → t.stations ≠ s.stations →
    (∃ a, c = .tickInstant a) ∨ c = .bcnTx ∨ (∃ p f n, c = .bcnRx p f n) ∨
    (∃ n, c = .delayExchangeStart n) ∨ (∃ p a b, c = .dreqRx p a b) ∨ (∃ p a b n, c = .drspRx p a b n) ∨
    (∃ p, c = .lineLinkLoss p) ∨ (∃ p, c = .lineLinkGain p) ∨
    (∃ st i n, c = .readId st i n) ∨ (∃ st i w, c = .writeCfg st i w) ∨ (∃ st m w, c = .commitCfg st m w) ∨
    (∃ st i n, c = .readCfg st i n) ∨ (∃ st i n, c = .readDiag st i n) ∨ (∃ st m, c = .dropCfg st m) ∨
    (∃ st x f i a r, c = .stationCycRx st x f i a r) ∨ (∃ st x f i, c = .stationCstRx st x f i) ∨
    (∃ st, c = .stationApplyDeadline st) ∨ (∃ st, c = .stationApply st) ∨
    (∃ st i, c = .timedOutputFire st i) ∨ (∃ st, c = .stationAlarmSlot st) ∨
    (∃ st u n p, c = .stationPduEval st u n p) ∨ (∃ st k i, c = .stationPowerUp st k i) ∨
    (∃ st m, c = .configurationLost st m)) ∧
  (∀ (c : Instr) (st : Fin 256) (s t : State),
    ((∃ i n, c = .readId st i n) ∨ (∃ i w, c = .writeCfg st i w) ∨ (∃ m w, c = .commitCfg st m w) ∨
     (∃ i n, c = .readCfg st i n) ∨ (∃ i n, c = .readDiag st i n) ∨ (∃ m, c = .dropCfg st m) ∨
     (∃ x f i a r, c = .stationCycRx st x f i a r) ∨ (∃ x f i, c = .stationCstRx st x f i) ∨
     c = .stationApplyDeadline st ∨ c = .stationApply st ∨ (∃ i, c = .timedOutputFire st i) ∨
     c = .stationAlarmSlot st ∨ (∃ u n p, c = .stationPduEval st u n p) ∨
     (∃ k i, c = .stationPowerUp st k i) ∨ (∃ m, c = .configurationLost st m)) →
    exec c s = .next t →
    (∀ a, a ≠ st.val → t.stn? a = s.stn? a) ∧
    ((∀ x f i a r, c ≠ .stationCycRx st x f i a r) → t.dev = s.dev) ∧
    { t with stations := s.stations, dev := { t.dev with regs := s.dev.regs } } = s ∧
    RegsKept s t [R.ST_CNT_SYNC.adr st, R.ST_EVT.adr st])

/-- Every step keeps the stations in strictly rising order of their addresses, each under its own. Every step keeps
the timed-output entries of every station within the number that its identity record declares (R152, R180). The
model's own choices and readings in it: log entry 69. -/
def Obligations.StationsKeepTheirShape : Prop :=
  (∀ s t : State, StationsOk s → step s = .next t → StationsOk t) ∧
  (∀ s t : State, TosOk s → step s = .next t → TosOk t)

/-- Right after reset the registers and the memory are in canonical form, no station is listed out of order, and no
timed output waits. Right after reset every register reads its Reset value: the tick period 31,250 ns, the frame
offset 2,000 ns, the deadline, the mode Reset, and nothing waits (R12, R568, R570). The model's own choices and
readings in it: log entry 1. -/
def Obligations.ResetStateAndValues : Prop :=
  (RegsOk State.reset.dev ∧ MemOk State.reset.dev ∧ StationsOk State.reset ∧ TosOk State.reset) ∧
  ((∀ a, State.reset.dev.rd a = resetWord a) ∧
  State.reset.dev.fld R.TIM_TICK.tick_ns = 31250 ∧ State.reset.dev.fld R.TIM_TX_OFS.tx_ofs_ns = 2000 ∧
  State.reset.dev.omode = mReset ∧ State.reset.pending = [] ∧
  State.reset.dev.rd R.BR_CFG.adr = 1 ∧ State.reset.dev.rd R.TIM_TICK_OUT.adr = 1000)

/-- A write to a register is what a read of it gives, every other register reads as before, and the canonical forms
of registers and memory are kept by every register write and every byte written (R2, R5, R10). The model's own
choices and readings in it: log entries 9, 10. -/
def Obligations.RegistersAndMemoryHoldWhatIsWritten : Prop :=
  ∀ (d : Dev),
    (∀ (a b : Nat) (w : Word), (d.wr a w).rd b = if b = a then w else d.rd b) ∧
    (∀ (f : Fld) (v : Nat), f.lo + f.width ≤ 32 → (d.set f v).fld f = v % 2 ^ f.width) ∧
    (∀ (f g : Fld) (v : Nat), g.lo + g.width ≤ 32 →
      (g.adr ≠ f.adr ∨ g.lo + g.width ≤ f.lo ∨ f.lo + f.width ≤ g.lo) → (d.set f v).fld g = d.fld g) ∧
    (∀ (c : Nat) (bs : List Byte), (d.putBytes c bs).peek c bs.length = bs) ∧
    (∀ (c j : Nat) (bs : List Byte), j < c ∨ c + bs.length ≤ j → (d.putBytes c bs).byteAt j = d.byteAt j) ∧
    (RegsOk d → ∀ (a : Nat) (w : Word), RegsOk (d.wr a w)) ∧
    (MemOk d → ∀ (c : Nat) (bs : List Byte), MemOk (d.putBytes c bs)) ∧
    (MemOk d → ∀ (q : BitVec 16) (c n : Nat), MemOk (d.readBytes q c n).1)

/-- The checker corrects every single flipped bit of a stored byte and its check bits, and finds every two flipped
bits uncorrectable (R518, R519). -/
def Obligations.ErrorCorrection : Prop :=
  ∀ b : Byte,
    eccCheck (storedBits b) = .clean b ∧
    (∀ i, i < 13 → eccCheck (storedBits b ^^^ (1#13 <<< i)) = .corrected b) ∧
    (∀ i j, i < 13 → j < 13 → i ≠ j →
      eccCheck (storedBits b ^^^ (1#13 <<< i) ^^^ (1#13 <<< j)) = .bad)

/-- MPY, MPYS, CLR, MOVA and INSA load accumulators: in one cycle each enabled accumulator takes its product, sum
of products, 0, the other accumulator or the lane scaled by 2^15, unless it is held and its hold may not be lifted;
nothing else of the engine or the device changes (R228, R232, R235, R236, R248). MAC, MSU, MACS, MSUS, ADDA, SUBA
and SHA: each is one add of an exact result, or for a negative SHA an arithmetic right shift; overflow saturates
and sets hold and aov, a held accumulator stays (R229, R234, R235, R248). EXPA, NORM and EXTA: the count of bits
below bit 39 that equal it, the normalised accumulator, and the floor to Q15 with saturation (R230, R233, R235).
The model's own choices and readings in it: log entry 3. -/
def Obligations.BrushAccumulators : Prop :=
  (∀ (s : State) (e : Fin 4), EngineReady s e →
    let g := s.dev.eng e
    (∀ f : LaneOp, ∃ t, exec (.mpy e f) s = .next t ∧ EngineOnly s t e ∧
      (∀ k : Fin 4, if f.m.getLsbD k then
          AccLoaded g (t.dev.eng e) k (g.lane f.x k * g.yLane f.y f.b f.ly k)
        else AccKept g (t.dev.eng e) k) ∧
      (∀ i, 4 ≤ i → i < 10 → (t.dev.eng e).sr.getLsbD i = g.sr.getLsbD i) ∧
      EngineHas t e { g with acc := (t.dev.eng e).acc, sr := (t.dev.eng e).sr } 1) ∧
    (∀ m : BitVec 4, ∃ t, exec (.clr e m) s = .next t ∧ EngineOnly s t e ∧
      (∀ k : Fin 4, if m.getLsbD k then AccLoaded g (t.dev.eng e) k 0 else AccKept g (t.dev.eng e) k) ∧
      (∀ i, 4 ≤ i → i < 10 → (t.dev.eng e).sr.getLsbD i = g.sr.getLsbD i) ∧
      EngineHas t e { g with acc := (t.dev.eng e).acc, sr := (t.dev.eng e).sr } 1) ∧
    (∀ f : LaneOp, ∃ t, exec (.mpys e f) s = .next t ∧ EngineOnly s t e ∧
      AccLoaded g (t.dev.eng e) f.a
        (((maskLanes f.m).map (fun (k : Fin 4) => g.lane f.x k * g.yLane f.y f.b f.ly k)).sum) ∧
      (∀ k, k ≠ f.a → AccKept g (t.dev.eng e) k) ∧
      (∀ i, 4 ≤ i → i < 10 → (t.dev.eng e).sr.getLsbD i = g.sr.getLsbD i) ∧
      EngineHas t e { g with acc := (t.dev.eng e).acc, sr := (t.dev.eng e).sr } 1) ∧
    (∀ a c : Fin 4, ∃ t, exec (.mova e a c) s = .next t ∧ EngineOnly s t e ∧
      AccLoaded g (t.dev.eng e) a (g.acc.get c).toInt ∧
      (∀ k, k ≠ a → AccKept g (t.dev.eng e) k) ∧
      (∀ i, 4 ≤ i → i < 10 → (t.dev.eng e).sr.getLsbD i = g.sr.getLsbD i) ∧
      EngineHas t e { g with acc := (t.dev.eng e).acc, sr := (t.dev.eng e).sr } 1) ∧
    (∀ (a : Fin 4) (r : Fin 8) (l : Fin 4), ∃ t, exec (.insa e a r l) s = .next t ∧ EngineOnly s t e ∧
      AccLoaded g (t.dev.eng e) a (g.lane r l * 2 ^ 15) ∧
      (∀ k, k ≠ a → AccKept g (t.dev.eng e) k) ∧
      (∀ i, 4 ≤ i → i < 10 → (t.dev.eng e).sr.getLsbD i = g.sr.getLsbD i) ∧
      EngineHas t e { g with acc := (t.dev.eng e).acc, sr := (t.dev.eng e).sr } 1)) ∧
  (∀ (s : State) (e : Fin 4), EngineReady s e →
    let g := s.dev.eng e
    let rest := fun (t : State) => EngineOnly s t e ∧
      (∀ i, 5 ≤ i → i < 10 → (t.dev.eng e).sr.getLsbD i = g.sr.getLsbD i) ∧
      EngineHas t e { g with acc := (t.dev.eng e).acc, sr := (t.dev.eng e).sr,
                             holdAt := (t.dev.eng e).holdAt } 1
    let lanes := fun (t : State) (m : BitVec 4) (x : Fin 4 → Int) =>
      (∀ k : Fin 4, if m.getLsbD k then AccAdded g (t.dev.eng e) k ((g.acc.get k).toInt + x k)
        else AccKept g (t.dev.eng e) k) ∧
      ((t.dev.eng e).sr.getLsbD 4 = true ↔ g.sr.getLsbD 4 = true ∨
        ∃ k : Fin 4, m.getLsbD k = true ∧ g.held k = false ∧ accOverflow ((g.acc.get k).toInt + x k))
    let one := fun (t : State) (a : Fin 4) (r : Int) =>
      AccAdded g (t.dev.eng e) a r ∧ (∀ k, k ≠ a → AccKept g (t.dev.eng e) k) ∧
      ((t.dev.eng e).sr.getLsbD 4 = true ↔
        g.sr.getLsbD 4 = true ∨ (g.held a = false ∧ accOverflow r))
    let prod := fun (f : LaneOp) (k : Fin 4) => g.lane f.x k * g.yLane f.y f.b f.ly k
    (∀ f, ∃ t, exec (.mac e f) s = .next t ∧ rest t ∧ lanes t f.m (prod f)) ∧
    (∀ f, ∃ t, exec (.msu e f) s = .next t ∧ rest t ∧ lanes t f.m (fun k => - prod f k)) ∧
    (∀ f, ∃ t, exec (.macs e f) s = .next t ∧ rest t ∧
      one t f.a ((g.acc.get f.a).toInt + ((maskLanes f.m).map (prod f)).sum)) ∧
    (∀ f, ∃ t, exec (.msus e f) s = .next t ∧ rest t ∧
      one t f.a ((g.acc.get f.a).toInt - ((maskLanes f.m).map (prod f)).sum)) ∧
    (∀ a c, ∃ t, exec (.adda e a c) s = .next t ∧ rest t ∧
      one t a ((g.acc.get a).toInt + (g.acc.get c).toInt)) ∧
    (∀ a c, ∃ t, exec (.suba e a c) s = .next t ∧ rest t ∧
      one t a ((g.acc.get a).toInt - (g.acc.get c).toInt)) ∧
    (∀ (a : Fin 4) (i : BitVec 6), 0 ≤ i.toInt → ∃ t, exec (.sha e a i) s = .next t ∧ rest t ∧
      one t a ((g.acc.get a).toInt * 2 ^ i.toInt.toNat)) ∧
    (∀ (a : Fin 4) (i : BitVec 6), i.toInt < 0 → ∃ t, exec (.sha e a i) s = .next t ∧ rest t ∧
      one t a (if g.held a = true then (g.acc.get a).toInt
        else (g.acc.get a).toInt / 2 ^ (- i.toInt).toNat))) ∧
  (∀ (s : State) (e : Fin 4), EngineReady s e →
    let g := s.dev.eng e
    let counted := fun (t : State) (a : Fin 4) (r : Fin 8) =>
      let v := g.acc.get a
      let c := ((t.dev.eng e).gr r).toNat
      EngineOnly s t e ∧ c ≤ 39 ∧ (v = 0 → c = 0) ∧
      (v ≠ 0 → (∀ i, i < c → v.getLsbD (38 - i) = v.getLsbD 39) ∧
        (c < 39 → v.getLsbD (38 - c) ≠ v.getLsbD 39)) ∧
      (∀ k, k ≠ r → (t.dev.eng e).gr k = g.gr k) ∧
      (t.dev.eng e).sr.getLsbD 8 = decide (v = 0) ∧ (t.dev.eng e).sr.getLsbD 9 = v.getLsbD 39 ∧
      (∀ i, i < 8 → (t.dev.eng e).sr.getLsbD i = g.sr.getLsbD i)
    (∀ (a : Fin 4) (r : Fin 8), ∃ t, exec (.expa e a r) s = .next t ∧ counted t a r ∧
      EngineHas t e { g with g := (t.dev.eng e).g, sr := (t.dev.eng e).sr } 1) ∧
    (∀ (a : Fin 4) (r : Fin 8), ∃ t, exec (.norm e a r) s = .next t ∧ counted t a r ∧
      (∀ k, k ≠ a → (t.dev.eng e).acc.get k = g.acc.get k) ∧
      (g.held a = true → (t.dev.eng e).acc.get a = g.acc.get a) ∧
      (g.held a = false → ((t.dev.eng e).acc.get a).toInt =
        (g.acc.get a).toInt * 2 ^ ((t.dev.eng e).gr r).toNat) ∧
      EngineHas t e { g with g := (t.dev.eng e).g, acc := (t.dev.eng e).acc, sr := (t.dev.eng e).sr } 1) ∧
    (∀ (a : Fin 4) (sh : BitVec 6) (r : Fin 8) (l : Fin 4), -8 ≤ sh.toInt → sh.toInt ≤ 7 →
      let v := (g.acc.get a).toInt * 2 ^ (sh.toInt + 8).toNat / 2 ^ 23
      ∃ t, exec (.exta e a sh r l) s = .next t ∧ EngineOnly s t e ∧
      (t.dev.eng e).lane r l = max (-32768) (min 32767 v) ∧
      (∀ (k : Fin 8) (j : Fin 4), (k ≠ r ∨ j ≠ l) → (t.dev.eng e).lane k j = g.lane k j) ∧
      ((t.dev.eng e).sr.getLsbD 5 = true ↔
        g.sr.getLsbD 5 = true ∨ g.held a = true ∨ v < -32768 ∨ 32767 < v) ∧
      (∀ i, i < 10 → i ≠ 5 → (t.dev.eng e).sr.getLsbD i = g.sr.getLsbD i) ∧
      EngineHas t e { g with d := (t.dev.eng e).d, sr := (t.dev.eng e).sr } 1))

/-- VADD, VSUB, VMIN, VMAX, VMOV and VNEG: every enabled lane of Dd takes the exact result saturated to Q15, other
lanes keep their values, SR.sov is set where a result saturated (R231, R247, R248). -/
def Obligations.BrushLaneOperations : Prop :=
  ∀ (s : State) (e : Fin 4) (f : VecOp), EngineReady s e →
    let g := s.dev.eng e
    let x := fun (k : Fin 4) => g.lane f.x k
    let y := fun (k : Fin 4) => if f.b then g.lane f.y f.ly else g.lane f.y k
    let did := fun (t : State) (r : Fin 4 → Int) => EngineOnly s t e ∧
      (∀ k : Fin 4, (t.dev.eng e).lane f.d k =
        if f.m.getLsbD k then max (-32768) (min 32767 (r k)) else g.lane f.d k) ∧
      (∀ (j : Fin 8) (k : Fin 4), j ≠ f.d → (t.dev.eng e).lane j k = g.lane j k) ∧
      ((t.dev.eng e).sr.getLsbD 5 = true ↔ g.sr.getLsbD 5 = true ∨
        ∃ k : Fin 4, f.m.getLsbD k = true ∧ (r k < -32768 ∨ 32767 < r k)) ∧
      (∀ i, i < 10 → i ≠ 5 → (t.dev.eng e).sr.getLsbD i = g.sr.getLsbD i) ∧
      EngineHas t e { g with d := (t.dev.eng e).d, sr := (t.dev.eng e).sr } 1
    (∃ t, exec (.vadd e f) s = .next t ∧ did t (fun k => x k + y k)) ∧
    (∃ t, exec (.vsub e f) s = .next t ∧ did t (fun k => x k - y k)) ∧
    (∃ t, exec (.vmin e f) s = .next t ∧ did t (fun k => min (x k) (y k))) ∧
    (∃ t, exec (.vmax e f) s = .next t ∧ did t (fun k => max (x k) (y k))) ∧
    (f.x = 0 → ∃ t, exec (.vmov e f) s = .next t ∧ did t y) ∧
    (f.x = 0 → ∃ t, exec (.vneg e f) s = .next t ∧ did t (fun k => - y k))

/-- MOVI, MOVHI, ADDI, ADDG, SUBG, MOVS, JST and NOP write one G register or none; CMPG, CMPI and JST write z and
n; MOVP writes one pointer, step, base or length register (R219, R242, R248). The model's own choices and readings
in it: log entry 3. -/
def Obligations.BrushScalars : Prop :=
  ∀ (s : State) (e : Fin 4), EngineReady s e →
    let g := s.dev.eng e
    let wrote := fun (t : State) (r : Fin 8) (v : Word) => EngineOnly s t e ∧
      (t.dev.eng e).gr r = v ∧ (∀ k, k ≠ r → (t.dev.eng e).gr k = g.gr k)
    let compared := fun (t : State) (x y : Word) => EngineOnly s t e ∧
      (t.dev.eng e).sr.getLsbD 8 = decide (x = y) ∧
      (t.dev.eng e).sr.getLsbD 9 = decide (x.toInt < y.toInt) ∧
      (∀ i, i < 8 → (t.dev.eng e).sr.getLsbD i = g.sr.getLsbD i) ∧
      EngineHas t e { g with sr := (t.dev.eng e).sr } 1
    (∃ t, exec (.nop e) s = .next t ∧ EngineOnly s t e ∧ EngineHas t e g 1) ∧
    (∀ (r : Fin 8) (i : BitVec 16), ∃ t, exec (.movi e r i) s = .next t ∧ wrote t r (i.signExtend 32) ∧
      EngineHas t e { g with g := (t.dev.eng e).g } 1) ∧
    (∀ (r : Fin 8) (i : BitVec 16), ∃ t, exec (.movhi e r i) s = .next t ∧
      wrote t r (i ++ (g.gr r).setWidth 16) ∧ EngineHas t e { g with g := (t.dev.eng e).g } 1) ∧
    (∀ (r : Fin 8) (i : BitVec 16), ∃ t, exec (.addi e r i) s = .next t ∧
      wrote t r (g.gr r + i.signExtend 32) ∧ EngineHas t e { g with g := (t.dev.eng e).g } 1) ∧
    (∀ (r k : Fin 8), ∃ t, exec (.addg e r k) s = .next t ∧ wrote t r (g.gr r + g.gr k) ∧
      EngineHas t e { g with g := (t.dev.eng e).g } 1) ∧
    (∀ (r k : Fin 8), ∃ t, exec (.subg e r k) s = .next t ∧ wrote t r (g.gr r - g.gr k) ∧
      EngineHas t e { g with g := (t.dev.eng e).g } 1) ∧
    (∀ (r k : Fin 8), ∃ t, exec (.cmpg e r k) s = .next t ∧ compared t (g.gr r) (g.gr k)) ∧
    (∀ (r : Fin 8) (i : BitVec 16), ∃ t, exec (.cmpi e r i) s = .next t ∧
      compared t (g.gr r) (i.signExtend 32)) ∧
    (∀ (r : Fin 8) (x : Fin 64) (v : Word),
      (x.val, v) ∈ (List.finRange 8).map (fun k => (k.val, g.pt.get k)) ++
        (List.finRange 8).map (fun k => (8 + k.val, g.st.get k)) ++
        (List.finRange 8).map (fun k => (16 + k.val, g.bs.get k)) ++
        (List.finRange 8).map (fun k => (24 + k.val, g.cl.get k)) ++
        (List.finRange 3).map (fun k => (32 + k.val, (g.lc.get k).setWidth 32)) ++
        [(35, g.sr), (36, g.jobWord)] →
      ∃ t, exec (.movs e r x) s = .next t ∧ wrote t r v ∧
        EngineHas t e { g with g := (t.dev.eng e).g } 1) ∧
    (∀ (r k : Fin 8),
      (∃ t, exec (.movp e r ⟨k.val, by omega⟩) s = .next t ∧ EngineOnly s t e ∧
        EngineHas t e { g with pt := g.pt.set k (g.gr r) } 1) ∧
      (∃ t, exec (.movp e r ⟨8 + k.val, by omega⟩) s = .next t ∧ EngineOnly s t e ∧
        EngineHas t e { g with st := g.st.set k (g.gr r) } 1) ∧
      (∃ t, exec (.movp e r ⟨16 + k.val, by omega⟩) s = .next t ∧ EngineOnly s t e ∧
        EngineHas t e { g with bs := g.bs.set k (g.gr r) } 1) ∧
      (∃ t, exec (.movp e r ⟨24 + k.val, by omega⟩) s = .next t ∧ EngineOnly s t e ∧
        EngineHas t e { g with cl := g.cl.set k (g.gr r) } 1)) ∧
    (∀ (r k : Fin 8), (g.gr k).toNat ≤ 1023 →
      let v := s.dev.rd (R.BR_JSTAT.adr (g.gr k).toNat)
      ∃ t, exec (.jst e r k) s = .next t ∧ wrote t r v ∧
        (t.dev.eng e).sr.getLsbD 8 = ! v.getLsbD 7 ∧
        (∀ i, i < 10 → i ≠ 8 → (t.dev.eng e).sr.getLsbD i = g.sr.getLsbD i) ∧
        EngineHas t e { g with g := (t.dev.eng e).g, sr := (t.dev.eng e).sr } 1)

/-- LDD, LDH, LDBH, LDG, LDA and LDX: the register takes the bytes at the operand's address, least significant
first, in every addressing mode and in every memory of the job's map; the pointer moves as its mode says (R221,
R226, R232, R240, R241, R248). STD, STH, STG, STA and STX: the bytes of the register go, least significant first,
to the operand's address, at once in local memory and into the commit buffer in the Canvas window; every other byte
of memory reads as before (R221, R225, R226, R230, R232, R240, R248). The model's own choices and readings in it:
log entries 3, 40. -/
def Obligations.BrushLoadsAndStores : Prop :=
  (∀ (s : State) (e : Fin 4) (m : MemOp), EngineReady s e → m.ok = true →
    let g := s.dev.eng e
    let a := operandAddress g m
    let did := fun (t : State) (n : Nat) (w : BrEng) => Loaded s t e a n w ∧
      PointerMoved g (t.dev.eng e) m ∧
      (∀ i, 5 ≤ i → i < 10 → i ≠ 6 → (t.dev.eng e).sr.getLsbD i = g.sr.getLsbD i)
    let num := fun (n : Nat) => bytesNat ((List.range n).map (jobByte s e a n))
    (∀ r : Fin 8, LoadReady s e a 8 → ∃ t, exec (.ldd e m r) s = .next t ∧
      did t 8 { g with d := g.d.set r (BitVec.ofNat 64 (num 8)), pt := (t.dev.eng e).pt,
                       sr := (t.dev.eng e).sr } ∧
      (∀ i, i < 5 → (t.dev.eng e).sr.getLsbD i = g.sr.getLsbD i)) ∧
    (∀ (r : Fin 8) (l : Fin 4), LoadReady s e a 2 → ∃ t, exec (.ldh e m r l) s = .next t ∧
      did t 2 { g with d := (t.dev.eng e).d, pt := (t.dev.eng e).pt, sr := (t.dev.eng e).sr } ∧
      (∀ (j : Fin 8) (k : Fin 4), (t.dev.eng e).lane j k =
        if j = r ∧ k = l then (BitVec.ofNat 16 (num 2)).toInt else g.lane j k) ∧
      (∀ i, i < 5 → (t.dev.eng e).sr.getLsbD i = g.sr.getLsbD i)) ∧
    (∀ r : Fin 8, LoadReady s e a 2 → ∃ t, exec (.ldbh e m r) s = .next t ∧
      did t 2 { g with d := (t.dev.eng e).d, pt := (t.dev.eng e).pt, sr := (t.dev.eng e).sr } ∧
      (∀ (j : Fin 8) (k : Fin 4), (t.dev.eng e).lane j k =
        if j = r then (BitVec.ofNat 16 (num 2)).toInt else g.lane j k) ∧
      (∀ i, i < 5 → (t.dev.eng e).sr.getLsbD i = g.sr.getLsbD i)) ∧
    (∀ r : Fin 8, LoadReady s e a 4 → ∃ t, exec (.ldg e m r) s = .next t ∧
      did t 4 { g with g := g.g.set r (BitVec.ofNat 32 (num 4)), pt := (t.dev.eng e).pt,
                       sr := (t.dev.eng e).sr } ∧
      (∀ i, i < 5 → (t.dev.eng e).sr.getLsbD i = g.sr.getLsbD i)) ∧
    (∀ k : Fin 4, LoadReady s e a 2 → ∃ t, exec (.lda e m k) s = .next t ∧
      did t 2 { g with acc := (t.dev.eng e).acc, pt := (t.dev.eng e).pt, sr := (t.dev.eng e).sr } ∧
      AccLoaded g (t.dev.eng e) k ((BitVec.ofNat 16 (num 2)).toInt * 2 ^ 15) ∧
      (∀ j, j ≠ k → AccKept g (t.dev.eng e) j) ∧ (t.dev.eng e).sr.getLsbD 4 = g.sr.getLsbD 4) ∧
    (∀ k : Fin 4, LoadReady s e a 8 → ∃ t, exec (.ldx e m k) s = .next t ∧
      did t 8 { g with acc := (t.dev.eng e).acc, pt := (t.dev.eng e).pt, sr := (t.dev.eng e).sr } ∧
      AccLoaded g (t.dev.eng e) k (BitVec.ofNat 40 (num 8)).toInt ∧
      (∀ j, j ≠ k → AccKept g (t.dev.eng e) j) ∧ (t.dev.eng e).sr.getLsbD 4 = g.sr.getLsbD 4)) ∧
  (∀ (s : State) (e : Fin 4) (m : MemOp), EngineReady s e → m.ok = true →
    let g := s.dev.eng e
    let a := operandAddress g m
    let did := fun (t : State) (bs : List Byte) => StoreOnly s t e ∧ Stored s t e a bs ∧
      PointerMoved g (t.dev.eng e) m ∧
      (∀ i, i < 10 → i ≠ 5 → i ≠ 6 → (t.dev.eng e).sr.getLsbD i = g.sr.getLsbD i) ∧
      EngineHas t e { g with pt := (t.dev.eng e).pt, sr := (t.dev.eng e).sr,
                             commit := (t.dev.eng e).commit } 1
    let low := fun (n v : Nat) => (List.range n).map (fun i => BitVec.ofNat 8 (v / 256 ^ i))
    let sov := fun (t : State) => (t.dev.eng e).sr.getLsbD 5 = g.sr.getLsbD 5
    (∀ r : Fin 8, StoreReady s e a 8 → ∃ t, exec (.std e m r) s = .next t ∧
      did t (low 8 (g.d.get r).toNat) ∧ sov t) ∧
    (∀ (r : Fin 8) (l : Fin 4), StoreReady s e a 2 → ∃ t, exec (.sth e m r l) s = .next t ∧
      did t (low 2 ((g.d.get r).toNat / 2 ^ (16 * l.val))) ∧ sov t) ∧
    (∀ r : Fin 8, StoreReady s e a 4 → ∃ t, exec (.stg e m r) s = .next t ∧
      did t (low 4 (g.gr r).toNat) ∧ sov t) ∧
    (∀ k : Fin 4, StoreReady s e a 8 → ∃ t, exec (.stx e m k) s = .next t ∧
      did t (low 8 ((g.acc.get k).signExtend 64).toNat) ∧ sov t) ∧
    (∀ (k : Fin 4) (sh : BitVec 4), StoreReady s e a 2 →
      let v := (g.acc.get k).toInt * 2 ^ (sh.toInt + 8).toNat / 2 ^ 23
      ∃ t, exec (.sta e m k sh) s = .next t ∧
      did t (low 2 (BitVec.ofInt 16 (max (-32768) (min 32767 v))).toNat) ∧
      ((t.dev.eng e).sr.getLsbD 5 = true ↔
        g.sr.getLsbD 5 = true ∨ g.held k = true ∨ v < -32768 ∨ 32767 < v)))

/-- B, RPTI and RPTG: a taken branch goes to its target in 2 cycles and closes the blocks whose body excludes it;
one that is not taken costs 1 cycle; a block repeat opens a block with its count, an RPTG of count 0 skips the body
in 2 cycles (R243, R244, R245, R246, R248, R252). The model's own choices and readings in it: log entry 3. -/
def Obligations.BrushFlow : Prop :=
  ∀ (s : State) (e : Fin 4), EngineReady s e →
    let g := s.dev.eng e
    let z := g.sr.getLsbD 8
    let n := g.sr.getLsbD 9
    let aov := g.sr.getLsbD 4
    let conds : List (Fin 16 × Bool) := [(0, true), (1, z), (2, !z), (3, n), (4, !n), (5, !z && !n),
      (6, z || n), (7, aov), (8, !aov)]
    let moved := fun (t : State) (pc : Nat) (rpts : List Rpt) (n : Nat) => EngineOnly s t e ∧
      (t.dev.eng e).pc = BitVec.ofNat 16 pc ∧ (t.dev.eng e).rpts = rpts ∧
      (t.dev.eng e).cycles = g.cycles + n ∧ bits (t.dev.eng e).sr 11 10 = rpts.length % 4 ∧
      (∀ i, i < 10 → (t.dev.eng e).sr.getLsbD i = g.sr.getLsbD i)
    let opens := fun (last : BitVec 16) => g.pc.toNat < last.toNat ∧ g.rpts.length < 3 ∧
      (∀ r ∈ g.rpts.head?, last.toNat < r.last)
    let opened := fun (t : State) (count : Nat) (last : BitVec 16) =>
      moved t (g.pc.toNat + 1) ({ start := g.pc.toNat + 1, last := last.toNat } :: g.rpts) 1 ∧
      ∀ k : Fin 3, k.val = g.rpts.length → ((t.dev.eng e).lc.get k).toNat = count
    (∀ (c : Fin 16) (target : BitVec 16), (c, true) ∈ conds → ∃ t, exec (.b e c target) s = .next t ∧
      moved t target.toNat
        (g.rpts.dropWhile (fun r => decide (target.toNat < r.start ∨ r.last < target.toNat))) 2 ∧
      { (t.dev.eng e) with pc := g.pc, rpts := g.rpts, sr := g.sr, cycles := g.cycles } = g) ∧
    (∀ (c : Fin 16) (target : BitVec 16), (c, false) ∈ conds → ∃ t, exec (.b e c target) s = .next t ∧
      EngineOnly s t e ∧ EngineHas t e g 1) ∧
    (∀ (c : Fin 1024) (last : BitVec 16), opens last → ∃ t, exec (.rpti e c last) s = .next t ∧
      opened t (if c.val = 0 then 1024 else c.val) last) ∧
    (∀ (r : Fin 8) (last : BitVec 16), opens last → 0 < (g.gr r).toNat → (g.gr r).toNat ≤ 65535 →
      ∃ t, exec (.rptg e r last) s = .next t ∧ opened t (g.gr r).toNat last) ∧
    (∀ (r : Fin 8) (last : BitVec 16), g.pc.toNat < last.toNat → (∀ b ∈ g.rpts.head?, last.toNat < b.last) →
      g.gr r = 0 → ∃ t, exec (.rptg e r last) s = .next t ∧ EngineOnly s t e ∧
      (t.dev.eng e).pc = BitVec.ofNat 16 (last.toNat + 1) ∧
      { (t.dev.eng e) with pc := g.pc, cycles := g.cycles } = g ∧ (t.dev.eng e).cycles = g.cycles + 2)

/-- XIN, XIN_COMPLETE, WAITX and END: a copy is taken from committed contents while fewer than four are
outstanding, a fifth waits; its completion writes its words to local memory and lets the engine go on; WAITX waits
while copies are outstanding; END begins the commit with cause 0, or 1 where SR.aov is set (R227, R237, R248, R251,
R253). The model's own choices and readings in it: log entries 3, 40, 65. -/
def Obligations.BrushTransfersAndEnd : Prop :=
  ∀ (s : State) (e : Fin 4),
    let g := s.dev.eng e
    (EngineReady s e →
      (∀ (p q : Fin 8) (n : Fin 256) (m : JobMem) (o : Nat),
        let src := (g.pt.get p).toNat
        let dst := (g.pt.get q).toNat
        let len := 4 * (n.val + 1)
        src % 4 = 0 → dst % 4 = 0 → jobMem dst len = some (.local_ o) → jobMem src len = some m →
        (∀ i, i < len → s.dev.flipAt (m.code e + i) = 0) →
        (g.xins.length < 4 → ∃ t, exec (.xin e p q n) s = .next t ∧ EngineOnly s t e ∧
          EngineHas t e { g with xins := g.xins ++
            [XinCopy.mk src dst ((List.range len).map (fun i => s.dev.byteAt (m.code e + i)))] } 1) ∧
        (4 ≤ g.xins.length → ∃ t, exec (.xin e p q n) s = .next t ∧ EngineOnly s t e ∧
          t.dev.eng e = { g with waiting := true })) ∧
      (g.xins = [] → ∃ t, exec (.waitx e) s = .next t ∧ EngineOnly s t e ∧ EngineHas t e g 1) ∧
      (g.xins ≠ [] → ∃ t, exec (.waitx e) s = .next t ∧ EngineOnly s t e ∧
        t.dev.eng e = { g with waiting := true }) ∧
      (∃ t, exec (.endJob e) s = .next t ∧ EngineOnly s t e ∧
        t.dev.eng e = { g with
          committing := true, cause := if g.sr.getLsbD 4 then 1 else 0,
          cycles := g.cycles + 1 + (if g.sr.getLsbD 4 then 0 else g.commit.length) })) ∧
    (∀ x rest, g.xins = x :: rest → ∃ t, exec (.xinComplete e) s = .next t ∧
      (∀ i, i < x.words.length → t.dev.byteAt (memCode (4 + e) x.dst + i) = x.words.getD i 0) ∧
      (∀ c, c < memCode (4 + e) x.dst ∨ memCode (4 + e) x.dst + x.words.length ≤ c →
        t.dev.byteAt c = s.dev.byteAt c) ∧
      (∃ w, w ≤ 32 + x.words.length / 4 ∧
        t.dev.eng e = { g with xins := rest, waiting := false, cycles := g.cycles + w }) ∧
      (∀ k, k ≠ e.val → t.dev.eng k = s.dev.eng k) ∧ RegsKept s t [R.ECC_INJ_CTRL.adr])

/-- A reserved opcode, condition, special-register index or field, a misaligned access and a broken block-repeat
rule end the job with a job fault: the code, the job and the program counter are latched, the engine becomes idle
with its posted stores discarded, the job's status has cause 4 and its result-valid bit cleared, and no byte of the
Canvas changes (R222, R242, R244, R249, R254, R257). The model's own choices and readings in it: log entry 3. -/
def Obligations.BrushJobFaults : Prop :=
  ∀ (s : State) (e : Fin 4), EngineReady s e → (s.dev.eng e).job < 1024 →
    EaselOk s → LinksOk s (0x100 + (s.dev.eng e).job) →
    let g := s.dev.eng e
    let fault := fun (t : State) (code : Nat) =>
      t.dev.rd (R.BR_E_FLT.adr e) = word (code * 2 ^ 28 + g.job * 2 ^ 16 + g.pc.toNat) ∧
      t.dev.flag R.BR_EVT.fault = true ∧
      (t.dev.eng e).busy = false ∧ (t.dev.eng e).commit = [] ∧
      t.dev.fld (R.BR_JSTAT.cause g.job) = 4 ∧ t.dev.flag (R.BR_JSTAT.rv g.job) = false ∧
      MemKept s t ∧ t.stations = s.stations
    (∀ op : BitVec 6, op.toNat ∈ [0x00, 0x16, 0x17, 0x23, 0x24, 0x25, 0x26, 0x27, 0x32, 0x33, 0x34, 0x35,
        0x36, 0x37, 0x3D] → ∃ t, exec (.reservedOpcode e op) s = .next t ∧ fault t 1) ∧
    (∀ (c : Fin 16) (target : BitVec 16), 9 ≤ c.val → ∃ t, exec (.b e c target) s = .next t ∧ fault t 1) ∧
    (∀ (r : Fin 8) (x : Fin 64), 37 ≤ x.val → ∃ t, exec (.movs e r x) s = .next t ∧ fault t 1) ∧
    (∀ (r : Fin 8) (x : Fin 64), 32 ≤ x.val → ∃ t, exec (.movp e r x) s = .next t ∧ fault t 1) ∧
    (∀ (r k : Fin 8), 1023 < (g.gr k).toNat → ∃ t, exec (.jst e r k) s = .next t ∧ fault t 1) ∧
    (∀ f : VecOp, f.x ≠ 0 → (∃ t, exec (.vmov e f) s = .next t ∧ fault t 1) ∧
      (∃ t, exec (.vneg e f) s = .next t ∧ fault t 1)) ∧
    (∀ (m : MemOp) (r : Fin 8), m.ok = true → operandAddress g m % 8 ≠ 0 →
      (∃ t, exec (.ldd e m r) s = .next t ∧ fault t 2) ∧
      (∃ t, exec (.std e m r) s = .next t ∧ fault t 2)) ∧
    (∀ (c : Fin 1024) (last : BitVec 16), last.toNat ≤ g.pc.toNat ∨ 3 ≤ g.rpts.length →
      ∃ t, exec (.rpti e c last) s = .next t ∧ fault t 5)

/-- BR_PM_DATA writes the word to the program memory of every addressed engine, a read leaves memory as it is, and
both raise the word address by one; outside Load and Service a write only sets pm_rej (R260). The model's own
choices and readings in it: log entry 65. -/
def Obligations.BrushProgramMemory : Prop :=
  ∀ (s : State) (m : Master) (v : Word),
    let a := s.dev.fld R.BR_PM_ADDR.addr
    let at_ := fun (e i : Nat) => memCode (8 + e) (4 * a) + i
    let addressed := fun (e : Nat) => s.dev.fld R.BR_PM_ADDR.eng_mask / 2 ^ e % 2 = 1
    (s.dev.loadOrService = true → ∃ t, exec (.brPmDataWrite m v) s = .next t ∧
      (∀ e i, e < 4 → i < 4 → addressed e → t.dev.byteAt (at_ e i) = v.extractLsb' (8 * i) 8) ∧
      (∀ c, (∀ e i, e < 4 → i < 4 → addressed e → c ≠ at_ e i) → t.dev.byteAt c = s.dev.byteAt c) ∧
      t.dev.fld R.BR_PM_ADDR.addr = (a + 1) % 65536 ∧
      RegsKept s t [R.BR_PM_ADDR.adr, R.ECC_INJ_CTRL.adr] ∧ t.stations = s.stations) ∧
    (s.dev.loadOrService = false → ∃ t, exec (.brPmDataWrite m v) s = .next t ∧
      t.dev.flag R.BR_EVT.pm_rej = true ∧ RegsKept s t [R.BR_EVT.adr] ∧ OnlyRegs s t) ∧
    ((∀ e i, e < 4 → i < 4 → s.dev.flipAt (at_ e i) = 0) → ∃ t, exec (.brPmDataRead m) s = .next t ∧
      t.dev.fld R.BR_PM_ADDR.addr = (a + 1) % 65536 ∧ RegsKept s t [R.BR_PM_ADDR.adr] ∧ OnlyRegs s t)

/-- Every count-clear command clears exactly the counters that its register names, every other bit of every
register reads as before and nothing else of the block differs; ST_CTRL.cnt_clr leaves the consecutive babbles of a
station whose windows are disabled, and an axis that is neither servo nor stepper has no counters to clear
(EZ_CTRL, BR_CTRL, ML_CTRL, ST_CTRL, AX_CTRL, AX_CMP_CTRL, PL_GRP_CTRL, SF_CTRL, TW_CTRL, VN_CTRL, ECC_CTRL,
DEV_CTRL). The model's own choices and readings in it: log entry 3. -/
def Obligations.CountClears : Prop :=
  ∀ s : State,
    (∃ t, exec .ezHistClr s = .next t ∧ FieldsCleared s t
      ((List.range 7).flatMap (fun e => (List.range 16).map (fun b => R.EZ_HIST.cnt e b)))) ∧
    (∃ t, exec .ezMaxClr s = .next t ∧ FieldsCleared s t
      ([R.EZ_STAT.inflight_max, R.EZ_SPILL.spill_max] ++
        (List.range 7).flatMap (fun e => [R.EZ_ENG_DEPTH.depth_max e, R.EZ_ENG_FIN.fin_max_4ns e]))) ∧
    (∃ t, exec .brCntClr s = .next t ∧ FieldsCleared s t
      ((List.range 4).flatMap (fun e => [R.BR_E_CYC.cyc_max e, wholeReg (R.BR_E_JOBS.adr e),
        wholeReg (R.BR_E_INV.adr e), wholeReg (R.BR_E_OVR.adr e)]))) ∧
    (∀ l : Fin 8, ∃ t, exec (.mlCntClr l) s = .next t ∧ FieldsCleared s t
      ((List.range 16).map (fun i => wholeReg (R.ML_CNT.adr l i)))) ∧
    (∀ n : Fin 256,
      let l := [wholeReg (R.ST_CNT_SEG.adr n), R.ST_CNT_BAB.total n, wholeReg (R.ST_CNT_EDGE.adr n),
        wholeReg (R.ST_CNT_DLY.adr n), wholeReg (R.ST_CNT_SYNC.adr n), wholeReg (R.ST_CNT_CMD.adr n),
        wholeReg (R.ST_CNT_AGE.adr n), R.ST_SYNC.max_abs n]
      ∃ t, exec (.stCntClr n) s = .next t ∧
        FieldsCleared s t (if s.dev.winDis n then l else R.ST_CNT_BAB.consec n :: l)) ∧
    (∀ a : Fin 128, ∃ t, exec (.axCntClr a) s = .next t ∧
      if s.dev.axUsed a then FieldsCleared s t [wholeReg (R.AX_CNT.adr a)] else t = s) ∧
    (∀ l : Fin 16, ∃ t, exec (.axCmpCntClr l) s = .next t ∧
      FieldsCleared s t [wholeReg (R.AX_CMP_CNT.adr l)]) ∧
    (∀ g : Fin 96, ∃ t, exec (.plGrpCntClr g) s = .next t ∧
      FieldsCleared s t [wholeReg (R.PL_GRP_CNT.adr g)]) ∧
    (∃ t, exec .sfCntClr s = .next t ∧ FieldsCleared s t
      (R.SF_OUT_STAT.tests :: (List.range 64).map (fun c => wholeReg (R.SF_CONN_CNT.adr c)))) ∧
    (∃ t, exec .twCntClr s = .next t ∧ FieldsCleared s t [R.TW_CNT_COPY.missed,
      wholeReg R.TW_CNT_SW.adr, wholeReg R.TW_CNT_DIV.adr, wholeReg R.TW_LINK.adr]) ∧
    (∃ t, exec .vnCntClr s = .next t ∧ FieldsCleared s t [wholeReg R.VN_CNT_DROP.adr,
      wholeReg R.VN_CNT_RTX.adr, R.VN_FILL.fill_max]) ∧
    (∃ t, exec .eccCntClr s = .next t ∧ FieldsCleared s t [wholeReg R.ECC_CNT.adr, R.ECC_LOG_STAT.lost]) ∧
    (∃ t, exec .devCntClr s = .next t ∧ FieldsCleared s t [wholeReg R.DEV_CNT.adr])

/-- Every step keeps the limits of the Brush engines: 3 active block repeats, 4 outstanding copies, 256 posted
stores, each in the Canvas (R226, R243, R251). Every step keeps the dispatcher's four local queues and three thread
engines, and its threads among the 1,024; at reset they stand (R203, R205). -/
def Obligations.EnginesAndDispatcherKeepTheirLimits : Prop :=
  (∀ s t : State, EnginesOk s → step s = .next t → EnginesOk t) ∧
  (EaselOk State.reset ∧ EnginesOk State.reset ∧
  ∀ s t : State, EaselOk s → step s = .next t → EaselOk t)

/-- SIG and EZ_SIG signal one counter: above 1 it is decremented; at 1 its target becomes ready and it reads 0; at
0 it sets the under-run bit; the counter of a job that is not due takes nothing; a thread that is not waiting gets
pend; the host may not signal a counter of the firmware (R191, R192, R198, R202, R208, R209, R210). EZ_RELEASE lets
every feedback source of the mode in force signal once, and does nothing a second time in a tick; a timer that is
due signals every counter of its link list, one that is not changes nothing (R192, R195, R196). The model's own
choices and readings in it: log entry 3. -/
def Obligations.EaselSignalsAndSources : Prop :=
  (∀ (s : State) (k : Fin 3) (c : Fin 4096) (at_ : Nat),
    let kind := s.dev.fld (R.EZ_CNT.kind c)
    let tgt := s.dev.fld (R.EZ_CNT.tgt c)
    let cur := s.dev.fld (R.EZ_CNT.cur c)
    let takes := kind ≠ 1 ∨ tgt ∈ s.dev.easel.due
    let st := s.dev.fld (R.EZ_THR.state tgt)
    let home := s.dev.fld (R.EZ_THR.home tgt)
    let prio := s.dev.fld (R.EZ_THR.prio tgt)
    (∀ (m : Master) (v : Word), bits v 11 0 = c →
      (m ≠ .host ∨ c.val < 3968 → ∃ t, exec (.ezSig m v at_) s = .next t ∧ exec (.sig k c at_) s = .next t) ∧
      (m = .host ∧ 3968 ≤ c.val → ∃ t, exec (.ezSig m v at_) s = .next t ∧
        FieldsSet s t [(R.EZ_EVT.cfg_rej, 1)])) ∧
    (¬ takes → ∃ t, exec (.sig k c at_) s = .next t ∧ t = s) ∧
    (takes → 1 < cur → ∃ t, exec (.sig k c at_) s = .next t ∧ FieldsSet s t [(R.EZ_CNT.cur c, cur - 1)]) ∧
    (takes → cur = 0 → ¬ (kind = 2 ∧ 2 ≤ st) → ∃ t, exec (.sig k c at_) s = .next t ∧
      FieldsSet s t [(R.EZ_EVT.underrun, 1)]) ∧
    (cur = 1 → kind ≠ 1 → kind ≠ 2 → ∃ t, exec (.sig k c at_) s = .next t ∧
      FieldsSet s t [(R.EZ_CNT.cur c, 0)]) ∧
    (∀ jd, cur = 1 → kind = 1 → takes → s.dev.jobDef? tgt = some jd →
      ∃ t, exec (.sig k c at_) s = .next t ∧ t.dev.fld (R.EZ_CNT.cur c) = 0 ∧
        t.dev.easel.ready =
          readyWith s (ReadyEnt.mk true tgt (0) (jd.prio) false at_) ∧
        RegsKept s t (R.EZ_CNT.adr c :: easelRegs) ∧ MemKept s t ∧ OnlyDev s t) ∧
    (cur ≤ 1 → kind = 2 → 2 ≤ st → s.dev.taskOf? tgt = none →
      ∃ t, exec (.sig k c at_) s = .next t ∧ t.dev.fld (R.EZ_CNT.cur c) = 0 ∧
        t.dev.flag (R.EZ_CNT.pend c) = true ∧ t.dev.easel = s.dev.easel ∧
        BitsKept s t [R.EZ_CNT.cur c, R.EZ_CNT.pend c] ∧ MemKept s t ∧ OnlyDev s t) ∧
    (cur = 1 → kind = 2 → st < 2 → home < 3 →
      (∀ r, s.dev.running home = some r → s.dev.flag R.EZ_CFG.pre_en = true →
        s.dev.fld (R.EZ_THR.prio r) ≤ prio) →
      ∃ t, exec (.sig k c at_) s = .next t ∧ t.dev.fld (R.EZ_CNT.cur c) = 0 ∧
        t.dev.fld (R.EZ_THR.state tgt) = 2 ∧ t.dev.easel.preempted = s.dev.easel.preempted ∧
        t.dev.easel.threads = s.dev.easel.threads ∧
        t.dev.easel.ready =
          readyWith s (ReadyEnt.mk false tgt (4 + home) (prio) false at_) ∧
        RegsKept s t (R.EZ_CNT.adr c :: R.EZ_THR.adr tgt :: easelRegs) ∧ MemKept s t ∧ OnlyDev s t) ∧
    (∀ r, cur = 1 → kind = 2 → st < 2 → home < 3 → s.dev.running home = some r → r ≠ tgt → r < 1024 →
      s.dev.flag R.EZ_CFG.pre_en = true → prio < s.dev.fld (R.EZ_THR.prio r) →
      ∃ t, exec (.sig k c at_) s = .next t ∧ t.dev.fld (R.EZ_THR.state tgt) = 2 ∧
        t.dev.fld (R.EZ_THR.state r) = 4 ∧ t.dev.running home = none ∧
        t.dev.easel.preempted = (ReadyEnt.mk false r (4 + home) (s.dev.fld (R.EZ_THR.prio r)) false at_) :: s.dev.easel.preempted ∧
        RegsKept s t (R.EZ_CNT.adr c :: R.EZ_THR.adr tgt :: R.EZ_THR.adr r :: easelRegs) ∧
        MemKept s t ∧ OnlyDev s t)) ∧
  (∀ s : State,
    (s.dev.easel.released = true → ∃ t, exec .ezRelease s = .next t ∧ t = s) ∧
    (s.dev.easel.released = false → ∃ t, exec .ezRelease s = .next t ∧ t.dev.easel.released = true ∧
      (∀ m l, s.dev.schedMode? s.dev.sched = some m → l ∈ m.lists → 1 ≤ l.src → l.src ≤ 0xFF →
        l.src ∈ t.dev.easel.sources) ∧
      (∀ x, x ∈ s.dev.easel.sources → x ∈ t.dev.easel.sources) ∧ MemKept s t ∧ OnlyDev s t) ∧
    (∀ k : Fin 64,
      let due := s.dev.flag (R.EZ_TMR_OFS.en k) = true ∧ s.dev.fld (R.EZ_TMR_PER.period k) ≠ 0 ∧
        s.dev.tick % s.dev.fld (R.EZ_TMR_PER.period k) =
          s.dev.fld (R.EZ_TMR_PER.phase k) % s.dev.fld (R.EZ_TMR_PER.period k)
      (¬ due → ∃ t, exec (.easelTimer k) s = .next t ∧ t = s) ∧
      (due → ∃ t, exec (.easelTimer k) s = .next t ∧ SourceSignalled s t (0x900 + k) ∧ MemKept s t ∧
        OnlyDev s t)))

/-- JOB_DISPATCH moves the ready job of highest priority, first in, first out, that an engine of its mask with room
may take to the local queue of the one with the fewest outstanding declared cycles, the lowest-numbered of equals;
with no such job nothing changes (R202, R203). JOB_START starts the next queued job of an idle engine: its wait
goes into its histogram bin, the dispatch context stands at 0x0007_FFC0, SR and CL0 to CL7 are 0, G0 to G3 and PC
are loaded and every other register keeps its value; a busy engine, an empty queue and a tick past EZ_DEADLINE
start nothing (R200, R203, R204, R213, R220, R223). JOB_COMMIT_COMPLETE writes the posted entries to the Canvas in
posting order where the job's result is valid and discards them where it is not; the job's status, the engine's
counts and idleness and the signals of its end follow; an engine that does not commit is left as it is (R199, R227,
R237, R257, R258, R261). The model's own choices and readings in it: log entries 3, 23. -/
def Obligations.JobsFromDispatchToCommit : Prop :=
  (∀ (s : State),
    let fits := fun (j : JobDef) (e : Nat) => e < 4 ∧ j.engMask / 2 ^ e % 2 = 1 ∧ s.dev.hasRoom e = true
    let canGo := fun (x : ReadyEnt) => x.job = true ∧ ∃ j e, s.dev.jobDef? x.idx = some j ∧ fits j e
    (∀ l1 r l2 j e, s.dev.easel.ready = l1 ++ r :: l2 → r.job = true → r.prio < 32 →
      s.dev.jobDef? r.idx = some j → fits j e →
      (∀ x ∈ l1, canGo x → r.prio < x.prio) → (∀ x ∈ l2, canGo x → r.prio ≤ x.prio) →
      (∀ k, fits j k → s.dev.outstanding e ≤ s.dev.outstanding k ∧
        (k < e → s.dev.outstanding e < s.dev.outstanding k)) → e < s.dev.easel.queues.length →
      ∃ t, exec .jobDispatch s = .next t ∧ t.dev.easel.ready = l1 ++ l2 ∧
        (∀ k, t.dev.easel.queues.getD k [] = s.dev.easel.queues.getD k [] ++
          if k = e then [QueuedJob.mk r.idx r.prio j.cycles r.at_] else []) ∧
        RegsKept s t easelRegs ∧ MemKept s t ∧ OnlyDev s t) ∧
    ((∀ x ∈ s.dev.easel.ready, ¬ canGo x) → ∃ t, exec .jobDispatch s = .next t ∧ t = s)) ∧
  (∀ (s : State) (e : Fin 4) (at_ : Nat),
    let g := s.dev.eng e
    let ctx := memCode (4 + e) 0x7FFC0
    let inBin := fun (w b : Nat) => if b = 0 then w < 64 else if b < 15 then 2 ^ (b + 5) ≤ w ∧ w < 2 ^ (b + 6)
      else 2 ^ 20 ≤ w
    (g.busy = true ∨ s.dev.easel.closed = true ∨ s.dev.easel.queues.getD e [] = [] →
      ∃ t, exec (.jobStart e at_) s = .next t ∧ t = s) ∧
    (∀ l1 q l2 jd, g.busy = false → s.dev.easel.closed = false → s.dev.easel.queues.getD e [] = l1 ++ q :: l2 →
      (∀ x ∈ l1, q.prio < x.prio) → (∀ x ∈ l2, q.prio ≤ x.prio) →
      s.dev.jobDef? q.idx = some jd → jd.lib = .custom →
      let fb := ((s.dev.schedMode? s.dev.sched).map (fun m => m.fbMap)).getD 0
      let cmd := ((s.dev.schedMode? s.dev.easel.jobsFrom).map (fun m => m.cmdMap)).getD 0
      let c0 := word (s.dev.tick % 65536 * 65536 + q.idx)
      ∃ t, exec (.jobStart e at_) s = .next t ∧
        t.dev.easel.queues.getD e [] = l1 ++ l2 ∧
        (∀ b, b < 16 → t.dev.fld (R.EZ_HIST.cnt e b) =
          if inBin (at_ - q.at_) b then min (2 ^ 32 - 1) (s.dev.fld (R.EZ_HIST.cnt e b) + 1)
          else s.dev.fld (R.EZ_HIST.cnt e b)) ∧
        t.dev.peekWords ctx 16 = [c0, jd.param, word fb, word cmd,
          word (s.dev.easel.jobsFrom * 16 + s.dev.sched), word s.dev.now] ++ List.replicate 10 0 ∧
        (∀ a, a < ctx ∨ ctx + 64 ≤ a → t.dev.byteAt a = s.dev.byteAt a) ∧
        t.dev.eng e = { g with
          busy := true, committing := false, cause := 0, job := q.idx, jobTick := s.dev.tick, lib := none,
          sr := 0, cl := Vector.replicate 8 0, jobWord := c0, pc := BitVec.ofNat 16 (jd.entry / 4),
          g := (((g.g.set 0 jd.param).set 1 (word fb)).set 2 (word cmd)).set 3 c0,
          rpts := [], holdAt := Vector.replicate 4 0, commit := [], xins := [], waiting := false,
          startAt := at_, cycles := 0 } ∧
        t.dev.flag (R.BR_E_STAT.busy e) = true ∧ t.dev.fld (R.BR_E_STAT.job e) = q.idx % 1024 ∧
        (∀ k, k ≠ e.val → t.dev.eng k = s.dev.eng k) ∧ OnlyDev s t)) ∧
  (∀ (s : State) (e : Fin 4) (at_ : Nat),
    let g := s.dev.eng e
    let done := fun (t : State) (cause : Nat) =>
      (t.dev.eng e).busy = false ∧ (t.dev.eng e).committing = false ∧ (t.dev.eng e).commit = [] ∧
      t.dev.flag (R.BR_E_STAT.busy e) = false ∧
      t.dev.fld (R.BR_JSTAT.cause g.job) = cause ∧ (t.dev.flag (R.BR_JSTAT.rv g.job) = true ↔ cause = 0) ∧
      t.dev.fld (R.BR_JSTAT.eng g.job) = e ∧
      t.dev.fld (R.BR_JSTAT.inv_run g.job) =
        (if cause = 0 then 0 else min 255 (s.dev.fld (R.BR_JSTAT.inv_run g.job) + 1)) ∧
      t.dev.fld (R.BR_E_JOBS.jobs e) = min (2 ^ 32 - 1) (s.dev.fld (R.BR_E_JOBS.jobs e) + 1) ∧
      g.job ∉ t.dev.easel.due ∧ OnlyDev s t
    (¬ (g.busy = true ∧ g.committing = true) → ∃ t, exec (.jobCommitComplete e at_) s = .next t ∧ t = s) ∧
    (g.busy = true → g.committing = true → g.job < 1024 → EaselOk s → LinksOk s (0x100 + g.job) → g.lib = none →
      (∀ p ∈ g.commit, p.addr + p.bytes.length ≤ 0x600000) →
      (g.cause = 0 → ∃ t, exec (.jobCommitComplete e at_) s = .next t ∧ done t 0 ∧
        (∀ o, o < 0x600000 → t.dev.byteAt (memCode 0 o) =
          (postedByte g.commit o).getD (s.dev.byteAt (memCode 0 o))) ∧
        (∀ c, 0x600000 ≤ c → t.dev.byteAt c = s.dev.byteAt c) ∧
        t.dev.easel.doneCnt = s.dev.easel.doneCnt + 1) ∧
      (g.cause = 1 → (∀ jd, s.dev.jobDef? g.job = some jd → jd.lib = .custom) →
        ∃ t, exec (.jobCommitComplete e at_) s = .next t ∧ done t 1 ∧ MemKept s t ∧
          t.dev.easel.doneCnt = s.dev.easel.doneCnt + 1)))

/-- TAKE, WAIT, DONE, YIELD and START: the kernel takes the thread of highest priority, a pre-empted one ahead of
the ready ones of its priority; the running thread waits with its counter reloaded, ends with its completion source
signalled, or goes to the tail of its priority; a dormant thread is armed or becomes ready (R207, R208, R209).
SPILL_READBACK brings the oldest spilled entry on-chip where one of the 512 on-chip entries is free; one that
cannot be read is rebuilt and goes to the tail, with the error counted and EZ_EVT.ecc set (R212, R523). The model's
own choices and readings in it: log entries 3, 63. -/
def Obligations.KernelAndSpill : Prop :=
  (∀ (s : State) (k : Fin 3) (at_ : Nat), EaselOk s →
    let z := s.dev.easel
    let mine := fun (r : ReadyEnt) => r.eng = 4 + k.val
    let took := fun (t : State) (r : ReadyEnt) (pre : Bool) =>
      t.dev.running k = some r.idx ∧
      t.dev.rd (R.EZ_K_RES.adr k) = word (b2n pre * 2 ^ 30 + r.prio * 2 ^ 10 + r.idx) ∧
      t.dev.fld (R.EZ_THR.state r.idx) = 3 ∧ MemKept s t ∧ OnlyDev s t
    (∀ r, s.dev.running k = some r → ∃ t, exec (.take k at_) s = .next t ∧ t = s) ∧
    (s.dev.running k = none → (∀ r ∈ z.preempted, mine r → 32 ≤ r.prio) →
      (∀ r ∈ z.ready, r.job = false → mine r → 32 ≤ r.prio) →
      ∃ t, exec (.take k at_) s = .next t ∧ FieldsSet s t [(wholeReg (R.EZ_K_RES.adr k), 0x80000000)]) ∧
    (∀ l1 r l2, s.dev.running k = none → z.ready = l1 ++ r :: l2 → r.job = false → mine r → r.prio < 32 →
      (∀ x ∈ z.preempted, mine x → r.prio < x.prio) →
      (∀ x ∈ l1, x.job = false → mine x → r.prio < x.prio) →
      (∀ x ∈ l2, x.job = false → mine x → r.prio ≤ x.prio) →
      ∃ t, exec (.take k at_) s = .next t ∧ took t r false ∧ t.dev.easel.ready = l1 ++ l2) ∧
    (∀ l1 r l2, s.dev.running k = none → z.preempted = l1 ++ r :: l2 → mine r → r.prio < 32 →
      (∀ x ∈ l1, mine x → r.prio < x.prio) → (∀ x ∈ l2, mine x → r.prio ≤ x.prio) →
      (∀ x ∈ z.ready, x.job = false → mine x → r.prio ≤ x.prio) →
      ∃ t, exec (.take k at_) s = .next t ∧ took t r true ∧ t.dev.easel.preempted = l1 ++ l2 ∧
        t.dev.easel.ready = z.ready) ∧
    (s.dev.running k = none →
      (∃ t, exec (.wait k at_) s = .next t ∧ t = s) ∧ (∃ t, exec (.done k at_) s = .next t ∧ t = s) ∧
      (∃ t, exec (.yield k at_) s = .next t ∧ t = s)) ∧
    (∀ r, s.dev.running k = some r → r < 1024 →
      let c := s.dev.fld (R.EZ_THR.cnt r)
      (∃ t, exec (.wait k at_) s = .next t ∧
        t.dev.fld (R.EZ_CNT.cur c) = s.dev.fld (R.EZ_CNT.init c) ∧
        (s.dev.flag (R.EZ_CNT.pend c) = false → t.dev.running k = none ∧ t.dev.fld (R.EZ_THR.state r) = 1) ∧
        (s.dev.flag (R.EZ_CNT.pend c) = true → t.dev.flag (R.EZ_CNT.pend c) = false ∧
          (s.dev.fld (R.EZ_THR.home r) < 3 → t.dev.fld (R.EZ_THR.state r) = 2)) ∧
        MemKept s t ∧ OnlyDev s t) ∧
      (∃ t, exec (.done k at_) s = .next t ∧ SourceSignalled s t (0x500 + r) ∧
        ((∀ n ∈ s.dev.links (0x500 + r), s.dev.fld (R.EZ_CNT.kind n) ≠ 2) →
          t.dev.fld (R.EZ_THR.state r) = 0 ∧ t.dev.running k = none) ∧ MemKept s t ∧ OnlyDev s t) ∧
      (∃ t, exec (.yield k at_) s = .next t ∧ t.dev.running k = none ∧ t.dev.fld (R.EZ_THR.state r) = 2 ∧
        t.dev.easel.ready = readyWith s (ReadyEnt.mk false r (4 + k.val) (s.dev.fld (R.EZ_THR.prio r)) false at_) ∧
        RegsKept s t (R.EZ_THR.adr r :: easelRegs) ∧ MemKept s t ∧ OnlyDev s t)) ∧
    (∀ (r : Fin 1024),
      let c := s.dev.fld (R.EZ_THR.cnt r)
      let i := s.dev.fld (R.EZ_CNT.init c)
      (s.dev.fld (R.EZ_THR.state r) ≠ 0 → ∃ t, exec (.start k r at_) s = .next t ∧ t = s) ∧
      (s.dev.fld (R.EZ_THR.state r) = 0 → i ≠ 0 → ∃ t, exec (.start k r at_) s = .next t ∧
        FieldsSet s t [(R.EZ_CNT.cur c, i), (R.EZ_THR.state r, 1)]) ∧
      (s.dev.fld (R.EZ_THR.state r) = 0 → i = 0 → s.dev.fld (R.EZ_THR.home r) < 3 →
        s.dev.running (s.dev.fld (R.EZ_THR.home r)) = none → ∃ t, exec (.start k r at_) s = .next t ∧
        t.dev.fld (R.EZ_CNT.cur c) = 0 ∧ t.dev.fld (R.EZ_THR.state r) = 2 ∧
        t.dev.easel.ready = readyWith s (ReadyEnt.mk false r.val (4 + s.dev.fld (R.EZ_THR.home r)) (s.dev.fld (R.EZ_THR.prio r)) false at_) ∧
        RegsKept s t (R.EZ_CNT.adr c :: R.EZ_THR.adr r :: easelRegs) ∧ MemKept s t ∧ OnlyDev s t))) ∧
  (∀ (s : State),
    ((∀ r ∈ s.dev.easel.ready, r.spilled = false) → ∀ bad, ∃ t, exec (.spillReadback bad) s = .next t ∧ t = s) ∧
    (∀ l1 r l2, s.dev.easel.ready = l1 ++ r :: l2 → (∀ x ∈ l1, x.spilled = false) → r.spilled = true →
      ((s.dev.easel.ready.filter (fun x => ! x.spilled)).length < 512 →
        ∃ t, exec (.spillReadback false) s = .next t ∧
          t.dev.easel.ready = l1 ++ { r with spilled := false } :: l2 ∧
          RegsKept s t easelRegs ∧ MemKept s t ∧ OnlyDev s t) ∧
      (∃ t, exec (.spillReadback true) s = .next t ∧
        t.dev.easel.ready = l1 ++ l2 ++ [{ r with spilled := false }] ∧
        t.dev.flag R.EZ_EVT.ecc = true ∧
        t.dev.fld R.ECC_CNT.unc = min 255 (s.dev.fld R.ECC_CNT.unc + 1) ∧
        MemKept s t ∧ OnlyDev s t)))

/-- TICK_INSTANT: the device that numbers ticks turns to the next number, with TIM_TICK_CNT, the event classes of
the tick that ends, a fresh dispatcher with its times of EZ_DEADLINE and EZ_RELEASE, and the committed epoch offset
in force; a tick whose deadline has not been taken takes it first; before its first tick the device changes
nothing; every station that holds a time numbers the next tick (R13, R27, R32, R42, R60, R163, R198; taking the
deadline first is the model's choice, log entry 13). EZ_DEADLINE closes the tick's jobs once: afterwards an engine
is busy only where its commit was in progress, and that engine is as it was; outside a numbered tick, or a second
time, nothing changes (R18, R200, R253). The model's own choices and readings in it: log entries 14, 24, 53. -/
def Obligations.TickAndDeadline : Prop :=
  (∀ (s : State) (ss : List StSample),
    (s.dev.time.numbered = false → s.dev.net.abortNext = none →
      ∃ t, exec (.tickInstant ss) s = .next t ∧ t.dev = { s.dev with out := [] }) ∧
    (s.dev.time.numbered = true → s.dev.easel.closed = true → s.dev.net.abortNext = none →
      s.dev.host.inbox = [] → s.dev.isTwin = false →
      ∃ t, exec (.tickInstant ss) s = .next t ∧
        t.dev.time.tick = s.dev.time.tick + 1 ∧ t.dev.rd R.TIM_TICK_CNT.adr = word (s.dev.time.tick + 1) ∧
        t.dev.time.numbered = true ∧ t.dev.fld R.TIM_EVT_LAST.cls = s.dev.time.evtCls % 64 ∧
        t.dev.easel.closed = false ∧ t.dev.easel.released = false ∧
        t.dev.easel.deadlineNs = s.dev.fld R.EZ_DEADLINE.deadline_ns ∧
        t.dev.easel.releaseNs = s.dev.fld R.EZ_RELEASE.release_ns ∧
        t.dev.time.epochPend = none ∧
        (∀ v, s.dev.time.epochPend = some v →
          t.dev.rd R.TIM_EPOCH_HI.adr = v.extractLsb' 32 32 ∧ t.dev.rd R.TIM_EPOCH_LO.adr = v.extractLsb' 0 32)) ∧
    (∀ u, s.dev.time.numbered = true → s.dev.easel.closed = false → exec .ezDeadline s = .next u →
      ∃ t t', exec (.tickInstant ss) s = .next t ∧ exec (.tickInstant ss) u = .next t' ∧ t.dev = t'.dev) ∧
    (∃ t, exec (.tickInstant ss) s = .next t ∧ t.pending = s.pending ∧
      (∀ a, s.stn? a = none → t.stn? a = none) ∧
      ∀ a x, s.stn? a = some x → ∃ y, t.stn? a = some y ∧ y.addr = x.addr ∧ y.cfgs = x.cfgs ∧
        (x.state = .forward → y.tick = x.tick ∧ y.state = .forward) ∧
        (x.state ≠ .forward → y.tick = x.tick + 1 ∧ y.domSeen = false ∧ y.fbSent = false ∧ y.cands = [] ∧
          (x.state = .coarse → y.state = .integrated → 7 ≤ x.good ∧ x.domSeen = true ∧ x.localOfs.natAbs ≤ 20)))) ∧
  (∀ s : State,
    (s.dev.time.numbered = false ∨ s.dev.easel.closed = true → ∃ t, exec .ezDeadline s = .next t ∧ t = s) ∧
    (s.dev.time.numbered = true → s.dev.easel.closed = false → ∃ t, exec .ezDeadline s = .next t ∧
      t.dev.easel.closed = true ∧ OnlyDev s t ∧
      ∀ e : Fin 4,
        ((s.dev.eng e).busy = true ∧ (s.dev.eng e).committing = true → t.dev.eng e = s.dev.eng e) ∧
        (¬ ((s.dev.eng e).busy = true ∧ (s.dev.eng e).committing = true) → (t.dev.eng e).busy = false) ∧
        t.dev.easel.queues.getD e [] = []))

/-- TIM_NOW_LO_READ gives the low word of network time and latches the upper word for its master; a write of
TIM_EPOCH_LO is buffered for its master, and one of TIM_EPOCH_HI commits both words for the next tick instant (R40,
R42, R628). TIM_CFG takes every value in Load and Service, and elsewhere only one that leaves the time mode and the
ball direction as they are; TIM_TICK takes a period of 15,625 to 250,000 ns in Load and Service where the timing
checks then hold; a rejected write only sets TIM_STAT.cfg_rej (R21, R29, R31, R587). The model's own choices and
readings in it: log entries 42, 43. -/
def Obligations.TimeReadAndConfigured : Prop :=
  (∀ (s : State) (m : Master) (v : Word) (ofs : Fin 262144),
    let now := if s.dev.time.numbered then s.dev.time.tick * s.dev.time.tickNs + ofs else 0
    let others := fun (l l' : List (Master × Word)) => ∀ k, k ≠ m → masterGet l' k = masterGet l k
    (∃ t, exec (.timNowLoRead m ofs) s = .next t ∧
      t.dev.rd R.TIM_NOW_LO.adr = word now ∧
      masterGet t.dev.time.nowHi m = some ((BitVec.ofNat 64 now).extractLsb' 32 32) ∧
      others s.dev.time.nowHi t.dev.time.nowHi ∧ RegsKept s t [R.TIM_NOW_LO.adr] ∧
      { (t) with dev := { t.dev with regs := s.dev.regs, time := s.dev.time } } = s) ∧
    (∃ t, exec (.timEpochLoWrite m v) s = .next t ∧ masterGet t.dev.time.epochLo m = some v ∧
      others s.dev.time.epochLo t.dev.time.epochLo ∧ t.dev.time.epochPend = s.dev.time.epochPend ∧
      { (t) with dev := { t.dev with time := s.dev.time, twin := s.dev.twin } } = s) ∧
    (∃ t, exec (.timEpochHiWrite m v) s = .next t ∧
      t.dev.time.epochPend = some (v ++ (masterGet s.dev.time.epochLo m).getD (s.dev.rd R.TIM_EPOCH_LO.adr)) ∧
      { (t) with dev := { t.dev with time := s.dev.time, twin := s.dev.twin } } = s)) ∧
  (∀ (s : State) (v : Word),
    let ls := s.dev.loadOrService = true
    let same := s.dev.timeModes = (bits v 0 0, bits v 1 1)
    let p := bits v 17 0
    let d2 := s.dev.set R.TIM_TICK.tick_ns p
    (ls ∨ same → ∃ t, exec (.timCfgWrite false v) s = .next t ∧ t.dev.rd R.TIM_CFG.adr = v &&& 7 ∧
      RegsKept s t [R.TIM_CFG.adr, R.DEV_STAT.adr] ∧ MemKept s t ∧ OnlyDev s t) ∧
    (¬ (ls ∨ same) → ∃ t, exec (.timCfgWrite false v) s = .next t ∧ FieldsSet s t [(R.TIM_STAT.cfg_rej, 1)]) ∧
    (¬ (ls ∧ 15625 ≤ p ∧ p ≤ 250000) → ∃ t, exec (.timCfgWrite true v) s = .next t ∧
      FieldsSet s t [(R.TIM_STAT.cfg_rej, 1)]) ∧
    (ls → 15625 ≤ p → p ≤ 250000 → d2.timingFail = none → d2.releaseFail = none → d2.pitchFail = none →
      ∃ t, exec (.timCfgWrite true v) s = .next t ∧ t.dev.fld R.TIM_TICK.tick_ns = p ∧
        RegsKept s t [R.TIM_TICK.adr, R.DEV_STAT.adr] ∧ OnlyRegs s t))

/-- The external tick: the first edge begins the cold start that waits for it, T(0) leading; an edge within the
window clears the miss count and moves the rate of the leading head by at most 50 ppm, the eighth in a row locks;
one outside counts once as a miss; after 8 misses the tick is lost; no edge within 10 ms starts the cold start with
ext_lost set; the TICK output pulse is as wide as TIM_TICK_OUT says, at most half a tick (R34 to R39). The model's
own choices and readings in it: log entries 39, 41. -/
def Obligations.ExternalTick : Prop :=
  ∀ (s : State) (x : Int),
    let w : Int := s.dev.fld R.TIM_EXT.win_ns
    let started := fun (t : State) => t.dev.time.numbered = true ∧ t.dev.time.tick = 0 ∧
      t.dev.rd R.TIM_TICK_CNT.adr = 0 ∧ t.dev.flag R.TIM_STAT.leads = true ∧ t.dev.net.hstate = .coldC ∧
      t.dev.fld R.ML_NET_STAT.hstate = 1 ∧ t.dev.time.extWait = false ∧
      t.dev.time.tickNs = s.dev.fld R.TIM_TICK.tick_ns ∧ MemKept s t ∧ OnlyDev s t
    let out := s.dev.time.numbered = true ∧ s.dev.time.tickIn = false ∧ s.dev.time.tickOutEn = true ∧
      (s.dev.flag R.TIM_STAT.leads = true ∨ s.dev.net.hstate = .synced)
    (s.dev.time.extWait = true →
      (∃ t, exec (.extTickEdge x) s = .next t ∧ started t ∧ t.dev.time.extGood = 1) ∧
      (∃ t, exec .extTickColdStartTimeout s = .next t ∧ started t ∧ t.dev.flag R.TIM_STAT.ext_lost = true)) ∧
    (s.dev.time.extWait = false →
      (∃ t, exec .extTickColdStartTimeout s = .next t ∧ t = s) ∧
      (¬ (s.dev.time.numbered = true ∧ s.dev.time.tickIn = true) →
        ∃ t, exec (.extTickEdge x) s = .next t ∧ t = s) ∧
      (s.dev.time.numbered = true → s.dev.time.tickIn = true → -w ≤ x → x ≤ w →
        ∃ t, exec (.extTickEdge x) s = .next t ∧ t.dev.fld R.TIM_EXT.miss_cnt = 0 ∧
          t.dev.time.extGood = min 8 (s.dev.time.extGood + 1) ∧
          (t.dev.time.rate - s.dev.time.rate).natAbs ≤ 50000 ∧
          (s.dev.flag R.TIM_STAT.leads = false → t.dev.time.rate = s.dev.time.rate) ∧
          (s.dev.flag R.TIM_STAT.leads = true → 7 ≤ s.dev.time.extGood →
            t.dev.flag R.TIM_STAT.ext_lock = true ∧ t.dev.flag R.TIM_STAT.ext_lost = false) ∧
          RegsKept s t [R.TIM_EXT.adr, R.TIM_STAT.adr] ∧ MemKept s t ∧ OnlyDev s t) ∧
      (s.dev.time.numbered = true → s.dev.time.tickIn = true → (x < -w ∨ w < x) →
        (if x < 0 then s.dev.time.extNext else s.dev.time.extSeen) = false →
        ∃ t, exec (.extTickEdge x) s = .next t ∧
          t.dev.fld R.TIM_EXT.miss_cnt = min 255 (s.dev.fld R.TIM_EXT.miss_cnt + 1) ∧
          t.dev.time.extGood = 0 ∧ RegsKept s t [R.TIM_EXT.adr] ∧ MemKept s t ∧ OnlyDev s t)) ∧
    (s.dev.time.numbered = true ∧ s.dev.time.tickIn = true ∧ 8 ≤ s.dev.fld R.TIM_EXT.miss_cnt →
      ∃ t, exec .extTickLost s = .next t ∧
        FieldsSet s t [(R.TIM_STAT.ext_lost, 1), (R.TIM_STAT.ext_lock, 0)]) ∧
    (¬ (s.dev.time.numbered = true ∧ s.dev.time.tickIn = true ∧ 8 ≤ s.dev.fld R.TIM_EXT.miss_cnt) →
      ∃ t, exec .extTickLost s = .next t ∧ t = s) ∧
    (out → ∃ t, exec .tickOutPulse s = .next t ∧
      t = { s with dev := { s.dev with out := s.dev.out ++
        [.tickPulse (s.dev.time.tickOut.extractLsb' 16 16).toInt
          (min (bits s.dev.time.tickOut 15 0) (s.dev.time.tickNs / 2))] } }) ∧
    (¬ out → ∃ t, exec .tickOutPulse s = .next t ∧ t = s)

/-- FRAME_TX_START: in GATHER and SYNCED every enabled line with link sends one CYC frame with the tick, the mode
in force and a command and a feedback segment for each station of the mode, counted in ML_CNT; in COLD_C and COLD_D
it sends a CST frame; with a twin link the heartbeat follows; outside a numbered tick, or while the head is silent,
nothing is sent (R14, R75 to R78, R115, R469). STATE_COPY: the active unit whose copies run sends the copy of the
tick once the deadline has passed and no engine is busy; otherwise nothing is sent (R26, R256, R472, R475). The
model's own choices and readings in it: log entries 13, 29, 44, 45. -/
def Obligations.FramesAndStateCopy : Prop :=
  (∀ s : State,
    let on := fun (l : Nat) => l < 8 ∧ s.dev.lineEn l = true ∧ s.dev.flag (R.ML_STAT.link l) = true
    (¬ (s.dev.time.numbered = true ∧ s.dev.txOn = true) → ∃ t, exec .frameTxStart s = .next t ∧ t = s) ∧
    (s.dev.time.numbered = true → s.dev.txOn = true → ∃ t, exec .frameTxStart s = .next t ∧ OnlyDev s t ∧
      (∀ o, o ∈ s.dev.out → o ∈ t.dev.out) ∧
      (s.dev.net.hstate = .gather ∨ s.dev.net.hstate = .synced → ∀ l, on l →
        t.dev.fld (R.ML_CNT.cnt l 0) = min (2 ^ 32 - 1) (s.dev.fld (R.ML_CNT.cnt l 0) + 1) ∧
        ∃ f, Out.cyc l f ∈ t.dev.out ∧ f.hdr.origin = s.dev.unitId ∧ f.hdr.tick = word s.dev.tick ∧
          f.hdr.fold = false ∧ f.head.sched = s.dev.net.sched ∧
          f.cmds.length =
            ((s.dev.layout? s.dev.net.sched l).getD {}).stations.length ∧
          f.fbs.length = ((s.dev.layout? s.dev.net.sched l).getD {}).stations.length) ∧
      (s.dev.net.hstate = .coldC ∨ s.dev.net.hstate = .coldD → ∀ l, on l →
        ∃ f, Out.cst l f ∈ t.dev.out ∧ f.hdr.tick = word s.dev.tick ∧ f.tickNs = s.dev.time.tickNs ∧
          f.initSched = s.dev.fld R.ML_NET_CFG.init_sched ∧
          f.phase = (if s.dev.net.hstate = .coldD then 1 else 0)) ∧
      (s.dev.twUp = true → ∃ hb, Out.heartbeat hb ∈ t.dev.out ∧ hb.tick = word s.dev.tick ∧
        hb.unit = s.dev.unitId ∧ hb.act = s.dev.isActive ∧ hb.mode = s.dev.omode))) ∧
  (∀ s : State,
    let due := s.dev.time.numbered = true ∧ s.dev.easel.closed = true ∧ s.dev.isActive = true ∧
      s.dev.twUp = true ∧ s.dev.twin.copyOn = true ∧ ∀ e, e < 4 → (s.dev.eng e).busy = false
    (¬ due → ∃ t, exec .stateCopy s = .next t ∧ t = s) ∧
    (due → ∃ t, exec .stateCopy s = .next t ∧ OnlyDev s t ∧
      t.dev.fld R.TW_COPY.size = min 65535 s.dev.mode.stateImage ∧
      ∃ img good, t.dev.out = s.dev.out ++ [.copy s.dev.mode.stateImage img good] ∧
        img.tick = s.dev.tick ∧ img.mode = s.dev.omode ∧ img.axes = s.dev.axes ∧ img.loops = s.dev.loops ∧
        (good = true ↔ ∀ p ∈ s.dev.mode.copyMap, s.dev.anyBad p.1 p.2 = false)))

/-- The guardian: a transmission is judged against the nearest window of its port; it is a babble where it lies
outside the guard band, is of another type or ends too late, an EDGE where it lies more than 40 ns from the window,
and accepted otherwise (R103, R104, R105). The model's own choices and readings in it: log entry 32. -/
def Obligations.GuardianJudges : Prop :=
  ∀ (d : Dev) (l ty at_ last : Nat),
    let t : Int := 1000 * at_
    let guard : Int := 1000 * (d.line l).guardNs
    ∃ w, w ∈ d.wins l ∧ (∀ v ∈ d.wins l, w.dist t ≤ v.dist t) ∧
      (∀ v ∈ d.wins l, v.ty = ty → v.dist t = w.dist t → w.ty = ty) ∧
      let late := w.hi + ((d.frameMax l ty + 4) * 3200 : Nat) + guard < 1000 * last
      let bad := guard < w.dist t ∨ w.ty ≠ ty ∨ late
      (d.judgeRx l ty at_ last).2 = w.own ∧
      ((d.judgeRx l ty at_ last).1 = .babble ↔ bad) ∧
      ((d.judgeRx l ty at_ last).1 = .edge ↔ ¬ bad ∧ 40000 < w.dist t)

/-- A receiver that is off takes nothing from its line; one that is on counts a babble for every transmission that
the guardian turns away, for every cut frame outside LISTEN and COLD_C, and a code-group event for a reserved frame
type (R70, R104, R105, R108). The model's own choices and readings in it: log entries 31, 32. -/
def Obligations.ReceiversTurnAway : Prop :=
  ∀ (s : State) (l : Fin 8) (at_ last : Nat),
    (s.dev.rxOn l = false → ∀ c : Instr,
      ((∃ f, c = .cycRx l f at_ last) ∨ (∃ f, c = .cstRx l f) ∨ (∃ f, c = .almRx l f at_ last) ∨
       (∃ r, c = .mbxReplyRx l r at_ last) ∨ (∃ a, c = .frameCut l at_ a) ∨ (∃ ty, c = .reservedFrameRx l ty) ∨
       (∃ g b, c = .feedbackSegmentRx l g at_ b) ∨ (∃ f, c = .bcnRx (.head l) f at_) ∨
       (∃ i u, c = .dreqRx (.head l) i u) ∨ (∃ i u, c = .drspRx (.head l) at_ i u)) →
      ∃ t, exec c s = .next t ∧ t = s) ∧
    (∀ (c : Instr) (ty : Nat),
      ((∃ f, c = .almRx l f at_ last ∧ ty = 3) ∨ (∃ r, c = .mbxReplyRx l r at_ last ∧ ty = 4) ∨
       (∃ f, c = .bcnRx (.head l) f at_ ∧ ty = 7 ∧ last = at_) ∨
       (∃ i u, c = .drspRx (.head l) at_ i u ∧ ty = 6 ∧ last = at_)) →
      s.dev.rxOn l = true → s.dev.hasTime = true → s.dev.net.hstate ≠ .coldC →
      (s.dev.judgeRx l ty at_ last).1 = .babble → ∃ t, exec c s = .next t ∧ BabbleCounted s t l) ∧
    (∀ a, s.dev.rxOn l = true → s.dev.net.hstate ≠ .listen → s.dev.net.hstate ≠ .coldC →
      ∃ t, exec (.frameCut l at_ a) s = .next t ∧ BabbleCounted s t l) ∧
    (∀ ty, s.dev.rxOn l = true → ∃ t, exec (.reservedFrameRx l ty) s = .next t ∧
      FieldsSet s t [(R.ML_CNT.cnt l 11, min (2 ^ 32 - 1) (s.dev.fld (R.ML_CNT.cnt l 11) + 1))])

/-- FEEDBACK_SEGMENT_RX and RELAY: the first valid segment of a station in its tick goes to its slot with tick,
relay bit and age, and signals; one that comes after EZ_DEADLINE is only counted late; one that fails the checks is
counted and, before the deadline, marks the slot; a second copy changes no register and no memory (R95, R96, R110,
R111, R125, R194). The model's own choices and readings in it: log entries 11, 37. -/
def Obligations.FeedbackSegments : Prop :=
  ∀ (s : State) (l : Fin 8) (g : Seg) (at_ ln : Nat) (z : StLayout) (relay : Bool),
    let n := bits g.hdr 7 0
    let slot := memCode 0 z.fbAddr
    let c : Instr := if relay then .relay l g at_ else .feedbackSegmentRx l g at_ false
    let valid := g.crc = .correct ∧ bit g.hdr 9 = true ∧ bit g.hdr 8 = true ∧ bits g.hdr 31 24 = z.ptype ∧
      bits g.hdr 23 16 = z.fbWords ∧ g.words.length = z.fbWords
    s.dev.time.numbered = true →
    (if relay then s.dev.twUp = true ∧ s.dev.lineEn l = true else s.dev.rxOn l = true) →
    s.dev.stLayout? s.dev.net.sched n = some (ln, z) →
    (valid → (s.dev.head n).got = false → s.dev.easel.closed = false → 0 < z.fbWords →
      ∃ t, exec c s = .next t ∧ OnlyDev s t ∧
        t.dev.peekW slot = word (s.dev.tick % 65536 * 65536 + b2n relay * 256 + bits (s.dev.peekW slot) 7 0) ∧
        t.dev.peekWords (slot + 4) z.fbWords = g.words ∧
        (∀ a, a < slot ∨ slot + 4 + 4 * z.fbWords ≤ a → t.dev.byteAt a = s.dev.byteAt a) ∧
        (t.dev.head n).got = true ∧ (t.dev.head n).everValid = true ∧ n ∈ t.dev.easel.sources ∧
        t.dev.fld (R.ST_SYNC.sync_err n) = bits (nthW g.words 0) 11 0 % 4096 +
          (if bit (nthW g.words 0) 11 then 61440 else 0) ∧
        (relay = true → CountedOnce s t (R.ML_CNT.cnt l 7))) ∧
    (valid → (s.dev.head n).got = false → s.dev.easel.closed = true →
      ∃ t, exec c s = .next t ∧ OnlyDev s t ∧ MemKept s t ∧ CountedOnce s t (R.ML_CNT.cnt l 6) ∧
        CountedOnce s t (R.ST_CNT_SEG.late n) ∧ t.dev.flag (R.ML_EVT.late l) = true ∧
        RegsKept s t [R.ML_CNT.adr l 6, R.ST_CNT_SEG.adr n, R.ML_EVT.adr l]) ∧
    (valid → (s.dev.head n).got = true →
      ∃ t, exec c s = .next t ∧ OnlyDev s t ∧ MemKept s t ∧ RegsKept s t []) ∧
    (¬ valid → ∃ t, exec c s = .next t ∧ OnlyDev s t ∧ CountedOnce s t (R.ML_CNT.cnt l 4) ∧
      CountedOnce s t (R.ST_CNT_SEG.bad n) ∧
      ((s.dev.head n).got = false → s.dev.easel.closed = false →
        t.dev.peekW slot = s.dev.peekW slot ||| 0x200) ∧
      (∀ a, a < slot ∨ slot + 4 ≤ a → t.dev.byteAt a = s.dev.byteAt a))

/-- CYC_RX and CST_RX by the state of the cold start: a listening head follows a leading head whose ticks agree,
refuses one of another time mode, and follows a CST frame of its tick period; a head in COLD_C gives way from the
next tick on; a head that runs takes its partner's frame, and counts a CST frame as a babble (R33, R93, R105, R116,
R117, R119). The model's own choices and readings in it: log entries 32, 33. -/
def Obligations.CyclicFrames : Prop :=
  ∀ (s : State) (l : Fin 8) (f : CycFrame) (g : CstFrame) (at_ last : Nat), s.dev.rxOn l = true →
    let follows := fun (t : State) (n m : Nat) => t.dev.net.hstate = .follow ∧ t.dev.time.numbered = true ∧
      t.dev.time.tick = n ∧ t.dev.rd R.TIM_TICK_CNT.adr = word n ∧ t.dev.net.sched = m ∧
      t.dev.flag R.TIM_STAT.leads = false ∧ t.dev.fld R.ML_NET_STAT.hstate = 4 ∧ MemKept s t ∧ OnlyDev s t
    let fother := f.hdr.origin % 2 ≠ s.dev.unitId
    let gother := g.hdr.origin % 2 ≠ s.dev.unitId
    (s.dev.net.hstate = .listen →
      (∀ n tx d, f.crc = .correct → fother → f.hdr.lead = true → f.hdr.fore = s.dev.flag R.TIM_CFG.forerunner →
        s.dev.time.cycLast = some (n, tx) → f.hdr.tick.toNat = n + 1 → s.dev.time.cycDiff = some d →
        (f.hdr.txTime - tx).toNat = d → d = s.dev.fld R.TIM_TICK.tick_ns →
        ∃ t, exec (.cycRx l f at_ last) s = .next t ∧ follows t (n + 1) f.head.sched) ∧
      (f.crc = .correct → fother → f.hdr.lead = true → f.hdr.fore ≠ s.dev.flag R.TIM_CFG.forerunner →
        ∃ t, exec (.cycRx l f at_ last) s = .next t ∧ t.dev.flag R.ML_NET_STAT.fore_mis = true ∧
          t.dev.net.hstate = .listen ∧ t.dev.net.listenSince = s.dev.time.clock ∧ MemKept s t ∧ OnlyDev s t) ∧
      (f.crc ≠ .correct ∨ ¬ fother ∨ f.hdr.lead = false →
        ∃ t, exec (.cycRx l f at_ last) s = .next t ∧ t.dev.net = s.dev.net ∧ t.dev.time = s.dev.time ∧
          CountedOnce s t (R.ML_CNT.cnt l 1) ∧ MemKept s t ∧ OnlyDev s t) ∧
      (g.crc = .correct → gother → g.hdr.fore = s.dev.flag R.TIM_CFG.forerunner →
        g.tickNs = s.dev.fld R.TIM_TICK.tick_ns →
        ∃ t, exec (.cstRx l g) s = .next t ∧ follows t g.hdr.tick.toNat g.initSched) ∧
      (g.crc = .correct → gother → g.hdr.fore = s.dev.flag R.TIM_CFG.forerunner →
        g.tickNs ≠ s.dev.fld R.TIM_TICK.tick_ns →
        ∃ t, exec (.cstRx l g) s = .next t ∧ FieldsSet s { t with dev := { t.dev with net := s.dev.net } }
          [(R.TIM_STAT.tick_mis, 1)] ∧ t.dev.net.hstate = .listen)) ∧
    (s.dev.net.hstate = .coldC →
      (f.crc = .correct → fother → f.hdr.lead = true →
        ∃ t, exec (.cycRx l f at_ last) s = .next t ∧ t.dev.net.abortNext = some none ∧
          CountedOnce s t (R.ML_CNT.cnt l 1) ∧ MemKept s t ∧ OnlyDev s t) ∧
      (g.crc = .correct → gother → (g.phase = 1 ∨ s.dev.unitId = 1) →
        ∃ t, exec (.cstRx l g) s = .next t ∧ t.dev.net.abortNext =
          some (if g.tickNs = s.dev.fld R.TIM_TICK.tick_ns ∧ g.hdr.fore = s.dev.flag R.TIM_CFG.forerunner then
            some (g.hdr.tick.toNat, g.initSched) else none) ∧ RegsKept s t [] ∧ MemKept s t ∧ OnlyDev s t) ∧
      (g.crc = .correct → ¬ (gother ∧ (g.phase = 1 ∨ s.dev.unitId = 1)) →
        ∃ t, exec (.cstRx l g) s = .next t ∧ t = s)) ∧
    (s.dev.net.hstate ≠ .listen → s.dev.net.hstate ≠ .coldC →
      (∃ t, exec (.cstRx l g) s = .next t ∧ BabbleCounted s t l) ∧
      (fother → (s.dev.line l).partnerExp = false → s.dev.lineOpen l = false → f.hdr.act = false →
        ∃ t, exec (.cycRx l f at_ last) s = .next t ∧ CountedOnce s t (R.ML_CNT.cnt l 1) ∧
          (t.dev.line l).partnerSeen = true ∧ (t.dev.line l).partnerExp = true ∧ t.dev.twin.cycNow = true ∧
          t.dev.twin.lost = false ∧ OnlyDev s t) ∧
      ((¬ fother ∨ (s.dev.line l).partnerExp = true ∨ s.dev.lineOpen l = true) →
        (s.dev.judgeRx l 1 at_ last).1 = .babble →
        ∃ t, exec (.cycRx l f at_ last) s = .next t ∧ BabbleCounted s t l))

/-- ALM_RX: an accepted alarm is counted and kept for its station, ends the run of its babbles, and a lost
configuration clears the mode's bit in ST_MODES and starts the configuration anew (R98, R102, R104, R107, R190).
MBX_REQUEST sends what the station needs next where the head owns the exchange and none is open; the accepted reply
closes the exchange and moves the station's identity or configuration on by its result (R97, R99, R107, R122, R152,
R154, R155, R190). The model's own choices and readings in it: log entries 31, 36. -/
def Obligations.AlarmsAndMailbox : Prop :=
  (∀ (s : State) (l : Fin 8) (f : AlmFrame) (at_ last : Nat), s.dev.rxOn l = true → s.dev.hasTime = true →
    (s.dev.judgeRx l 3 at_ last).1 ≠ .babble → 1 ≤ f.addr → f.addr < 256 → f.crc = .correct →
    (s.dev.winDis f.addr = false → ∃ t, exec (.almRx l f at_ last) s = .next t ∧ MemKept s t ∧ OnlyDev s t ∧
      CountedOnce s t (R.ML_CNT.cnt l 13) ∧ t.dev.fld (R.ST_CNT_BAB.consec f.addr) = 0 ∧
      (t.dev.head f.addr).alarms = (s.dev.head f.addr).alarms ++ [(f.code, f.detail, f.detail2.toNat)] ∧
      ((s.dev.judgeRx l 3 at_ last).1 = .edge → CountedOnce s t (R.ML_CNT.cnt l 9) ∧
        t.dev.flag (R.ML_EVT.edge l) = true ∧ CountedOnce s t (R.ST_CNT_EDGE.edge f.addr)) ∧
      (f.code = 0x0A → t.dev.rd (R.ST_MODES.adr f.addr) =
          s.dev.rd (R.ST_MODES.adr f.addr) &&& ~~~ (1#32 <<< (f.detail % 16)) ∧
        (t.dev.head f.addr).needCfg = true ∧ (t.dev.head f.addr).cfgDone = [] ∧
        (t.dev.head f.addr).failCode = 7)) ∧
    (s.dev.winDis f.addr = true → s.dev.net.hstate ≠ .coldC →
      ∃ t, exec (.almRx l f at_ last) s = .next t ∧ BabbleCounted s t l)) ∧
  (∀ (s : State) (l : Fin 8),
    (∀ a : Fin 256,
      let may := s.dev.txOn = true ∧ s.dev.lineEn l = true ∧ s.dev.ownsMbx l = true ∧ s.dev.stOnLine l a = true ∧
        s.dev.winDis a = false ∧ (s.dev.line l).mbxOut = none
      (∀ q, may → s.dev.mbxNext a = some q → ∃ t, exec (.mbxRequest l a) s = .next t ∧
        (t.dev.line l).mbxOut = some q ∧
        t.dev.out = s.dev.out ++ [.mbx l a q.service q.index q.count q.words] ∧
        (∀ k, k ≠ l.val → t.dev.line k = s.dev.line k) ∧
        { (t) with dev := { t.dev with net := s.dev.net, out := s.dev.out } } = s) ∧
      (¬ may ∨ s.dev.mbxNext a = none → ∃ t, exec (.mbxRequest l a) s = .next t ∧ t = s) ∧
      ((s.dev.head a).ident = [] → s.dev.mbxNext a = some (MbxMsg.mk a 1 0 16 []))) ∧
    (∀ (q : MbxMsg) (r : MbxReply) (at_ last : Nat), s.dev.rxOn l = true → s.dev.hasTime = true →
      (s.dev.judgeRx l 4 at_ last).1 ≠ .babble → (s.dev.line l).mbxOut = some q → r.crc = .correct →
      r.addr = q.addr → r.service = q.service → 1 ≤ r.addr → r.addr < 256 → s.dev.winDis r.addr = false →
      ∃ t, exec (.mbxReplyRx l r at_ last) s = .next t ∧ MemKept s t ∧ OnlyDev s t ∧
        (t.dev.line l).mbxOut = none ∧ CountedOnce s t (R.ML_CNT.cnt l 14) ∧
        (q.service = 1 → r.result = 0 → (t.dev.head r.addr).ident = r.words ∧
          t.dev.rd (R.ST_IDENT.adr r.addr) = nthW r.words 2 &&& 0x0FFFFFFF) ∧
        (∀ m, 2 ≤ q.service → s.dev.cfgMode? r.addr = some m →
          let n := (s.dev.cfgWords r.addr m).length
          let w := (s.dev.head r.addr).cfgWord
          let h := t.dev.head r.addr
          (r.result = 6 → h = s.dev.head r.addr) ∧
          (r.result ≠ 0 → r.result ≠ 6 → h.cfgWord = 0 ∧ h.cfgStep = 0 ∧ h.failCode = 5) ∧
          (r.result = 0 → q.service = 2 →
            (n ≤ w + q.count → h.cfgWord = 0 ∧ h.cfgStep = 1) ∧ (w + q.count < n → h.cfgWord = w + q.count)) ∧
          (r.result = 0 → q.service = 3 → h.cfgWord = 0 ∧ h.cfgStep = 2 ∧
            t.dev.rd (R.ST_MODES.adr r.addr) = s.dev.rd (R.ST_MODES.adr r.addr) ||| 1#32 <<< m) ∧
          (r.result = 0 → 4 ≤ q.service → r.words = ((s.dev.cfgWords r.addr m).drop w).take q.count →
            (n ≤ w + q.count → h.cfgDone = (s.dev.head r.addr).cfgDone ++ [m] ∧ h.failCode = 0 ∧ h.cfgStep = 0) ∧
            (w + q.count < n → h.cfgWord = w + q.count)) ∧
          (r.result = 0 → 4 ≤ q.service → r.words ≠ ((s.dev.cfgWords r.addr m).drop w).take q.count →
            h.cfgWord = 0 ∧ h.cfgStep = 0 ∧ h.failCode = 5))))

/-- BCN_TX, BCN_RX, DELAY_EXCHANGE_START, DREQ_RX and DRSP_RX: beacons go out on every port with link of every node
that holds a time and mark the neighbour as heard, and a station in FORWARD that hears one with integ set begins to
integrate; a delay request goes out every 1,024th tick and in COLD_D, is answered within its turnaround limits, and
its response forms the round trip of the link (R53, R54, R57, R91, R92, R102, R131). LINE_LINK_LOSS and
LINE_LINK_GAIN show the link and judge the neighbour, at a head and at a station; ML_RX_REOPEN opens an isolated
receiver in Ready, Hold and Service and is rejected elsewhere (R68, R91, R92, R109). The model's own choices and
readings in it: log entries 34, 35. -/
def Obligations.BeaconsDelaysAndLink : Prop :=
  (∀ (s : State),
    (∃ t, exec .bcnTx s = .next t ∧
      (s.dev.hasTime = true → s.dev.txOn = true → ∀ l, lineOn s l → ∃ f, Out.bcn l f ∈ t.dev.out ∧
        f.hdr.tick = word s.dev.tick ∧ f.addr = 0 ∧ f.unit = s.dev.unitId) ∧
      (s.dev.hasTime = false ∨ s.dev.txOn = false → t.dev = s.dev) ∧
      { (t) with dev := { t.dev with out := s.dev.out }, stations := s.stations } = s ∧
      ∀ a x, s.stn? a = some x → ∃ y, t.stn? a = some y ∧ (x.state = .forward → y = x) ∧
        { (y) with out := x.out } = x ∧
        (x.state ≠ .forward → ∀ k, k < 2 → (x.ports.getD k {}).link = true →
          ∃ f, StOut.bcn k f ∈ y.out ∧ f.hdr.tick = word x.tick ∧ f.addr = a ∧
            (f.integ = true ↔ x.state = .integrated))) ∧
    (∀ (l : Fin 8) (f : BcnFrame) (at_ : Nat), s.dev.rxOn l = true → s.dev.hasTime = true →
      (s.dev.judgeRx l 7 at_ at_).1 = .ok → f.crc = .correct →
      ∃ t, exec (.bcnRx (.head l) f at_) s = .next t ∧ (t.dev.line l).bcnSeen = true ∧
        (∀ k, k ≠ l.val → t.dev.line k = s.dev.line k) ∧ { (t) with dev := { t.dev with net := s.dev.net } } = s) ∧
    (∀ (a : Fin 256) (k : Fin 2) (f : BcnFrame) (at_ : Nat) (x : StationSt), s.stn? a = some x →
      (f.crc ≠ .correct ∨ (x.ports.getD k {}).link = false →
        ∃ t, exec (.bcnRx (.station a k) f at_) s = .next t ∧ t.stn? a = some x ∧ OnlyStation s t a) ∧
      (f.crc = .correct → (x.ports.getD k {}).link = true →
        ∃ t y, exec (.bcnRx (.station a k) f at_) s = .next t ∧ t.stn? a = some y ∧ OnlyStation s t a ∧
          (y.ports.getD k {}).bcnSeen = true ∧
          (x.state = .forward → f.integ = true → y.state = .coarse ∧ y.tick = f.hdr.tick.toNat ∧
            y.applyOfs = none ∧ y.good = 0) ∧
          (x.state ≠ .forward ∨ f.integ = false → { (y) with ports := x.ports } = x))) ∧
    (∀ e : Nat,
      let due := s.dev.hasTime = true ∧ (s.dev.tick % 1024 = 0 ∨ s.dev.net.hstate = .coldD)
      (¬ due → ∃ t, exec (.delayExchangeStart e) s = .next t ∧ t = s) ∧
      (due → ∃ t, exec (.delayExchangeStart e) s = .next t ∧
        (s.dev.unitId = 0 → s.dev.txOn = true → ∀ l, lineOn s l → Out.dreq l ∈ t.dev.out ∧
          (t.dev.line l).dreqAt = some (e + s.dev.fld (R.TIM_PORT.egr_ps l))) ∧
        (s.dev.unitId ≠ 0 → t.dev = s.dev) ∧
        ∀ a x, s.stn? a = some x → ∃ y, t.stn? a = some y ∧
          (x.state ≠ .forward → (x.ports.getD 1 {}).link = true →
            s.dev.lineEn (s.dev.fld (R.ST_CFG.line a)) = true →
            (y.ports.getD 1 {}).dreqAt = some e ∧ StOut.dreq 1 ∈ y.out) ∧
          (x.state = .forward → y = x))) ∧
    (∀ (i u : Nat),
      let inTime := 2000000 ≤ u ∧ u ≤ 3000000
      (∀ l : Fin 8, s.dev.rxOn l = true → s.dev.hasTime = true →
        let ns := (i - s.dev.fld (R.TIM_PORT.ing_ps l)) / 1000
        (s.dev.judgeRx l 5 ns ns).1 = .ok →
        (inTime ∧ s.dev.txOn = true → ∃ t, exec (.dreqRx (.head l) i u) s = .next t ∧
          t = { s with dev := { s.dev with out := s.dev.out ++ [.drsp l u] } }) ∧
        (¬ (inTime ∧ s.dev.txOn = true) → ∃ t, exec (.dreqRx (.head l) i u) s = .next t ∧ t = s)) ∧
      (∀ (a : Fin 256) (x : StationSt), s.stn? a = some x →
        (x.state ≠ .forward → (x.ports.getD 0 {}).link = true → inTime →
          ∃ t, exec (.dreqRx (.station a 0) i u) s = .next t ∧ OnlyStation s t a ∧
            t.stn? a = some { (x) with out := x.out ++ [.drsp 0 u] }) ∧
        (¬ inTime → ∃ t, exec (.dreqRx (.station a 0) i u) s = .next t ∧ OnlyStation s t a ∧
          t.stn? a = some x))) ∧
    (∀ (l : Fin 8) (at_ i u e : Nat), s.dev.rxOn l = true → s.dev.hasTime = true →
      (s.dev.judgeRx l 6 at_ at_).1 = .ok → (s.dev.line l).dreqAt = some e →
      let rtt := i - s.dev.fld (R.TIM_PORT.ing_ps l) - e - u
      let agree := fun (x y : Nat) => ((x : Int) - y).natAbs ≤ 4000
      ∃ t, exec (.drspRx (.head l) at_ i u) s = .next t ∧ (t.dev.line l).dreqAt = none ∧ MemKept s t ∧
        OnlyDev s t ∧
        ((s.dev.link? l 0).bind (·.rtt) = none → s.dev.net.hstate ≠ .coldD →
          (t.dev.link? l 0).bind (·.rtt) = some rtt) ∧
        (∀ x h, s.dev.link? l 0 = some x → x.rtt = some h →
          (agree rtt h → t.dev.link? l 0 = some { (x) with next := some rtt, held := none }) ∧
          (¬ agree rtt h → x.held = none → t.dev.link? l 0 = some { (x) with held := some rtt }) ∧
          (∀ y, ¬ agree rtt h → x.held = some y →
            t.dev.link? l 0 = some (if agree rtt y then { (x) with next := some rtt, held := none }
              else { (x) with held := some rtt })))) ∧
    (∀ (a : Fin 256) (x : StationSt) (at_ i u e : Nat), s.stn? a = some x → (x.ports.getD 1 {}).dreqAt = some e →
      s.dev.fld (R.ST_CFG.pos a) ≠ 0 →
      let l := s.dev.fld (R.ST_CFG.line a)
      let k := s.dev.fld (R.ST_CFG.pos a)
      ∃ t y, exec (.drspRx (.station a 1) at_ i u) s = .next t ∧ t.stn? a = some y ∧
        (y.ports.getD 1 {}).dreqAt = none ∧ { (y) with ports := x.ports } = x ∧ MemKept s t ∧
        (∀ b, b ≠ a.val → t.stn? b = s.stn? b) ∧
        ((s.dev.link? l k).bind (·.rtt) = none → s.dev.net.hstate ≠ .coldD →
          (t.dev.link? l k).bind (·.rtt) = some (i - e - u)))) ∧
  (∀ (s : State) (l : Fin 8),
    let link := s.dev.flag (R.ML_STAT.link l)
    let noNet := fun (t : State) => { (t) with dev := { t.dev with net := s.dev.net } }
    (link = false → ∃ t, exec (.lineLinkLoss (.head l)) s = .next t ∧ t = s) ∧
    (link = true → ∃ t, exec (.lineLinkLoss (.head l)) s = .next t ∧
      FieldsSet s (noNet t) [(R.ML_STAT.link l, 0), (R.ML_STAT.nbr l, 0), (R.ML_EVT.sync_loss l, 1),
        (R.ML_CNT.cnt l 12, min (2 ^ 32 - 1) (s.dev.fld (R.ML_CNT.cnt l 12) + 1))] ∧
      (t.dev.line l).link = false ∧ (t.dev.line l).nbrLive = false ∧
      ∀ k, k ≠ l.val → t.dev.line k = s.dev.line k) ∧
    (link = true → ∃ t, exec (.lineLinkGain (.head l)) s = .next t ∧ t = s) ∧
    (link = false → ∃ t, exec (.lineLinkGain (.head l)) s = .next t ∧
      FieldsSet s (noNet t) [(R.ML_STAT.link l, 1), (R.ML_STAT.nbr l, if s.dev.hasTime then 0 else 1)] ∧
      (t.dev.line l).link = true ∧ (t.dev.line l).nbrLive = (! s.dev.hasTime) ∧
      ∀ k, k ≠ l.val → t.dev.line k = s.dev.line k) ∧
    (∀ (a : Fin 256) (k : Fin 2) (x : StationSt), s.stn? a = some x → k.val < x.ports.length →
      (∃ t y, exec (.lineLinkLoss (.station a k)) s = .next t ∧ t.stn? a = some y ∧ OnlyStation s t a ∧
        (y.ports.getD k {}).link = false ∧ (y.ports.getD k {}).live = false ∧ { (y) with ports := x.ports } = x) ∧
      (∃ t y, exec (.lineLinkGain (.station a k)) s = .next t ∧ t.stn? a = some y ∧ OnlyStation s t a ∧
        (y.ports.getD k {}).link = true ∧ { (y) with ports := x.ports } = x ∧
        ((x.ports.getD k {}).link = false →
          ((y.ports.getD k {}).live = true ↔ x.state = .forward)))) ∧
    (s.dev.modeIn [mReady, mHold, mService] = false → ∃ t, exec (.mlRxReopen l) s = .next t ∧
      FieldsSet s t [(R.ML_EVT.cfg_rej l, 1)]) ∧
    (s.dev.modeIn [mReady, mHold, mService] = true →
      (s.dev.flag (R.ML_STAT.isolated l) = true → ∃ t, exec (.mlRxReopen l) s = .next t ∧
        FieldsSet s (noNet t) [(R.ML_STAT.isolated l, 0)] ∧ (t.dev.line l).babbles = [] ∧
        (t.dev.line l).partnerExp = false ∧ ∀ k, k ≠ l.val → t.dev.line k = s.dev.line k) ∧
      (s.dev.flag (R.ML_STAT.isolated l) = false → ∃ t, exec (.mlRxReopen l) s = .next t ∧ t = s)))

/-- The cold-start machine: the end of the listen time begins COLD_C, or waits for the first edge, or, without
enabled lines, starts the ticks at once; COLD_D from 1 ms of network time, GATHER after its 16th tick, SYNCED after
500 ms with cs_timeout or, following, once the offset has held and the links are measured; the loss of the leader
before SYNCED leads back to LISTEN; the role is decided at SYNCED and after the wait for a heartbeat (R39, R116,
R117, R118, R122, R461, R462, R579). The model's own choices and readings in it: log entries 3, 33, 38. -/
def Obligations.ColdStartMachine : Prop :=
  ∀ s : State,
    let h := s.dev.net.hstate
    let leads := fun (t : State) => t.dev.time.numbered = true ∧ t.dev.time.tick = 0 ∧
      t.dev.flag R.TIM_STAT.leads = true ∧ MemKept s t ∧ OnlyDev s t
    let listening := s.dev.networkUp = true ∧ h = .listen ∧ s.dev.time.extWait = false
    (¬ listening → ∃ t, exec .listenTimeExpiry s = .next t ∧ t = s) ∧
    (listening → s.dev.linesOn ≠ [] → s.dev.flag R.TIM_CFG.tick_in = false →
      ∃ t, exec .listenTimeExpiry s = .next t ∧ leads t ∧ t.dev.net.hstate = .coldC ∧
        t.dev.fld R.ML_NET_STAT.hstate = 1 ∧ t.dev.net.sched = s.dev.fld R.ML_NET_CFG.init_sched) ∧
    (listening → s.dev.linesOn ≠ [] → s.dev.flag R.TIM_CFG.tick_in = true →
      ∃ t, exec .listenTimeExpiry s = .next t ∧ t.dev.time.extWait = true ∧
        { (t) with dev := { t.dev with time := s.dev.time } } = s) ∧
    (listening → s.dev.linesOn = [] → s.dev.isTwin = false ∨ s.dev.twin.pAct = false →
      ∃ t, exec .listenTimeExpiry s = .next t ∧ t.dev.time.numbered = true ∧ t.dev.time.tick = 0 ∧
        t.dev.net.hstate = .synced ∧ t.dev.flag R.TIM_STAT.leads = true ∧ BecameActive s t ∧ OnlyDev s t) ∧
    (h = .coldC → s.dev.net.abortNext = none → 1000000 ≤ s.dev.now → ∃ t, exec .coldDEntry s = .next t ∧
      t.dev.net.hstate = .coldD ∧ t.dev.net.coldTick = s.dev.time.tick ∧
      (∀ l, l < 8 → (t.dev.line l).partnerExp = false) ∧
      FieldsSet s { (t) with dev := { t.dev with net := s.dev.net } } [(R.ML_NET_STAT.hstate, 2)]) ∧
    (¬ (h = .coldC ∧ s.dev.net.abortNext = none ∧ 1000000 ≤ s.dev.now) →
      ∃ t, exec .coldDEntry s = .next t ∧ t = s) ∧
    (h = .coldD → s.dev.net.coldTick + 16 ≤ s.dev.tick → ∃ t, exec .gatherEntry s = .next t ∧
      t.dev.net.hstate = .gather ∧ t.dev.fld R.ML_NET_STAT.hstate = 3 ∧ MemKept s t ∧ OnlyDev s t ∧
      ∀ a, 1 ≤ a → a < 256 → s.dev.fld (R.ST_CFG.pos a) ≠ 0 →
        (t.dev.head a).needCfg = true ∧ (t.dev.head a).everValid = false ∧ (t.dev.head a).cfgDone = [] ∧
        t.dev.fld (R.ST_STATE.sstate a) = 1) ∧
    (¬ (h = .coldD ∧ s.dev.net.coldTick + 16 ≤ s.dev.tick) → ∃ t, exec .gatherEntry s = .next t ∧ t = s) ∧
    (h = .gather → s.dev.net.syncNext = false → 500000000 ≤ s.dev.now → ∃ t, exec .gatherTimeout s = .next t ∧
      t.dev.net.hstate = .synced ∧ t.dev.flag R.ML_NET_STAT.cs_timeout = true ∧ RoleDecided s t ∧ OnlyDev s t) ∧
    (¬ (h = .gather ∧ s.dev.net.syncNext = false ∧ 500000000 ≤ s.dev.now) →
      ∃ t, exec .gatherTimeout s = .next t ∧ t = s) ∧
    (h = .follow → (if s.dev.linesOn = [] then 1 else 8) ≤ s.dev.time.ofsGood → s.dev.ownLinksMeasured = true →
      ∃ t, exec .followSynced s = .next t ∧ t.dev.net.hstate = .synced ∧ RoleDecided s t ∧ OnlyDev s t) ∧
    (¬ (h = .follow ∧ (if s.dev.linesOn = [] then 1 else 8) ≤ s.dev.time.ofsGood ∧
        s.dev.ownLinksMeasured = true) → ∃ t, exec .followSynced s = .next t ∧ t = s) ∧
    (h = .follow → 1 ≤ s.dev.net.leaderGone → ∃ t, exec .leaderLossBeforeSync s = .next t ∧
      t.dev.net.hstate = .listen ∧ t.dev.time.numbered = false ∧ t.dev.net.listenSince = s.dev.time.clock ∧
      t.dev.flag R.TIM_STAT.leads = false ∧ t.dev.fld R.ML_NET_STAT.hstate = 0 ∧ MemKept s t ∧ OnlyDev s t) ∧
    (¬ (h = .follow ∧ 1 ≤ s.dev.net.leaderGone) → ∃ t, exec .leaderLossBeforeSync s = .next t ∧ t = s) ∧
    (s.dev.twin.roleWait = true → ∃ t, exec .roleWaitTimeout s = .next t ∧ BecameActive s t ∧ OnlyDev s t) ∧
    (s.dev.twin.roleWait = false → ∃ t, exec .roleWaitTimeout s = .next t ∧ t = s)

/-- ST_REINT orders a station of the configuration once into its line's queue; ST_WIN_EN and WINDOWS_REENABLE give
a station its disabled windows back, the latter after 64 good ticks (R127, R130). A schedule change: a request that
its conditions permit is pending for tick n + 1 + lead, any other only sets ML_SCHED_STAT.rej; an abort is kept for
the decision; two ticks ahead, after EZ_DEADLINE, every live station's acknowledgement is required; from the target
tick on the mode is in force (R136 to R143). The model's own choices and readings in it: log entries 35, 36. -/
def Obligations.OrdersAndScheduleChange : Prop :=
  (∀ (s : State) (n : Fin 256),
    let l := s.dev.fld (R.ST_CFG.line n)
    let queued := n.val ∈ (s.dev.line l).reintQ ∨ ∃ p, (s.dev.line l).reintCur = some p ∧ p.1 = n.val
    let enabled := fun (t : State) => t.dev.winDis n = false ∧ t.dev.fld (R.ST_CNT_BAB.consec n) = 0 ∧
      (t.dev.head n).winGood = 0 ∧ BitsKept s t [R.ST_STATE.win_dis n, R.ST_CNT_BAB.consec n] ∧
      MemKept s t ∧ OnlyDev s t
    (s.dev.fld (R.ST_CFG.pos n) = 0 ∨ queued → ∃ t, exec (.stReint n) s = .next t ∧ t = s) ∧
    (s.dev.fld (R.ST_CFG.pos n) ≠ 0 → ¬ queued → ∃ t, exec (.stReint n) s = .next t ∧
      n.val ∈ (t.dev.line l).reintQ ∧ (t.dev.head n).reint = true ∧ t.dev.flag (R.ST_EVT.reint n) = true ∧
      CountedOnce s t (R.ST_CNT_SYNC.reint n) ∧
      ((s.dev.head n).everValid = true → s.dev.slotAge n ≤ s.dev.fld (R.ST_CFG.lost_lim n) →
        t.dev.fld (R.ST_STATE.sstate n) = 5) ∧
      RegsKept s t [R.ST_EVT.adr n, R.ST_CNT_SYNC.adr n, R.ST_STATE.adr n] ∧ MemKept s t ∧ OnlyDev s t) ∧
    (s.dev.winDis n = false → (∃ t, exec (.stWinEn n) s = .next t ∧ t = s) ∧
      ∃ t, exec (.windowsReenable n) s = .next t ∧ t = s) ∧
    (s.dev.winDis n = true → (∃ t, exec (.stWinEn n) s = .next t ∧ enabled t) ∧
      (64 ≤ (s.dev.head n).winGood → ∃ t, exec (.windowsReenable n) s = .next t ∧ enabled t) ∧
      ((s.dev.head n).winGood < 64 → ∃ t, exec (.windowsReenable n) s = .next t ∧ t = s))) ∧
  (∀ s : State,
    let pend := s.dev.flag R.ML_SCHED_STAT.pend = true
    let tgt := s.dev.fld R.ML_SCHED_STAT.pend_tgt
    let live := fun (n : Nat) => n ∈ s.dev.listed.map (fun z => z.addr) ∧ (s.dev.head n).got = true
    let acks := fun (n : Nat) => s.dev.flag (R.ST_STATE.ack n) = true ∧ s.dev.fld (R.ST_STATE.ack_tgt n) = tgt
    let due := pend ∧ s.dev.net.decided = false ∧ s.dev.tick + 2 = s.dev.net.target ∧ s.dev.easel.closed = true
    let switch := pend ∧ s.dev.net.decided = true ∧ s.dev.net.commit = true ∧ s.dev.net.target ≤ s.dev.tick
    (∀ (lead : BitVec 8) (m : Fin 16),
      let ok := s.dev.modeIn [mReady, mRun, mHold, mService] = true ∧ ¬ pend ∧ m.val ≠ s.dev.net.sched ∧
        10 ≤ lead.toNat ∧ (∃ x, s.dev.schedMode? s.dev.net.sched = some x ∧ m.val ∈ x.allowed) ∧
        (s.dev.schedMode? m).isSome = true
      (ok → ∃ t, exec (.schedReq lead m) s = .next t ∧ t.dev.flag R.ML_SCHED_STAT.pend = true ∧
        t.dev.fld R.ML_SCHED_STAT.pend_tgt = m ∧ t.dev.fld R.ML_SCHED_STAT.result = 0 ∧
        t.dev.rd R.ML_SCHED_TICK.adr = word (s.dev.tick + 1 + lead.toNat) ∧
        t.dev.net.target = s.dev.tick + 1 + lead.toNat ∧ t.dev.net.decided = false ∧ t.dev.net.abortReq = false ∧
        RegsKept s t [R.ML_SCHED_CTRL.adr, R.ML_SCHED_STAT.adr, R.ML_SCHED_TICK.adr] ∧ MemKept s t ∧
        OnlyDev s t) ∧
      (¬ ok → ∃ t, exec (.schedReq lead m) s = .next t ∧
        FieldsSet s t [(R.ML_SCHED_CTRL.lead, lead.toNat), (R.ML_SCHED_CTRL.tgt, m), (R.ML_SCHED_STAT.rej, 1)])) ∧
    (pend ∧ s.dev.net.decided = false → ∃ t, exec .schedAbort s = .next t ∧
      t = { s with dev := { s.dev with net := { s.dev.net with abortReq := true } } }) ∧
    (¬ (pend ∧ s.dev.net.decided = false) → ∃ t, exec .schedAbort s = .next t ∧ t = s) ∧
    (¬ due → ∃ t, exec .schedDecision s = .next t ∧ t = s) ∧
    (due → s.dev.net.abortReq = false → (∀ n, live n → acks n) → ∃ t, exec .schedDecision s = .next t ∧
      t.dev.net.decided = true ∧ t.dev.net.commit = true ∧ RegsKept s t [] ∧ MemKept s t ∧ OnlyDev s t) ∧
    (due → s.dev.net.abortReq = true ∨ (∃ n, live n ∧ ¬ acks n) → ∃ t, exec .schedDecision s = .next t ∧
      t.dev.net.decided = true ∧ t.dev.net.commit = false ∧ t.dev.net.cancelLeft = 3 ∧
      t.dev.flag R.ML_SCHED_STAT.pend = false ∧
      t.dev.fld R.ML_SCHED_STAT.result = (if s.dev.net.abortReq then 3 else 2) ∧ MemKept s t ∧ OnlyDev s t) ∧
    (¬ switch → ∃ t, exec .schedSwitch s = .next t ∧ t = s) ∧
    (switch → ∃ t, exec .schedSwitch s = .next t ∧ t.dev.net.sched = tgt ∧
      t.dev.fld R.ML_SCHED_STAT.sched = tgt ∧ t.dev.fld R.ML_SCHED_STAT.result = 1 ∧
      t.dev.flag R.ML_SCHED_STAT.pend = false ∧ t.dev.easel.jobsFrom = tgt ∧ t.dev.net.decided = false ∧
      OnlyDev s t))

/-- The mailbox services of a station: each is carried out and answered with its result by a station that is
neither in FORWARD nor re-integrating, and left without an answer by any other (R99, R129, R152, R154, R155, R158).
The model's own choices and readings in it: log entry 3. -/
def Obligations.StationServices : Prop :=
  ∀ (s : State) (a : Fin 256),
    (s.stn? a = none ∨ (∃ x, s.stn? a = some x ∧ (x.state = .forward ∨ x.reint = true)) → ∀ c : Instr,
      ((∃ i n, c = .readId a i n) ∨ (∃ i w, c = .writeCfg a i w) ∨ (∃ m w, c = .commitCfg a m w) ∨
       (∃ i n, c = .readCfg a i n) ∨ (∃ i n, c = .readDiag a i n) ∨ (∃ m, c = .dropCfg a m)) →
      ∃ t, exec c s = .next t ∧ t.stn? a = s.stn? a ∧ OnlyStation s t a) ∧
    (∀ x, s.stn? a = some x → x.state ≠ .forward → x.reint = false →
      let answered := fun (c : Instr) (y : StationSt) (svc res idx : Nat) (ws : List Word) =>
        ∃ t, exec c s = .next t ∧ OnlyStation s t a ∧
          t.stn? a = some { (y) with out := x.out ++ [.mbxReply (MbxReply.mk x.addr svc res idx ws .correct)] }
      (∀ i n, (i + n ≤ 16 → answered (.readId a i n) x 1 0 i ((x.ident.drop i).take n)) ∧
        (16 < i + n → answered (.readId a i n) x 1 2 i [])) ∧
      (∀ i ws, (30 < ws.length ∨ 4096 ≤ i → answered (.writeCfg a i ws) x 2 2 i []) ∧
        (ws.length ≤ 30 → i < 4096 → ∃ t y, exec (.writeCfg a i ws) s = .next t ∧ OnlyStation s t a ∧
          t.stn? a = some y ∧ { (y) with stage := x.stage, out := x.out } = x ∧
          y.out = x.out ++ [.mbxReply (MbxReply.mk x.addr 2 0 i [] .correct)] ∧
          (∀ m, m ≠ i / 256 → y.stage.find? (fun c => c.mode = m) = x.stage.find? (fun c => c.mode = m)) ∧
          ∃ c, y.stage.find? (fun c => c.mode = i / 256) = some c ∧
            (∀ k, k < ws.length → nthW c.words (i % 256 + k) = nthW ws k) ∧
            (∀ k, (k < i % 256 ∨ i % 256 + ws.length ≤ k) → nthW c.words k =
              nthW (((x.stage.find? (fun c => c.mode = i / 256)).map (fun c => c.words)).getD []) k))) ∧
      (∀ m w, (16 ≤ m → answered (.commitCfg a m w) x 3 2 m []) ∧
        (m < 16 → x.stage.find? (fun c => c.mode = m) = none → answered (.commitCfg a m w) x 3 3 m []) ∧
        (∀ c, m < 16 → x.stage.find? (fun c => c.mode = m) = some c →
          (crc32 (wordsBytes c.words) ≠ w → answered (.commitCfg a m w) x 3 4 m []) ∧
          (crc32 (wordsBytes c.words) = w → x.cfgConsistent c m = false →
            answered (.commitCfg a m w) x 3 3 m []) ∧
          (crc32 (wordsBytes c.words) = w → x.cfgConsistent c m = true → x.cfgFits c m = false →
            answered (.commitCfg a m w) x 3 5 m []) ∧
          (crc32 (wordsBytes c.words) = w → x.cfgConsistent c m = true → x.cfgFits c m = true →
            answered (.commitCfg a m w) { (x) with cfgs := c :: x.cfgs.filter (fun y => y.mode ≠ m), stage := x.stage.filter (fun y => y.mode ≠ m) } 3 0 m []))) ∧
      (∀ i n, (x.cfg? (i / 256 % 16) = none → answered (.readCfg a i n) x 4 2 i []) ∧
        (∀ c, x.cfg? (i / 256 % 16) = some c →
          (n ≤ 30 → i < 4096 → i % 256 + n ≤ c.words.length →
            answered (.readCfg a i n) x 4 0 i ((c.words.drop (i % 256)).take n)) ∧
          (30 < n ∨ 4096 ≤ i ∨ c.words.length < i % 256 + n → answered (.readCfg a i n) x 4 2 i []))) ∧
      (∀ i n, (30 < n → answered (.readDiag a i n) x 5 2 i []) ∧
        (n ≤ 30 → ∃ ws, ws.length = n ∧ answered (.readDiag a i n) { (x) with diag := x.diag + 1 } 5 0 i ws)) ∧
      (∀ m, (16 ≤ m → answered (.dropCfg a m) x 6 2 m []) ∧
        (m < 16 → answered (.dropCfg a m) { (x) with cfgs := x.cfgs.filter (fun c => c.mode ≠ m) } 6 0 m [])))

/-- STATION_CYC_RX: a station in FORWARD passes the frame on unread; an integrated one takes its segment of the
tick before the apply deadline as a candidate and counts a later one as discarded, takes schedule and apply offset
from the head segment, fills its placeholder with its feedback, and passes the frame on, or folds it where the
other port is dead (R71, R74, R76, R80, R84, R85, R93, R157, R161). STATION_CST_RX: a station in FORWARD takes
tick, period, mode and domain from a CST frame with a correct CRC and enters COARSE; the frame goes on with its
corr renewed (R71, R80, R115, R120, R121). The model's own choices and readings in it: log entries 39, 69. -/
def Obligations.StationFramesAndColdStart : Prop :=
  (∀ (s : State) (a : Fin 256) (k : Fin 2) (f : CycFrame) (g at_ res : Nat) (x : StationSt),
    s.stn? a = some x →
    let c : Instr := .stationCycRx a k f g at_ res
    let fwd := 1 - k.val
    let corr := corrOut f.hdr.corr (s.dev.arrivalPs a k) res
    let onward : CrcOutcome := if f.crc = .correct then .correct else .complement
    (x.state = .forward → (x.ports.getD fwd {}).link = true →
      ∃ (t : State) (y : StationSt) (f' : CycFrame), exec c s = .next t ∧ t.stn? a = some y ∧ y.out = x.out ++ [.forward fwd f'] ∧
        OnlyStation s t a ∧ f' = { (f) with hdr := { (f.hdr) with corr := corr }, crc := onward } ∧
        { (y) with out := x.out, residNow := x.residNow, fbSent := x.fbSent } = x) ∧
    (∀ cf, x.state = .integrated → f.crc = .correct → f.hdr.fold = false → f.hdr.corr < 0xFFFFFF →
      f.hdr.lead = true → x.freeRun = false →
      (thetaOf f.hdr g (s.dev.arrivalPs a k)).natAbs ≤ 2000 → f.head.crcOk = true → f.hdr.tick = word x.tick →
      x.applySet = false → x.cfg? f.head.sched = some cf →
      ∃ t y, exec c s = .next t ∧ t.stn? a = some y ∧ OnlyStation s t a ∧
        y.localOfs = thetaOf f.hdr g (s.dev.arrivalPs a k) ∧ y.state = .integrated ∧
        y.sched = f.head.sched ∧ y.applyOfs = some f.head.applyOfs ∧
        y.annTgt = (if f.head.cancel then none else if f.head.ann then some f.head.tgt else none) ∧
        (∀ q, f.cmds.find? (fun g => x.segMatches cf g 0 (cf.f 0 31 24)) = some q → q.crc = .correct →
          (at_ < f.head.applyOfs - x.tPrep → y.discards = x.discards ∧
            y.cands = x.cands ++ [Cand.mk f.hdr.origin f.hdr.act f.hdr.epoch q.words]) ∧
          (f.head.applyOfs - x.tPrep ≤ at_ → y.cands = x.cands ∧ y.discards = (x.discards + 1) % 4096)) ∧
        ((∀ q ∈ f.cmds, x.segMatches cf q 0 (cf.f 0 31 24) = false) → y.cands = x.cands) ∧
        (let fold := ! x.portLive fwd
         fold = true ∨ (x.ports.getD fwd {}).link = true →
         ∃ f' : CycFrame, y.out = x.out ++ [.forward (if fold then k.val else fwd) f'] ∧ f'.hdr.fold = fold ∧
          f'.hdr.corr = corr ∧ f'.crc = .correct ∧ f'.cmds = f.cmds ∧ f'.fbs.length = f.fbs.length ∧
          ∀ (i : Nat) (q : Seg), f.fbs[i]? = some q →
            (x.segMatches cf q 1 (cf.f 0 23 16) = true ∧ bits q.hdr 9 9 = 0 →
              ∃ q' : Seg, f'.fbs[i]? = some q' ∧ q'.words = y.fbPayload cf ∧ bit q'.hdr 9 = true ∧
                q'.crc = .correct) ∧
            (¬ (x.segMatches cf q 1 (cf.f 0 23 16) = true ∧ bits q.hdr 9 9 = 0) → f'.fbs[i]? = some q)))) ∧
  (∀ (s : State) (a : Fin 256) (k : Fin 2) (f : CstFrame) (g : Nat) (x : StationSt), s.stn? a = some x →
    let fwd := 1 - k.val
    ∃ t y, exec (.stationCstRx a k f g) s = .next t ∧ t.stn? a = some y ∧ OnlyStation s t a ∧
      (f.crc = .correct → x.state = .forward → y.state = .coarse ∧ y.tick = f.hdr.tick.toNat ∧
        y.tickNs = f.tickNs ∧ y.sched = f.initSched ∧ y.domain = f.hdr.origin ∧ y.applyOfs = none) ∧
      (f.crc = .correct → x.state = .coarse → f.hdr.origin = 0 → x.coldA = false →
        y.domain = 0 ∧ y.tick = f.hdr.tick.toNat ∧ y.coldA = true) ∧
      (f.crc ≠ .correct → { (y) with out := x.out } = x) ∧
      (x.portLive fwd = true ∨ (x.state = .forward ∧ f.crc ≠ .correct ∧ (x.ports.getD fwd {}).link = true) →
        ∃ f' : CstFrame, y.out = x.out ++ [.forwardCst fwd f'] ∧
          f'.hdr.corr = corrOut f.hdr.corr (s.dev.arrivalPs a k) (x.idf 2 15 8 * 1000) ∧
          f'.tickNs = f.tickNs ∧ f'.initSched = f.initSched ∧ f'.phase = f.phase))

/-- STATION_APPLY_DEADLINE and STATION_APPLY: a station that holds an apply offset selects the candidate of the
active head, then of the higher epoch, then of unit A; without one it counts its command watchdog, which at its
limit opens the bridges and drops the timed outputs; a selected command is applied (R85, R87, R89, R166, R169,
R170, R171, R179). The model's own choices and readings in it: log entry 3. -/
def Obligations.StationAppliesCommands : Prop :=
  ∀ (s : State) (a : Fin 256) (x : StationSt), s.stn? a = some x →
    let cf := (x.cfg? x.sched).getD {}
    let lim := cf.f 1 11 8
    let held := x.state ≠ .forward ∧ x.applyOfs.isSome = true
    (¬ held → ∀ c : Instr, c = .stationApplyDeadline a ∨ c = .stationApply a →
      ∃ t, exec c s = .next t ∧ t.stn? a = some x ∧ OnlyStation s t a) ∧
    (held → ∃ t y, exec (.stationApplyDeadline a) s = .next t ∧ t.stn? a = some y ∧ OnlyStation s t a ∧
      y.cands = [] ∧ y.cmdMiss = x.cands.isEmpty ∧ y.wd = (if x.cands.isEmpty then x.wd + 1 else 0) ∧
      (x.cands = [] → y.applied = none ∧ y.tos = x.tos) ∧
      (∀ p, x.cands = [p] → y.applied = some p ∧ y.src = p.origin) ∧
      (∀ p q, x.cands = [p, q] → y.discards = (x.discards + 1) % 4096 ∧
        (p.act = true → q.act = false → y.applied = some p) ∧
        (p.act = false → q.act = true → y.applied = some q) ∧
        (p.act = q.act → epochHigher q.epoch p.epoch = true → y.applied = some q) ∧
        (p.act = q.act → epochHigher p.epoch q.epoch = true → epochHigher q.epoch p.epoch = false →
          y.applied = some p) ∧
        (p.act = q.act → p.epoch = q.epoch → epochHigher p.epoch p.epoch = false →
          y.applied = some (if q.origin < p.origin then q else p)))) ∧
    (held → x.applied = none →
      (lim ≠ 0 → lim ≤ x.wd → ∃ t y, exec (.stationApply a) s = .next t ∧ t.stn? a = some y ∧
        OnlyStation s t a ∧ y.wdTrip = true ∧ y.tos = [] ∧
        ∀ q ∈ y.axes, q.bridgeOn = false ∧ q.brake = false ∧ q.hold = true) ∧
      (lim = 0 ∨ x.wd < lim → ∃ t y, exec (.stationApply a) s = .next t ∧ t.stn? a = some y ∧
        OnlyStation s t a ∧ { (y) with axes := x.axes, prOut := x.prOut } = x ∧
        y.axes = x.axes.map (fun q => { (q) with pointA := q.pointB }))) ∧
    (∀ k, held → x.applied = some k → ∃ t y, exec (.stationApply a) s = .next t ∧ t.stn? a = some y ∧
      OnlyStation s t a ∧ y.locate = bit (nthW k.words 0) 2 ∧ y.lastTick = x.tick ∧
      y.tos = (if bit (nthW k.words 0) 1 then [] else x.tos) ∧
      (bit (nthW k.words 0) 0 = true → y.toLate = false ∧ y.toBad = false ∧ y.toFull = false) ∧
      (∀ p v, x.dos[p]? = some v →
        let ws := x.blkOf cf k.words 1
        let first := cf.blkFirst 1
        y.dos[p]? = some (if first ≤ p ∧ (p - first) / 32 < ws.length ∧ cf.toPoint p = false then
          bit (nthW ws ((p - first) / 32)) ((p - first) % 32) else v)) ∧
      (∀ p v, x.aos[p]? = some v →
        let ws := x.blkOf cf k.words 2
        let first := cf.blkFirst 2
        y.aos[p]? = some (if first ≤ p ∧ (p - first) / 2 < ws.length then
          (nthW ws ((p - first) / 2)).extractLsb' (16 * ((p - first) % 2)) 16 else v)) ∧
      (x.ptype = 2 → ∀ i q, x.axes[i]? = some q → ∃ q', y.axes[i]? = some q' ∧
        q'.pointA = nthW ((k.words.drop (1 + 3 * i)).take 3) 1 ∧
        q'.pointB = nthW ((k.words.drop (1 + 3 * i)).take 3) 2 ∧
        (x.stoOn cf = true → q'.bridgeOn = false)))

/-- TIMED_OUTPUT_FIRE, STATION_ALARM_SLOT, STATION_PDU_EVAL, STATION_POWER_UP and CONFIGURATION_LOST: an entry
fires once, sets, clears or toggles its output and leaves the list; an integrated station sends its oldest alarm; a
valid PDU of a candidate counts as a grant or withholds at once; a station starts in FORWARD with its identity; a
lost configuration is gone and, integrated, raises alarm 0x0A (R98, R131, R152, R181, R182, R189, R445, R446,
R629). The model's own choices and readings in it: log entry 3. -/
def Obligations.StationEvents : Prop :=
  ∀ (s : State) (a : Fin 256),
    (∀ (kept : Bool) (ident : List Word), ∃ t y, exec (.stationPowerUp a kept ident) s = .next t ∧
      t.stn? a = some y ∧ OnlyStation s t a ∧ y.addr = a ∧ y.state = .forward ∧ y.ident = ident ∧
      y.cfgs = (if kept then ((s.stn? a).map (fun x => x.cfgs)).getD [] else []) ∧ y.tos = [] ∧
      y.alarms = [] ∧ y.cands = [] ∧ y.axes.length = bits (nthW ident 2) 7 4) ∧
    (∀ x, s.stn? a = some x →
      (∀ (id : Fin 32768),
        ((∀ e ∈ x.tos, e.id ≠ id.val) → ∃ t, exec (.timedOutputFire a id) s = .next t ∧ t.stn? a = some x ∧
          OnlyStation s t a) ∧
        (∀ l1 e l2, x.tos = l1 ++ e :: l2 → (∀ q ∈ l1, q.id ≠ id.val) → e.id = id.val →
          ∃ t y, exec (.timedOutputFire a id) s = .next t ∧ t.stn? a = some y ∧ OnlyStation s t a ∧
            (∀ q ∈ y.tos, q.id ≠ id.val) ∧ (∀ q ∈ x.tos, q.id ≠ id.val → q ∈ y.tos) ∧
            y.out = x.out ++ [.fire e.output e.act e.id] ∧ (e.id, x.tick) ∈ y.fired ∧
            ∀ p v, x.dos[p]? = some v → y.dos[p]? = some (if p = e.output then
              (if e.act = 1 then false else if e.act = 2 then true else ! v) else v))) ∧
      (∀ c d d2 rest, x.alarms = (c, d, d2) :: rest → x.state = .integrated → x.reint = false →
        ∃ t, exec (.stationAlarmSlot a) s = .next t ∧ OnlyStation s t a ∧
          t.stn? a = some { (x) with alarms := rest, out := x.out ++ [.alarm (AlmFrame.mk x.addr c d (word d2) .correct)] }) ∧
      (x.alarms = [] ∨ x.state ≠ .integrated ∨ x.reint = true →
        ∃ t, exec (.stationAlarmSlot a) s = .next t ∧ t.stn? a = some x ∧ OnlyStation s t a) ∧
      (∀ m : Fin 16,
        (x.cfg? m = none → ∃ t, exec (.configurationLost a m) s = .next t ∧ t.stn? a = some x ∧
          OnlyStation s t a) ∧
        ((x.cfg? m).isSome = true → ∃ t y, exec (.configurationLost a m) s = .next t ∧ t.stn? a = some y ∧
          OnlyStation s t a ∧ y.cfg? m = none ∧ (∀ n, n ≠ m.val → y.cfg? n = x.cfg? n) ∧
          y.alarms = x.alarms ++ (if x.state = .integrated then [(0x0A, m.val, 0)] else []))) ∧
      (∀ (u : Fin 2) (n : Fin 4) (pdu : List Word) (cn : Nat) (cf : StCfg),
        (s.dev.connsOf a)[n.val]? = some cn → x.cfg? x.sched = some cf →
        let inCand := ∃ k ∈ x.cands, k.origin = u.val ∧
          ((x.blkOf cf k.words 6).drop (4 * n.val)).take 4 = pdu
        let valid := s.dev.pduValid cn pdu 0 (cf.f 1 23 16) x.tick = true
        let want : BitVec 16 := if s.dev.fld (R.SF_CONN_CFG.kind cn) = 2 then
          BitVec.ofNat 16 (bits (nthW pdu 2) 0 0) else BitVec.ofNat 16 (bits (nthW pdu 2) 15 0)
        (inCand → valid → ∃ t y, exec (.stationPduEval a u n pdu) s = .next t ∧ t.stn? a = some y ∧
          OnlyStation s t a ∧ y.cands = x.cands ∧
          y.conns = x.conns.map (fun q => if q.idx = n.val then
            { (q) with valid := true, grant := q.grant ||| want, withhold := q.withhold ||| ~~~ want, permit := q.permit &&& want } else q)) ∧
        (¬ (inCand ∧ valid) → ∃ t, exec (.stationPduEval a u n pdu) s = .next t ∧ t.stn? a = some x ∧
          OnlyStation s t a)))

/-- AX_ENABLE, AX_DISABLE, AX_RESET, COAST_TIMEOUT, CATCH_TIMEOUT, BRAKE_RELEASE_DONE, STOPPING_DONE, TRIES_RESET,
STEPPER_CATCH_DONE and HOLD_CURRENT_TIMEOUT: the transitions of an axis, each from the states and under the
conditions that the spec gives it, and rejected or without effect otherwise (R287, R288, R293, R295, R296, R325,
R329). AX_REF_WRITE: a source is taken in Off, in an idle profile toward source 1 or 2, and at standstill toward
source 0, and refused otherwise, source 2 on a stepper axis always; leaving source 0 aborts the profile (R278,
R317). The model's own choices and readings in it: log entry 3. -/
def Obligations.AxisTransitionsAndReference : Prop :=
  (∀ (s : State) (a : Fin 128),
    let d := s.dev
    let st := d.astate a
    let used := d.akind a = 1 ∨ d.akind a = 2
    let x := d.ax a
    let keeps := fun (c : Instr) => ∃ t, exec c s = .next t ∧ t = s
    let enters := fun (c : Instr) (n : Nat) => ∃ t, exec c s = .next t ∧ AxisEntered s t a n []
    (used → d.rmode = mRun → st = aOff → d.stnAbsent (d.fld (R.AX_CFG.stn a)) = false →
      ∃ t, exec (.axEnable a) s = .next t ∧ AxisEntered s t a aCatching [] ∧ (t.dev.ax a).fltClr = true ∧
        t.dev.fld (R.AX_STATE.ang_use a) = d.fld (R.AX_CFG.ang_pri a) ∧
        CountedOnce s t (R.AX_CNT.catches a)) ∧
    (¬ (used ∧ d.rmode = mRun ∧ st = aOff ∧ d.stnAbsent (d.fld (R.AX_CFG.stn a)) = false) →
      ∃ t, exec (.axEnable a) s = .next t ∧ EventRaised s t (R.AX_EVT.rej a)) ∧
    (¬ used ∨ st = aOff ∨ st = aStopping ∨ aLost ≤ st → keeps (.axDisable a)) ∧
    (used → (st = aReleasing ∨ st = aEnabled ∨ (st = aCatching ∧ d.akind a = 2)) →
      enters (.axDisable a) aStopping) ∧
    (st = aCatching → d.akind a = 1 → ∃ t, exec (.axDisable a) s = .next t ∧
      (t.dev.ax a).disPend = true ∧ { (t) with dev := { t.dev with axes := s.dev.axes } } = s) ∧
    (used → st = aCoasting → x.stateTick ≠ d.tick → enters (.axDisable a) aOff) ∧
    (used → (st = aLost ∨ st = aFault ∨ (st = aSafeOff ∧ d.axPermitted a = true)) →
      d.slotAge (d.fld (R.AX_CFG.stn a)) = 0 → d.cellBars a = false →
      ∃ t, exec (.axReset a) s = .next t ∧ AxisEntered s t a aOff [] ∧ t.dev.fld (R.AX_STATE.tries a) = 0 ∧
        t.dev.fld (R.AX_STATE.ang_use a) = d.fld (R.AX_CFG.ang_pri a) ∧ (t.dev.ax a).stoCmd = false) ∧
    (¬ used ∨ st < aLost ∨ d.slotAge (d.fld (R.AX_CFG.stn a)) ≠ 0 ∨ d.cellBars a = true ∨
        (st = aSafeOff ∧ d.axPermitted a = false) →
      ∃ t, exec (.axReset a) s = .next t ∧ EventRaised s t (R.AX_EVT.rej a)) ∧
    (st = aCoasting → ∃ t, exec (.coastTimeout a) s = .next t ∧ AxisEntered s t a aCatching [] ∧
      CountedOnce s t (R.AX_STATE.tries a) ∧ CountedOnce s t (R.AX_CNT.catches a)) ∧
    (st ≠ aCoasting → keeps (.coastTimeout a)) ∧
    (st = aCatching → d.akind a = 1 →
      (x.fromCoast = true → d.fld (R.AX_STATE.tries a) < d.fld (R.AX_CATCH.max a) →
        enters (.catchTimeout a) aCoasting) ∧
      (x.fromCoast = false → ∃ t, exec (.catchTimeout a) s = .next t ∧ t.dev.astate a = aFault ∧
        t.dev.flag (R.AX_EVT.catch_fail a) = true ∧
        (d.fld (R.AX_REACT.grp_flt a) = 0 → AxisEntered s t a aFault [R.AX_EVT.adr a]) ∧
        MemKept s t ∧ OnlyDev s t) ∧
      (x.fromCoast = true → d.fld (R.AX_CATCH.max a) ≤ d.fld (R.AX_STATE.tries a) →
        ∃ t, exec (.catchTimeout a) s = .next t ∧ t.dev.astate a = aSafeOff ∧ (t.dev.ax a).stoCmd = true ∧
          t.dev.flag (R.AX_EVT.catch_fail a) = true ∧ t.dev.flag (R.AX_EVT.sto a) = true ∧
          MemKept s t ∧ OnlyDev s t)) ∧
    (¬ (st = aCatching ∧ d.akind a = 1) → keeps (.catchTimeout a)) ∧
    (st = aReleasing → enters (.brakeReleaseDone a) aEnabled) ∧
    (st ≠ aReleasing → keeps (.brakeReleaseDone a)) ∧
    (st = aStopping → enters (.stoppingDone a) aOff) ∧ (st ≠ aStopping → keeps (.stoppingDone a)) ∧
    (st = aEnabled → 1024 ≤ x.goodTicks → ∃ t, exec (.triesReset a) s = .next t ∧
      FieldsSet s t [(R.AX_STATE.tries a, 0)]) ∧
    (¬ (st = aEnabled ∧ 1024 ≤ x.goodTicks) → keeps (.triesReset a)) ∧
    (st = aCatching → d.akind a = 2 → ∃ t, exec (.stepperCatchDone a) s = .next t ∧
      AxisEntered s t a (if x.disPend = true then aStopping
        else if d.flag (R.AX_BRAKE.fitted a) = true then aReleasing else aEnabled) [] ∧
      (t.dev.ax a).ctl.encOfs = x.ctl.pc.floor -
        (if d.fld (R.AX_ENC_CPR.cpr a) = 0 then 0
         else (d.dec a).cnt * 65536 / (d.fld (R.AX_ENC_CPR.cpr a) : Int))) ∧
    (¬ (st = aCatching ∧ d.akind a = 2) → keeps (.stepperCatchDone a)) ∧
    (let due := d.akind a = 2 ∧ st ≠ aCatching ∧ d.fld (R.AX_STP_CFG.t_hold a) ≠ 0 ∧ x.ctl.vc = 0 ∧
        x.ctl.holdI = false ∧ d.ticksOfMs (10 * d.fld (R.AX_STP_CFG.t_hold a)) ≤ x.ctl.spdZero
     (due → ∃ t, exec (.holdCurrentTimeout a) s = .next t ∧ (t.dev.ax a).ctl.holdI = true ∧
       t.dev.flag (R.AX_STP_EVT.hold_i a) = true ∧ RegsKept s t [R.AX_STP_EVT.adr a] ∧ MemKept s t ∧
       OnlyDev s t) ∧
     (¬ due → keeps (.holdCurrentTimeout a)))) ∧
  (∀ (s : State) (a : Fin 128) (v : Word),
    let d := s.dev
    let src := bits v 1 0
    let nz : Rat := (d.fld (R.AX_ZERO.n_zero a) : Nat)
    let w := (d.ax a).ctl.wr * 10
    let ok := ¬ (src = 2 ∧ d.akind a = 2) ∧ (d.astate a = aOff ∨ ((d.prf a).idle = true ∧ src ≠ 0) ∨
      (w ≤ nz ∧ -nz ≤ w ∧ src = 0))
    (src = 3 → ∃ t, exec (.axRefWrite a v) s = .next t ∧ FieldsSet s t [(R.AX_EVT.cfg_rej a, 1)]) ∧
    (src ≠ 3 → ¬ ok → ∃ t, exec (.axRefWrite a v) s = .next t ∧ FieldsSet s t [(R.AX_EVT.src_rej a, 1)]) ∧
    (src ≠ 3 → ok → ∃ t, exec (.axRefWrite a v) s = .next t ∧ t.dev.fld (R.AX_REF.src a) = src ∧
      RegsKept s t [R.AX_REF.adr a, R.AX_PRF_STAT.adr a, R.AX_PRF_EVT.adr a] ∧
      (d.loadOrService = false → R.AX_REF.adr a ∈ t.dev.twin.wrote) ∧
      (d.fld (R.AX_REF.src a) = 0 → src ≠ 0 → (t.dev.prf a).moving = false ∧ (t.dev.prf a).queue = [] ∧
        t.dev.fld (R.AX_PRF_STAT.phase a) = 0 ∧ t.dev.fld (R.AX_PRF_STAT.queued a) = 0) ∧
      (d.fld (R.AX_REF.src a) ≠ 0 ∨ src = 0 → BitsKept s t [R.AX_REF.src a] ∧ t.dev.prfs = d.prfs) ∧
      MemKept s t ∧ OnlyDev s t))

/-- MOVE_ABS, MOVE_REL, STOP, FLUSH and PRF_RESERVED_OP as the first command of a tick: each is answered in
AX_PRF_STAT.res with the result of the spec's table, and joins the commands that the profile step reads; a MOVE and
a STOP of one tick are judged with the STOP first. PROFILE_LATE_STOP stops an axis with its group once late_lim
steps are missing (R306, R307, R310, R315, R316, R319; that a command waits for the profile step: log entry 16).
The model's own choices and readings in it: log entries 16, 17. -/
def Obligations.ProfileCommands : Prop :=
  ∀ (s : State) (a : Fin 128),
    let d := s.dev
    let p := d.prf a
    let tgt := d.sfld (R.AX_PRF_TGT.tgt a)
    let answers := fun (c : Instr) (op res queued : Nat) => ∃ t, exec c s = .next t ∧
      t.dev.prf a = { (p) with cmds := p.cmds ++ [PrfCmd.mk op tgt] } ∧
      (∀ b, b ≠ a.val → t.dev.prf b = d.prf b) ∧
      t.dev.fld (R.AX_PRF_STAT.res a) = res ∧ t.dev.fld (R.AX_PRF_STAT.queued a) = queued ∧
      (if 2 ≤ res then t.dev.flag (R.AX_PRF_EVT.rej a) = true else t.dev.evts = d.evts) ∧
      BitsKept s t ([R.AX_PRF_STAT.res a, R.AX_PRF_STAT.queued a] ++
        if 2 ≤ res then [R.AX_PRF_EVT.rej a] else []) ∧
      { (t) with dev := { t.dev with regs := d.regs, evts := d.evts, prfs := d.prfs } } = s
    let n := p.queue.length
    let ready := d.astate a = aEnabled ∧ d.fld (R.AX_REF.src a) = 0
    let zero := d.fld (R.AX_LIM.n_lim a) % 32768 * d.fld (R.AX_BASE.n_base a) = 0 ∨
      d.fld (R.AX_PRF_VMAX.vmax a) = 0 ∨ d.fld (R.AX_PRF_ACC.acc a) = 0 ∨ d.fld (R.AX_PRF_LIM.acc_lim a) = 0 ∨
      d.fld (R.AX_PRF_ACC.dec a) = 0 ∨ d.fld (R.AX_PRF_LIM.dec_lim a) = 0
    let inRange := fun (q : Int) => -(2 ^ 31) ≤ q ∧ q < 2 ^ 31
    let reject := d.flag (R.AX_PRF_CFG.qmode a) = true
    (p.cmds = [] → n ≤ 8 →
      (∀ op : Fin 16, op = 0 ∨ 5 ≤ op.val → answers (.prfReservedOp a op) op 5 n) ∧
      (¬ ready → answers (.moveAbs a) 1 4 n ∧ answers (.moveRel a) 2 4 n ∧ answers (.stop a) 3 4 n ∧
        answers (.flush a) 4 4 n) ∧
      (ready → answers (.stop a) 3 0 0 ∧ answers (.flush a) 4 0 0) ∧
      (ready → d.rmode = mHold → answers (.moveAbs a) 1 4 n ∧ answers (.moveRel a) 2 4 n) ∧
      (ready → d.rmode ≠ mHold →
        (p.moving = false → (zero → answers (.moveAbs a) 1 5 n) ∧ (¬ zero → answers (.moveAbs a) 1 0 n)) ∧
        (p.moving = false → p.stopping = false → p.queue = [] →
          let q := d.sfld (R.AX_PRF_POS.p_ref a) + tgt
          (zero ∨ ¬ inRange q → answers (.moveRel a) 2 5 0) ∧
          (¬ zero → inRange q → answers (.moveRel a) 2 0 0)) ∧
        (p.moving = true →
          (reject → answers (.moveAbs a) 1 2 n ∧ answers (.moveRel a) 2 2 n) ∧
          (¬ reject → n = 8 → answers (.moveAbs a) 1 3 n ∧ answers (.moveRel a) 2 3 n) ∧
          (¬ reject → n < 8 → answers (.moveAbs a) 1 1 (n + 1) ∧
            (p.queue = [] → p.stopping = true → answers (.moveRel a) 2 1 1) ∧
            (p.queue = [] → p.stopping = false →
              (inRange (p.target + tgt) → answers (.moveRel a) 2 1 1) ∧
              (¬ inRange (p.target + tgt) → answers (.moveRel a) 2 5 0)) ∧
            (∀ l q, p.queue = l ++ [PrfMove.mk (some q) 0] →
              (inRange (q + tgt) → answers (.moveRel a) 2 1 (n + 1)) ∧
              (¬ inRange (q + tgt) → answers (.moveRel a) 2 5 n)))))) ∧
    (∀ m, p.cmds = [PrfCmd.mk 1 m] → inRange m → ready → d.rmode ≠ mHold → p.moving = true → ¬ reject →
      answers (.stop a) 3 1 1) ∧
    (∀ m, p.cmds = [PrfCmd.mk 1 m] → ready → d.rmode ≠ mHold → p.moving = true → reject →
      ∃ t, exec (.stop a) s = .next t ∧ t.dev.fld (R.AX_PRF_STAT.res a) = 2 ∧
        t.dev.fld (R.AX_PRF_STAT.queued a) = 0) ∧
    (let late := d.astate a = aEnabled ∧ d.fld (R.AX_PRF_CFG.late_lim a) ≤ (d.ax a).lostRun
     let grp := fun (b : Nat) => b < 128 ∧ b ≠ a.val ∧ (d.akind b = 1 ∨ d.akind b = 2) ∧
       d.fld (R.AX_CFG.grp b) = d.fld (R.AX_CFG.grp a)
     (¬ late → ∃ t, exec (.profileLateStop a) s = .next t ∧ t = s) ∧
     (late → ∃ t, exec (.profileLateStop a) s = .next t ∧ t.dev.astate a = aStopping ∧
       t.dev.flag (R.AX_PRF_EVT.late a) = true ∧
       (∀ b, b < 128 → b ≠ a.val → t.dev.astate b =
         if d.fld (R.AX_CFG.grp b) = d.fld (R.AX_CFG.grp a) ∧ (d.akind b = 1 ∨ d.akind b = 2) ∧
            (d.astate b = aReleasing ∨ d.astate b = aEnabled ∨ (d.astate b = aCatching ∧ d.akind b = 2))
         then aStopping else d.astate b) ∧
       (∀ b, grp b → d.astate b = aCatching → d.akind b = 1 → (t.dev.ax b).disPend = true) ∧
       MemKept s t ∧ OnlyDev s t))

/-- AX_EMU_CFG_WRITE and AX_FB_POFS_WRITE: accepted while emulation is off or in Load and Service, and in Load and
Service or in Off, and rejected otherwise; a new reference is taken and the carry cleared (R300, R345). AX_CMP_ARM
and AX_CMP_REWIND: arming in Run, Hold and Load where no armed list shares an entry, disarming with the retraction
of what is staged, and the pointer moved on a disarmed list only (R347, R357, R360; arming in Load: log entry 28).
COMPARE_EVALUATION: an armed list on an Enabled axis is evaluated once a tick over the predicted course; an entry
that the course does not cross, or whose dir is 3, stays the next one, and one that it crosses in a direction that
dir admits is staged with its fire time and ID, the last of a list that is not cyclic ending it (R348, R350, R351,
R352, R353, R357). The model's own choices and readings in it: log entry 28. -/
def Obligations.EmulationAndCompare : Prop :=
  (∀ (s : State),
    (∀ (a : Fin 128) (v : Word),
      let d := s.dev
      let en := d.flag (R.AX_EMU_CFG.en a) = true
      let free := ¬ en ∨ d.loadOrService = true
      let rejects := fun (c : Instr) => ∃ t, exec c s = .next t ∧ FieldsSet s t [(R.AX_EVT.cfg_rej a, 1)]
      let anew := fun (t : State) => (t.dev.dec a).emuE = none ∧ (t.dev.dec a).emuCarry = 0
      (free → ∃ t, exec (.axEmuCfgWrite a false v) s = .next t ∧
        RegWritten s t (R.AX_EMU_CFG.adr a) (v &&& 0xC0FF0007#32) [] ∧
        (¬ en → bit v 31 = true → anew t) ∧ (en ∨ bit v 31 = false → t.dev.decs = d.decs)) ∧
      (¬ free → rejects (.axEmuCfgWrite a false v)) ∧
      (free → 1 ≤ v.toNat → v.toNat ≤ 2 ^ 31 → ∃ t, exec (.axEmuCfgWrite a true v) s = .next t ∧
        RegWritten s t (R.AX_EMU_RES.adr a) v [] ∧ anew t) ∧
      (¬ free ∨ v = 0 ∨ 2 ^ 31 < v.toNat → rejects (.axEmuCfgWrite a true v)) ∧
      (d.loadOrService = true ∨ d.astate a = aOff → ∃ t, exec (.axFbPofsWrite a v) s = .next t ∧
        RegWritten s t (R.AX_FB_POFS.adr a) v [] ∧ anew t) ∧
      (¬ (d.loadOrService = true ∨ d.astate a = aOff) → rejects (.axFbPofsWrite a v))) ∧
    (∀ (l : Fin 16) (v : Word),
      let d := s.dev
      let old := d.rd (R.AX_CMP_CFG.adr l)
      let w := v &&& 0xE07FFFFF#32
      let armed := d.flag (R.AX_CMP_CFG.arm l) = true
      let rejects := fun (c : Instr) => ∃ t, exec c s = .next t ∧ FieldsSet s t [(R.AX_CMP_EVT.cfg_rej l, 1)]
      let shown := fun (t : State) (n : Nat) => t.dev.fld (R.AX_CMP_STAT.state l) = n ∧
        t.dev.fld (R.AX_CMP_STAT.next l) = d.fld (R.AX_CMP_STAT.next l)
      let meets := ∃ k : Fin 16, k ≠ l ∧ d.flag (R.AX_CMP_CFG.arm k) = true ∧
        d.fld (R.AX_CMP_SPAN.first l) ≤ d.fld (R.AX_CMP_SPAN.first k) + d.fld (R.AX_CMP_SPAN.len_m1 k) ∧
        d.fld (R.AX_CMP_SPAN.first k) ≤ d.fld (R.AX_CMP_SPAN.first l) + d.fld (R.AX_CMP_SPAN.len_m1 l)
      (armed → w ||| 0x80000000#32 ≠ old → rejects (.axCmpArm l v)) ∧
      (armed → w ||| 0x80000000#32 = old → bit v 31 = true → ∃ t, exec (.axCmpArm l v) s = .next t ∧
        RegWritten s t (R.AX_CMP_CFG.adr l) old [] ∧ t.dev.cmps = d.cmps) ∧
      (armed → w ||| 0x80000000#32 = old → bit v 31 = false → ∃ t, exec (.axCmpArm l v) s = .next t ∧
        RegWritten s t (R.AX_CMP_CFG.adr l) w [R.AX_CMP_STAT.adr l, R.AX_CMP_EVT.adr l] ∧ shown t 0 ∧
        ∀ e ∈ (d.cmp l).staged, d.now < e.fire → ∃ e' ∈ (t.dev.cmp l).staged, e'.id = e.id ∧ e'.retr = true) ∧
      (¬ armed → bit v 31 = false → ∃ t, exec (.axCmpArm l v) s = .next t ∧
        RegWritten s t (R.AX_CMP_CFG.adr l) w [] ∧ t.dev.cmps = d.cmps) ∧
      (¬ armed → bit v 31 = true → (d.rmode = mRun ∨ d.rmode = mHold ∨ d.rmode = mLoad) → ¬ meets →
        ∃ t, exec (.axCmpArm l v) s = .next t ∧ RegWritten s t (R.AX_CMP_CFG.adr l) w [R.AX_CMP_STAT.adr l] ∧
        (t.dev.cmp l).seq = 0 ∧ (t.dev.cmp l).staged = (d.cmp l).staged ∧
        shown t (if d.fld (R.AX_CMP_SPAN.len_m1 l) < d.fld (R.AX_CMP_STAT.next l) then 3
          else if d.fld (R.AX_STATE.astate (bits v 22 16)) = 3 then 1 else 2)) ∧
      (¬ armed → bit v 31 = true → ¬ (d.rmode = mRun ∨ d.rmode = mHold ∨ d.rmode = mLoad) ∨ meets →
        rejects (.axCmpArm l v)) ∧
      (armed → rejects (.axCmpRewind l)) ∧
      (¬ armed → ∃ t, exec (.axCmpRewind l) s = .next t ∧ t.dev.fld (R.AX_CMP_STAT.next l) = 0 ∧
        (t.dev.cmp l).seq = 0 ∧ (t.dev.cmp l).done = false ∧ (t.dev.cmp l).staged = (d.cmp l).staged ∧
        BitsKept s t [R.AX_CMP_STAT.next l] ∧
        { (t) with dev := { t.dev with regs := d.regs, cmps := d.cmps } } = s))) ∧
  (∀ (s : State) (l : Fin 16), (∀ c, s.dev.flipAt c = 0) →
    let d := s.dev
    let a := d.fld (R.AX_CMP_CFG.axis l)
    let runs := d.flag (R.AX_CMP_CFG.arm l) = true ∧ (d.cmp l).evalTick ≠ some d.tick ∧ d.easel.closed = false ∧
      d.astate a = aEnabled ∧ (d.flag (R.AX_CMP_CFG.src l) = true → (d.dec a).fresh = some d.tick)
    let course := if d.flag (R.AX_CMP_CFG.src l) then d.measCourse a else d.refCourse a
    let opens := (d.tick + 1) * d.time.tickNs + d.cmpOfs l
    let ends : Int := opens + d.time.tickNs
    let start : Int := match (d.cmp l).from_ with | some q => q.floor | none => opens
    let i := d.fld (R.AX_CMP_STAT.next l)
    let w := d.cmpEntry l i
    let x := firstCross course (sword (nthW w 0)) start ends
    let dir := bits (nthW w 1) 31 30
    let done := fun (c : CmpSt) => { (c) with evalTick := some d.tick, from_ := some (ends : Rat) }
    (¬ runs → ∃ t, exec (.compareEvaluation l) s = .next t ∧ t = s) ∧
    (runs → (d.cmp l).staged = [] → (d.cmp l).done = false →
      (dir = 3 → ∃ t, exec (.compareEvaluation l) s = .next t ∧ t.dev.cmp l = done (d.cmp l) ∧
        t.dev.flag (R.AX_CMP_EVT.cfg_rej l) = true ∧ t.dev.fld (R.AX_CMP_STAT.next l) = i ∧
        RegsKept s t [R.AX_CMP_STAT.adr l, R.AX_CMP_EVT.adr l] ∧ MemKept s t ∧ OnlyDev s t) ∧
      (dir ≠ 3 → x = none → ∃ t, exec (.compareEvaluation l) s = .next t ∧ t.dev.cmp l = done (d.cmp l) ∧
        t.dev.fld (R.AX_CMP_STAT.next l) = i ∧ t.dev.fld (R.AX_CMP_STAT.staged l) = 0 ∧
        RegsKept s t [R.AX_CMP_STAT.adr l] ∧ MemKept s t ∧ OnlyDev s t) ∧
      (∀ at_ up, x = some (at_, up) → (dir = 0 ∨ (dir = 1 ∧ up = true) ∨ (dir = 2 ∧ up = false)) →
        bits (nthW w 1) 29 28 ≠ 0 → opens < at_.toNat → i = d.fld (R.AX_CMP_SPAN.len_m1 l) →
        d.flag (R.AX_CMP_CFG.cyc l) = false → d.cmpRoom l = true → Sparse.wf (fun _ => ({} : CmpSt)) d.cmps = true →
        ∃ t, exec (.compareEvaluation l) s = .next t ∧ (t.dev.cmp l).done = true ∧
          (t.dev.cmp l).staged.map (fun (e : CmpEntry) => (e.idx, e.tag, e.act, e.fire, e.id)) =
            [(i, bits (nthW w 1) 15 0, bits (nthW w 1) 29 28, at_.toNat,
              0x7000 + 0x100 * l.val + (d.cmp l).seq % 256)] ∧
          (t.dev.cmp l).seq = (d.cmp l).seq + 1 ∧ t.dev.flag (R.AX_CMP_EVT.done l) = true ∧
          t.dev.fld (R.AX_CMP_STAT.state l) = 3 ∧ t.dev.fld (R.AX_CMP_STAT.staged l) = 1 ∧
          t.dev.fld (R.AX_CMP_LAST.fire l) = at_.toNat % 2 ^ 32 ∧
          RegsKept s t [R.AX_CMP_STAT.adr l, R.AX_CMP_EVT.adr l, R.AX_CMP_LAST.adr l] ∧ MemKept s t ∧ OnlyDev s t)))

/-- PL_AUTO, PL_MANUAL, PL_RESUME and PL_RESET wait for the loop's next run where its state and its input allow
them, and are rejected otherwise; PL_CFG_WRITE places a loop in Load and Service and takes one that it switches off
to Off at once; PL_COEF_WRITE stores a limit or a coefficient in Off and Manual and in Load and Service (R372,
R375, R376, R381). The model's own choices and readings in it: log entry 25. -/
def Obligations.LoopControls : Prop :=
  ∀ (s : State) (i : Fin 384),
    let d := s.dev
    let st := d.lstate i
    let fresh := (d.plInput i).1 = 0
    let queued := fun (c : Instr) (x : LoopCtl) => ∃ t, exec c s = .next t ∧
      t.dev.loop i = { (d.loop i) with ctrl := (d.loop i).ctrl ++ [x] } ∧
      (∀ k, k ≠ i.val → t.dev.loop k = d.loop k) ∧ { (t) with dev := { t.dev with loops := d.loops } } = s
    let refused := fun (c : Instr) => ∃ t, exec c s = .next t ∧ EventRaised s t (R.PL_EVT.ctrl_rej i)
    (st = lManual ∧ fresh → queued (.plAuto i) .auto) ∧ (¬ (st = lManual ∧ fresh) → refused (.plAuto i)) ∧
    (st = lAuto ∨ st = lHold → queued (.plManual i) .manual) ∧
    (¬ (st = lAuto ∨ st = lHold) → refused (.plManual i)) ∧
    (st = lHold ∧ fresh → queued (.plResume i) .resume) ∧ (¬ (st = lHold ∧ fresh) → refused (.plResume i)) ∧
    (st = lFault ∧ fresh → queued (.plReset i) .reset) ∧ (¬ (st = lFault ∧ fresh) → refused (.plReset i)) ∧
    (∀ v : Word,
      let ok := d.loadOrService = true ∧ bits v 29 23 ≤ 95 ∧ bits v 9 0 ≤ bits v 21 12
      (¬ ok → ∃ t, exec (.plCfgWrite i v) s = .next t ∧ FieldsSet s t [(R.PL_EVT.cfg_rej i, 1)]) ∧
      (ok → bit v 31 = true → ∃ t, exec (.plCfgWrite i v) s = .next t ∧
        FieldsSet s t [(wholeReg (R.PL_CFG.adr i), (v &&& 0xFFFFF3FF#32).toNat)]) ∧
      (ok → bit v 31 = false → ∃ t, exec (.plCfgWrite i v) s = .next t ∧
        t.dev.rd (R.PL_CFG.adr i) = v &&& 0xFFFFF3FF#32 ∧ t.dev.lstate i = lOff ∧ (t.dev.loop i).ctrl = [] ∧
        (st ≠ lOff → t.dev.flag (R.PL_EVT.state i) = true ∧ (4, i.val) ∈ t.dev.rcp.triggers) ∧
        RegsKept s t [R.PL_CFG.adr i, R.PL_STATE.adr i, R.PL_EVT.adr i] ∧ MemKept s t ∧ OnlyDev s t)) ∧
    (∀ (k : Fin 16) (v : Word),
      let free := d.loadOrService = true ∨ st = lOff ∨ st = lManual
      let writes := fun (n a : Nat) (w : Word) => free → k.val = n →
        ∃ t, exec (.plCoefWrite i k v) s = .next t ∧ RegWritten s t a w []
      let lo := signed 16 (bits v 15 0)
      let hi := signed 16 (bits v 31 16)
      (k.val < 7 ∨ 10 < k.val → ∃ t, exec (.plCoefWrite i k v) s = .next t ∧ t = s) ∧
      (7 ≤ k.val → k.val ≤ 10 → ¬ free → ∃ t, exec (.plCoefWrite i k v) s = .next t ∧
        EventRaised s t (R.PL_EVT.coef_rej i)) ∧
      (lo < hi → writes 7 (R.PL_LIM.adr i) v) ∧
      (hi ≤ lo → free → k.val = 7 → ∃ t, exec (.plCoefWrite i k v) s = .next t ∧
        FieldsSet s t [(R.PL_EVT.cfg_rej i, 1)]) ∧
      writes 8 (R.PL_KP.adr i) (v &&& 0x7FFFF#32) ∧ writes 9 (R.PL_KI.adr i) (v &&& 0x7FFFFFFF#32) ∧
      writes 10 (R.PL_KD.adr i) (v &&& 0x7FFFFFFF#32))

/-- RECIPE_START, RECIPE_HOLD, RECIPE_RESUME, RECIPE_ABORT and RECIPE_RESET: each from the states that the spec
gives it, and refused with its cause from any other. A started or resumed step stands in the plan two ticks on, one
whose guard fails with gfail 0 waits; a hold or abort retracts what is staged and ends, with a journal entry, once
nothing is left to judge (R390, R391, R392, R394, R406, R407, R408, R410, R419, R422). RESUME_JNL takes flags,
counters, layer, setpoints and the step from the journal entry of an idle recipe whose axes stand where it says,
and holds the recipe there; it is refused otherwise (R410, R421, R422). The model's own choices and readings in it:
log entries 3, 64. -/
def Obligations.RecipeControlsAndJournal : Prop :=
  (∀ (s : State) (r : Fin 64),
    let d := s.dev
    let x := d.recipe r
    let st := d.rstate r
    let refused := fun (c : Instr) (cause : Nat) => ∃ t, exec c s = .next t ∧ RecipeRefused s t r cause
    let block := fun (hi lo : Nat) => bits (nthW (d.rcpHdr r) 5) hi lo
    let planned := fun (k start : Nat) => Planned.mk k start (d.stepDur (d.stepRec r k)) true d.tick false false []
    (∀ k : Fin 4096,
      (d.rmode ≠ mRun ∨ st ≠ sIdle → refused (.recipeStart r k) 8) ∧
      (d.rmode = mRun → st = sIdle → d.rcpValid r k = false → refused (.recipeStart r k) 6) ∧
      (d.rmode = mRun → st = sIdle → d.rcpValid r k = true →
        ((d.stepRec r k).ng = 0 → ∃ t, exec (.recipeStart r k) s = .next t ∧ t.dev.rstate r = sRun ∧
          t.dev.fld (R.AT_RCP_STAT.step r) = k ∧ t.dev.rd (R.AT_RCP_ELAP.adr r) = 0 ∧
          (t.dev.recipe r).plan = [planned k (d.tick + 2)] ∧ (t.dev.recipe r).staged = x.staged ∧
          (3, r.val) ∈ t.dev.rcp.triggers ∧ RecipeOnly s t r []) ∧
        (let w := d.recWords (d.stepRec r k).cond
         (d.stepRec r k).ng = 1 → bits (nthW w 0) 31 24 = 0x70 →
          b2n (x.flags.getLsbD (bits (nthW w 0) 15 0)) ≠ sword (nthW w 1) → (d.stepRec r k).gfail = 0 →
          ∃ t, exec (.recipeStart r k) s = .next t ∧ t.dev.rstate r = sWait ∧
            (t.dev.recipe r).waitFor = some k.val ∧ (t.dev.recipe r).plan = [] ∧
            t.dev.flag (R.AT_RCP_EVT.guard_fail r) = true ∧ RecipeOnly s t r []))) ∧
    (st ≠ sRun → st ≠ sWait → refused (.recipeHold r) 8) ∧
    (st = sRun ∨ st = sWait → block 11 0 = 0xFFF → ∃ t, exec (.recipeHold r) s = .next t ∧
      t.dev.fld (R.AT_RCP_STAT.cause r) = 1 ∧ t.dev.flag (R.AT_RCP_EVT.hold r) = true ∧
      (t.dev.recipe r).plan = [] ∧ (t.dev.recipe r).waitFor = none ∧ (t.dev.recipe r).ramps = [] ∧
      t.dev.flag (R.AT_RCP_STAT.started r) = x.running.isSome ∧
      (∀ p, x.running = some p → t.dev.rd (R.AT_RCP_ELAP.adr r) = word (d.tick - p.start)) ∧
      (t.dev.recipe r).staged.length = x.staged.length ∧ (∀ e ∈ (t.dev.recipe r).staged, e.retr = true) ∧
      (x.staged = [] → t.dev.rstate r = sHeld ∧ Journaled t r 3 (t.dev.fld (R.AT_RCP_STAT.step r))) ∧
      (x.staged ≠ [] → t.dev.rstate r = sHolding) ∧ RecipeOnly s t r [R.AT_EVT.adr]) ∧
    (let held := st = sRun ∨ st = sWait ∨ st = sHolding ∨ st = sHeld
     (¬ held → refused (.recipeAbort r) 8) ∧
     (held → block 27 16 = 0xFFF → ∃ t, exec (.recipeAbort r) s = .next t ∧
      t.dev.fld (R.AT_RCP_STAT.cause r) = 1 ∧ t.dev.flag (R.AT_RCP_EVT.abort r) = true ∧
      (t.dev.recipe r).plan = [] ∧ (t.dev.recipe r).waitFor = none ∧ (t.dev.recipe r).ramps = [] ∧
      (t.dev.recipe r).staged.length = x.staged.length ∧ (∀ e ∈ (t.dev.recipe r).staged, e.retr = true) ∧
      (x.staged = [] → t.dev.rstate r = sAborted ∧ Journaled t r 4 (t.dev.fld (R.AT_RCP_STAT.step r))) ∧
      (x.staged ≠ [] → t.dev.rstate r = sAborting) ∧ RecipeOnly s t r [R.AT_EVT.adr])) ∧
    (st = sDone ∨ st = sAborted → ∃ t, exec (.recipeReset r) s = .next t ∧ t.dev.rstate r = sIdle ∧
      t.dev.recipe r = x ∧ BitsKept s t [R.AT_RCP_STAT.state r] ∧ RecipeOnly s t r []) ∧
    (st ≠ sDone → st ≠ sAborted → refused (.recipeReset r) 8) ∧
    (d.rmode ≠ mRun ∨ st ≠ sHeld → refused (.recipeResume r) 8) ∧
    (let k := d.fld (R.AT_RCP_STAT.step r)
     let goesOn := d.flag (R.AT_RCP_STAT.started r) = true ∧ (d.stepRec r k).reHold = true
     d.rmode = mRun → st = sHeld → (d.stepRec r k).ng = 0 →
      (¬ goesOn → ∃ t, exec (.recipeResume r) s = .next t ∧ t.dev.rstate r = sRun ∧
        (t.dev.recipe r).plan = x.plan ++ [planned k (d.tick + 2)] ∧ RecipeOnly s t r []) ∧
      (goesOn → ∃ t p, exec (.recipeResume r) s = .next t ∧ t.dev.rstate r = sRun ∧
        (t.dev.recipe r).plan = [p] ∧ p.step = k ∧ p.on = true ∧
        p.start = d.tick + 2 - (d.rd (R.AT_RCP_ELAP.adr r)).toNat ∧ RecipeOnly s t r []))) ∧
  (∀ (s : State) (r : Fin 64),
    let d := s.dev
    let st := d.rstate r
    let ws := d.peekWords (d.recCode (130560 + 8 * r)) 32
    let k := bits (nthW ws 0) 11 0
    let refused := fun (cause : Nat) => ∃ t, exec (.resumeJnl r) s = .next t ∧ RecipeRefused s t r cause
    let first := d.rmode = mRun ∧ st = sIdle ∧ d.flag (R.AT_RCP_STAT.jnl_valid r) = true
    (¬ first → refused 8) ∧ (first → d.rcpValid r k = false → refused 6) ∧
    (first → d.rcpValid r k = true →
      (d.jnlPosition r ws = none → refused 8) ∧ (d.jnlPosition r ws = some false → refused 7) ∧
      (d.jnlPosition r ws = some true → (∀ i, i < 4 → bits (nthW ws (24 + i)) 24 16 < 384) →
        ∃ t, exec (.resumeJnl r) s = .next t ∧ t.dev.rstate r = sHeld ∧ t.dev.fld (R.AT_RCP_STAT.step r) = k ∧
        t.dev.flag (R.AT_RCP_STAT.started r) = false ∧ t.dev.rd (R.AT_RCP_ELAP.adr r) = 0 ∧
        t.dev.rd (R.AT_RCP_LAYER.adr r) = nthW ws 5 ∧ (t.dev.recipe r).flags = nthW ws 6 ∧
        (∀ i, i < 4 → (t.dev.recipe r).cnts[i]? = some (sword (nthW ws (8 + i)))) ∧
        (∀ i, i < 4 → bit (nthW ws (24 + i)) 31 = true →
          (∀ j, i < j → j < 4 → bits (nthW ws (24 + j)) 24 16 ≠ bits (nthW ws (24 + i)) 24 16) →
          t.dev.fld (R.PL_SP.sp (bits (nthW ws (24 + i)) 24 16)) = bits (nthW ws (24 + i)) 15 0) ∧
        RecipeOnly s t r (R.AT_RCP_LAYER.adr r ::
          (List.range 4).map (fun i => R.PL_SP.adr (bits (nthW ws (24 + i)) 24 16))))))

/-- STEP_START starts the step planned for the tick, closes a layer, shows the step and journals it; SP_RAMP_STEP
writes the next setpoint of every ramp; RETRACTION_JUDGEMENT settles one retracted action and with the last one the
hold or abort; JOURNAL_COMMIT writes the oldest queued entry with the next sequence number and its CRC (R392, R396,
R403, R404, R406, R407, R418, R419). The model's own choices and readings in it: log entries 3, 9. -/
def Obligations.RecipeRuns : Prop :=
  ∀ (s : State) (r : Fin 64),
    let d := s.dev
    let x := d.recipe r
    let st := d.rstate r
    (st ≠ sRun ∨ (∀ p ∈ x.plan, p.on = true ∨ d.tick < p.start) →
      ∃ t, exec (.stepStart r) s = .next t ∧ t = s) ∧
    (∀ l1 p l2, st = sRun → x.plan = l1 ++ p :: l2 → (∀ q ∈ l1, q.on = true ∨ d.tick < q.start) → p.on = false →
      p.start ≤ d.tick → p.acted = true → p.step < 4096 →
      let layer := ∃ q, x.running = some q ∧ (d.stepRec r q.step).layer = true
      ∃ t, exec (.stepStart r) s = .next t ∧ t.dev.fld (R.AT_RCP_STAT.step r) = p.step ∧
        t.dev.flag (R.AT_RCP_STAT.started r) = true ∧ t.dev.rstate r = sRun ∧
        t.dev.rd (R.AT_RCP_ELAP.adr r) = word (d.tick - p.start) ∧
        t.dev.flag (R.AT_RCP_EVT.step r) = true ∧ (2, r.val) ∈ t.dev.rcp.triggers ∧
        (t.dev.recipe r).plan.head? = some { (p) with on := true, acted := true } ∧
        (layer → t.dev.rd (R.AT_RCP_LAYER.adr r) = d.rd (R.AT_RCP_LAYER.adr r) + 1 ∧ Journaled t r 2 p.step) ∧
        (¬ layer → t.dev.rd (R.AT_RCP_LAYER.adr r) = d.rd (R.AT_RCP_LAYER.adr r) ∧ Journaled t r 1 p.step) ∧
        RecipeOnly s t r [R.AT_RCP_LAYER.adr r, R.AT_EVT.adr]) ∧
    ((∀ y ∈ x.ramps, y.loop < 384) → (x.ramps.map (fun (y : Ramp) => y.loop)).Nodup →
      ∃ t, exec (.spRampStep r) s = .next t ∧
        (∀ y ∈ x.ramps, t.dev.fld (R.PL_SP.sp y.loop) =
          ((y.sp0 + (y.target - y.sp0) * (y.m + 1) / y.total) % 2 ^ 16).toNat) ∧
        (t.dev.recipe r).ramps =
          (x.ramps.filter (fun (y : Ramp) => decide (y.m + 1 < y.total))).map
            (fun (y : Ramp) => Ramp.mk y.loop y.sp0 y.target (y.m + 1) y.total) ∧
        BitsKept s t (x.ramps.map (fun (y : Ramp) => R.PL_SP.sp y.loop)) ∧
        (∀ q, q ≠ r.val → t.dev.recipe q = d.recipe q) ∧ MemKept s t ∧ OnlyDev s t) ∧
    (∀ id : Fin 32768,
      ((∀ e ∈ x.staged, e.retr = false ∨ e.id ≠ id.val) →
        ∃ t, exec (.retractionJudgement r id) s = .next t ∧ t = s) ∧
      (∀ l1 e l2, x.staged = l1 ++ e :: l2 → (∀ y ∈ l1, y.retr = false ∨ y.id ≠ id.val) → e.retr = true →
        e.id = id.val → (e.ack = some false ∨ e.comp = false ∨ (d.stepRec r e.step).comp = 0xFFF) →
        ∃ t, exec (.retractionJudgement r id) s = .next t ∧
          (t.dev.recipe r).staged = x.staged.filter (fun y => ! (y.retr && decide (y.id = id.val))) ∧
          (t.dev.recipe r).prevented = x.prevented ++ (if e.ack = some false then [e.act] else []) ∧
          (e.ack = none → t.dev.flag R.AT_EVT.retract_late = true ∧
            t.dev.flag (R.AT_RCP_EVT.retract_late r) = true) ∧ (id.val, d.tick) ∈ t.dev.rcp.usedIds ∧
          (let left := ∃ y ∈ x.staged, y.retr = true ∧ y.id ≠ id.val
           t.dev.rstate r = (if st = sHolding ∧ ¬ left then sHeld else if st = sAborting ∧ ¬ left then sAborted
             else st)) ∧ RecipeOnly s t r [R.AT_EVT.adr])) ∧
    (∀ ok : Bool, d.rcp.queue = [] → ∃ t, exec (.journalCommit ok) s = .next t ∧ t = s) ∧
    (∀ e rest, d.rcp.queue = e :: rest →
      (let n := d.nv.jnlSeq + 1
       let ws := (e.words.set 1 n).take 31
       ∃ t, exec (.journalCommit true) s = .next t ∧ t.dev.rcp.queue = rest ∧ t.dev.nv.jnlSeq = n ∧
        Sparse.find? t.dev.nv.journal (n.toNat % 4096) = some { words := ws ++ [crc32 (wordsBytes ws)] } ∧
        (∀ k, k ≠ n.toNat % 4096 → Sparse.find? t.dev.nv.journal k = Sparse.find? d.nv.journal k) ∧
        FieldsSet { (s) with dev := { s.dev with rcp := t.dev.rcp, nv := t.dev.nv } } t
          [(wholeReg R.AT_JNL_SEQ.adr, n.toNat)]) ∧
      (∃ t, exec (.journalCommit false) s = .next t ∧ t.dev.rcp.queue = rest ∧
        t.dev.flag R.AT_EVT.jnl_err = true ∧ t.dev.nv = d.nv ∧
        (d.ecc.queue.length < 16 → t.dev.ecc.queue.length = d.ecc.queue.length + 1) ∧
        RegsKept s t [R.AT_EVT.adr, R.ECC_LOG_STAT.adr] ∧ MemKept s t ∧ OnlyDev s t))

/-- The actions of a recipe, each taken by itself: a timed output is staged under the next action ID with the start
of the next planned step, of the running step, or two ticks on; a point, channel, setpoint, speed, flag or counter
is written; a loop, profile or list takes the same control as from the host; a signal is SIG's; and a rejected
action is recorded and, in RUN and WAIT, holds the recipe with cause 4 (R387, R395, R396, R397, R398, R400; that an
action row acts by itself: log entry 3). The model's own choices and readings in it: log entries 3, 29, 70. -/
def Obligations.RecipeActions : Prop :=
  ∀ (s : State) (r : Fin 64),
    let d := s.dev
    let x := d.recipe r
    let only := fun (c : Instr) (a : Nat) (w : Word) => ∃ t, exec c s = .next t ∧
      FieldsSet s t [(wholeReg a, w.toNat)]
    let rejects := fun (c : Instr) =>
      (d.rstate r ≠ sRun → d.rstate r ≠ sWait → ∃ t, exec c s = .next t ∧
        t.dev.flag (R.AT_RCP_EVT.act_rej r) = true ∧ t.dev.rcp = d.rcp ∧ MemKept s t ∧ OnlyDev s t) ∧
      (d.rstate r = sRun ∨ d.rstate r = sWait → bits (nthW (d.rcpHdr r) 5) 11 0 = 0xFFF → x.staged = [] →
        ∃ t, exec c s = .next t ∧ t.dev.flag (R.AT_RCP_EVT.act_rej r) = true ∧
        t.dev.rstate r = sHeld ∧ t.dev.fld (R.AT_RCP_STAT.cause r) = 4 ∧ MemKept s t ∧ OnlyDev s t)
    (∀ (stn output : Fin 256) (ofs : Word), ∃ t, exec (.actionTo r stn output ofs 0) s = .next t ∧ t = s) ∧
    (∀ (stn output : Fin 256) (ofs : Word) (act : Fin 4), act ≠ 0 → d.idUsed d.rcp.nextId = false →
      let base := match x.plan.find? (fun (p : Planned) => ! p.on), x.running with
        | some p, _ => (p.step, p.start)
        | none, some p => (p.step, p.start)
        | none, none => (d.fld (R.AT_RCP_STAT.step r), d.tick + 2)
      ∃ t e, exec (.actionTo r stn output ofs act) s = .next t ∧ (t.dev.recipe r).staged = x.staged ++ [e] ∧
        e.id = d.rcp.nextId ∧ e.step = base.1 ∧ e.stn = stn.val ∧ e.output = output.val ∧ e.kind = act.val ∧
        e.fire = base.2 * d.time.tickNs + ofs.toNat ∧ e.retr = false ∧
        t.dev.rcp.nextId = (if d.rcp.nextId = 0x6FFF then 1 else d.rcp.nextId + 1) ∧
        (d.rcp.nextId, d.tick) ∈ t.dev.rcp.usedIds ∧ (∀ q, q ≠ r.val → t.dev.recipe q = d.recipe q) ∧
        BitsKept s t [R.AT_RCP_STAT.staged r] ∧ MemKept s t ∧ OnlyDev s t) ∧
    (∀ (stn : Fin 256) (p : BitVec 16) (on : Bool),
      (d.stBlk stn 1 = none → ∃ t, exec (.actionDo r stn p on) s = .next t ∧ t = s) ∧
      (∀ o w first c, d.stBlk stn 1 = some (o, w, first) → first ≤ p.toNat → (p.toNat - first) / 32 < w →
        d.cmdCode? stn (o + (p.toNat - first) / 32) = some c →
        ∃ t, exec (.actionDo r stn p on) s = .next t ∧
        (∀ i, i < 32 → (t.dev.peekW c).getLsbD i =
          if i = (p.toNat - first) % 32 then on else (d.peekW c).getLsbD i) ∧
        (∀ k, k < c ∨ c + 4 ≤ k → t.dev.byteAt k = d.byteAt k) ∧
        RegsKept s t [R.ECC_INJ_CTRL.adr] ∧ OnlyDev s t)) ∧
    (∀ (stn : Fin 256) (p v : BitVec 16),
      (d.stBlk stn 2 = none → ∃ t, exec (.actionAo r stn p v) s = .next t ∧ t = s) ∧
      (∀ o w first c, d.stBlk stn 2 = some (o, w, first) → first ≤ p.toNat → (p.toNat - first) / 2 < w →
        d.cmdCode? stn (o + (p.toNat - first) / 2) = some c →
        let b := c + 2 * ((p.toNat - first) % 2)
        ∃ t, exec (.actionAo r stn p v) s = .next t ∧
        t.dev.byteAt b = v.extractLsb' 0 8 ∧ t.dev.byteAt (b + 1) = v.extractLsb' 8 8 ∧
        (∀ k, k < b ∨ b + 2 ≤ k → t.dev.byteAt k = d.byteAt k) ∧
        RegsKept s t [R.ECC_INJ_CTRL.adr] ∧ OnlyDev s t)) ∧
    (∀ (i : Fin 384) (ramp : Word) (v : BitVec 16), ∃ t, exec (.actionSp r i ramp v) s = .next t ∧
      (ramp = 0 → t.dev.fld (R.PL_SP.sp i) = v.toNat ∧
        (t.dev.recipe r).ramps = x.ramps.filter (fun (y : Ramp) => decide (y.loop ≠ i.val))) ∧
      (ramp ≠ 0 → t.dev.fld (R.PL_SP.sp i) = d.fld (R.PL_SP.sp i) ∧
        (t.dev.recipe r).ramps = x.ramps.filter (fun (y : Ramp) => decide (y.loop ≠ i.val)) ++
          [Ramp.mk i (d.sfld (R.PL_SP.sp i)) v.toInt 0 (d.ticksOfUs ramp.toNat)]) ∧
      (∀ q, q ≠ r.val → ∀ y ∈ (t.dev.recipe q).ramps, y.loop ≠ i.val) ∧ BitsKept s t [R.PL_SP.sp i] ∧
      MemKept s t ∧ OnlyDev s t) ∧
    (∀ (i : Fin 384) (auto : Bool),
      let c : LoopCtl := if auto = true then .auto else .manual
      (d.plCtlOk i c = true → ∃ t, exec (.actionLoop r i auto) s = .next t ∧
        t.dev.loop i = { (d.loop i) with ctrl := (d.loop i).ctrl ++ [c] } ∧
        (∀ k, k ≠ i.val → t.dev.loop k = d.loop k) ∧ { (t) with dev := { t.dev with loops := d.loops } } = s) ∧
      (d.plCtlOk i c = false → rejects (.actionLoop r i auto))) ∧
    (∀ (a : Fin 128),
      let p := d.prf a
      let sent := fun (c : Instr) (op : Nat) (tgt : Int) => ∃ t, exec c s = .next t ∧
        t.dev.prf a = { (p) with cmds := [PrfCmd.mk op tgt] } ∧ t.dev.fld (R.AX_PRF_STAT.res a) = 0 ∧
        BitsKept s t [R.AX_PRF_STAT.res a, R.AX_PRF_STAT.queued a] ∧
        { (t) with dev := { t.dev with regs := d.regs, prfs := d.prfs } } = s
      let ready := d.astate a = aEnabled ∧ d.fld (R.AX_REF.src a) = 0 ∧ p.cmds = []
      (ready → sent (.actionStop r a) 3 0) ∧ (p.cmds = [] → d.astate a ≠ aEnabled → rejects (.actionStop r a)) ∧
      (∀ (tgt : Word),
        (ready → d.rmode ≠ mHold → p.moving = false → d.prfZero a = false →
          sent (.actionMove r a tgt false) 1 tgt.toInt) ∧
        (∀ rel, ready → d.rmode ≠ mHold → p.moving = false → p.stopping = false → p.queue = [] →
          d.prfZero a = false → d.sfld (R.AX_PRF_POS.p_ref a) + tgt.toInt < 2 ^ 31 →
          -(2 ^ 31) ≤ d.sfld (R.AX_PRF_POS.p_ref a) + tgt.toInt →
          sent (.actionMove r a tgt rel) (if rel = true then 2 else 1) tgt.toInt) ∧
        (∀ rel, p.cmds = [] → d.astate a ≠ aEnabled ∨ d.fld (R.AX_REF.src a) ≠ 0 → rejects (.actionMove r a tgt rel))) ∧
      (∀ v, only (.actionSpd r a v) (R.AX_SPD_CMD.adr a) v)) ∧
    (∀ (l : Fin 16) (on : Bool),
      let w := d.rd (R.AX_CMP_CFG.adr l)
      let v := if on = true then w ||| 0x80000000#32 else w &&& 0x7FFFFFFF#32
      ((d.cmpCfgWr l v).2 = .ok 0 → ∃ t, exec (.actionArm r l on) s = .next t ∧
        t = { (s) with dev := (d.cmpCfgWr l v).1 }) ∧
      (d.flag (R.AX_CMP_CFG.arm l) = false → d.rmode ≠ mRun → d.rmode ≠ mHold → d.rmode ≠ mLoad →
        rejects (.actionArm r l true))) ∧
    (∀ (i : Fin 32) (on : Bool), ∃ t, exec (.actionFlag r i on) s = .next t ∧
      (∀ k, k < 32 → (t.dev.recipe r).flags.getLsbD k = if k = i.val then on else x.flags.getLsbD k) ∧
      { (t.dev.recipe r) with flags := x.flags } = x ∧ (∀ q, q ≠ r.val → t.dev.recipe q = d.recipe q) ∧
      { (t) with dev := { t.dev with rcp := d.rcp } } = s) ∧
    (∀ (c : Fin 4096), exec (.actionSig r c) s = exec (.sig 0 c 0) s) ∧
    (∀ (i : Fin 4) (v : Word) (add : Bool), x.cnts.length = 4 → ∃ t, exec (.actionCnt r i v add) s = .next t ∧
      (∀ k, k < 4 → (t.dev.recipe r).cnts.getD k 0 = if k = i.val then
        (if add = true then (BitVec.ofInt 32 (x.cnts.getD i 0 + v.toInt)).toInt else v.toInt) else x.cnts.getD k 0) ∧
      { (t.dev.recipe r) with cnts := x.cnts } = x ∧ (∀ q, q ≠ r.val → t.dev.recipe q = d.recipe q) ∧
      { (t) with dev := { t.dev with rcp := d.rcp } } = s)

/-- SAFE_INPUT_CHANGE, SAFE_INPUT_FILTERED, SF_DEM_STO, SF_DEM_SS1 and SAFETY_PDU_RX: levels, filtered states and
latched host demands are kept, a PDU is counted as bad or brings its inputs, and every zone in use meets the
demands that then stand (R428, R429, R430, R437, R438, R445, R447, R449). The model's own choices and readings in
it: log entry 15. -/
def Obligations.SafetyDemands : Prop :=
  ∀ (s : State),
    let d := s.dev
    (∀ level : Bool, (∃ t, exec (.safeInputChange false level) s = .next t ∧ t.dev.saf.ina.level = level ∧
        { (t) with dev := { t.dev with saf := { t.dev.saf with ina := { t.dev.saf.ina with level := d.saf.ina.level } } } } = s) ∧
      (∃ t, exec (.safeInputChange true level) s = .next t ∧ t.dev.saf.inb.level = level ∧
        { (t) with dev := { t.dev with saf := { t.dev.saf with inb := { t.dev.saf.inb with level := d.saf.inb.level } } } } = s)) ∧
    (∀ b : Bool,
      let fa := if b = true then d.saf.ina.filt else d.saf.ina.level
      let fb := if b = true then d.saf.inb.level else d.saf.inb.filt
      let anti := d.flag R.SF_IN_CFG.anti
      ∃ t, exec (.safeInputFiltered b) s = .next t ∧ t.dev.saf.ina.filt = fa ∧ t.dev.saf.inb.filt = fb ∧
        t.dev.flag R.SF_IN_STAT.a = fa ∧ t.dev.flag R.SF_IN_STAT.b = fb ∧
        t.dev.flag R.SF_IN_STAT.pair_st = (fa && (fb != anti)) ∧
        t.dev.flag R.SF_IN_STAT.disc = (d.flag R.SF_IN_STAT.disc && ! (! fa && (fb == anti))) ∧
        DemandsMet s t) ∧
    (∀ (mask : BitVec 16),
      (∃ t, exec (.sfDemSto mask) s = .next t ∧ DemandsMet s t ∧ ∀ z, z < 16 →
        (t.dev.zone z).hostSto = ((d.zone z).hostSto || (mask.getLsbD z && d.flag (R.SF_ZONE_CFG.en z))) ∧
        (t.dev.zone z).hostSs1 = (d.zone z).hostSs1) ∧
      (∃ t, exec (.sfDemSs1 mask) s = .next t ∧ DemandsMet s t ∧ ∀ z, z < 16 →
        (t.dev.zone z).hostSs1 = ((d.zone z).hostSs1 || (mask.getLsbD z && d.flag (R.SF_ZONE_CFG.en z))) ∧
        (t.dev.zone z).hostSto = (d.zone z).hostSto)) ∧
    (∀ (c : Fin 64) (p : List Word),
      let en := d.flag (R.SF_CONN_CFG.en c) = true
      let good := (d.head (d.fld (R.SF_CONN_CFG.stn c))).got = true ∧ d.easel.closed = false ∧
        d.pduValid c p 1 (d.fld (R.SF_CONN_CFG.wd c)) d.tick = true
      let io := d.fld (R.SF_CONN_CFG.kind c) = 1
      (¬ en → ∃ t, exec (.safetyPduRx c p) s = .next t ∧ t = s) ∧
      (en → ¬ good → ∃ t, exec (.safetyPduRx c p) s = .next t ∧ CountedOnce s t (R.SF_CONN_CNT.bad c) ∧
        t.dev.flag R.SF_EVT.pdu_bad = true ∧ BitsKept s t [R.SF_CONN_CNT.bad c, R.SF_EVT.pdu_bad] ∧
        MemKept s t ∧ OnlyDev s t) ∧
      (en → good → ∃ t, exec (.safetyPduRx c p) s = .next t ∧ t.dev.fld (R.SF_CONN_STAT.miss c) = 0 ∧
        t.dev.flag (R.SF_CONN_STAT.starting c) = false ∧
        t.dev.flag (R.SF_CONN_STAT.fail_in c) = bit (nthW p 0) 6 ∧ (t.dev.conn c).seen = true ∧
        (io → t.dev.fld (R.SF_CONN_STAT.in_st c) = bits (nthW p 2) 15 0) ∧
        (¬ io → t.dev.fld (R.SF_CONN_STAT.in_st c) = d.fld (R.SF_CONN_STAT.in_st c) ∧
          (t.dev.conn c).pos = nthW p 2) ∧
        (let z := d.fld (R.SF_CONN_CFG.zone c)
         let flt := io ∧ bits (nthW p 2) 31 16 &&& d.fld (R.SF_CONN_MAP.dem c) ≠ 0
         (bit (nthW p 0) 6 = true → ZoneFaulted s t z 3) ∧
         (bit (nthW p 0) 6 = false → flt → ZoneFaulted s t z 4) ∧
         (bit (nthW p 0) 6 = false → ¬ flt → DemandsMet s t)) ∧ DevOrHold s t))

/-- DISCREPANCY_TIMEOUT, PDU_WATCHDOG_EXPIRY, JOINING_RELEASE, SS1_TMAX_EXPIRY and SS1_STANDSTILL: what a zone
fault, a joining, and the end of SS1 do to zones and axes, and that each row changes nothing where its condition
does not hold (R429, R431, R434, R438, R447, R448). The model's own choices and readings in it: log entry 15. -/
def Obligations.SafetyZones : Prop :=
  ∀ (s : State),
    let d := s.dev
    (d.pairDisagrees = false → ∃ t, exec .discrepancyTimeout s = .next t ∧ t = s) ∧
    (d.pairDisagrees = true → ∃ t, exec .discrepancyTimeout s = .next t ∧ t.dev.flag R.SF_IN_STAT.disc = true ∧
      t.dev.flag R.SF_EVT.disc = true ∧ MemKept s t ∧ OnlyDev s t ∧ ∀ z, z < 16 →
        (d.flag (R.SF_ZONE_CFG.loc_a z) = true → ZoneFaulted s t z 5) ∧
        (d.flag (R.SF_ZONE_CFG.loc_a z) = false → t.dev.zstate z = d.zstate z)) ∧
    (∀ c : Fin 64,
      let expired := d.flag (R.SF_CONN_CFG.en c) = true ∧ d.flag (R.SF_CONN_STAT.starting c) = false ∧
        d.fld (R.SF_CONN_CFG.wd c) ≤ d.fld (R.SF_CONN_STAT.miss c)
      (¬ expired → ∃ t, exec (.pduWatchdogExpiry c) s = .next t ∧ t = s) ∧
      (expired → ∃ t, exec (.pduWatchdogExpiry c) s = .next t ∧ CountedOnce s t (R.SF_CONN_CNT.trips c) ∧
        t.dev.flag R.SF_EVT.wd = true ∧ ZoneFaulted s t (d.fld (R.SF_CONN_CFG.zone c)) 2 ∧
        (∀ z, z < 16 → z ≠ d.fld (R.SF_CONN_CFG.zone c) → t.dev.zstate z = d.zstate z) ∧
        MemKept s t ∧ OnlyDev s t)) ∧
    (∀ z : Fin 16,
      let joins := d.flag (R.SF_ZONE_CFG.en z) = true ∧ 1024 ≤ (d.zone z).join ∧ d.isTwin = true ∧
        d.zstate z = zSto ∧ (d.zone z).fresh = true ∧ d.demands z = [] ∧ d.zoneFaulty z = false ∧
        (∀ c ∈ d.zoneConns z, d.partnerGrants c = true) ∧ d.zoneStarting z = false
      (¬ joins → ∃ t, exec (.joiningRelease z) s = .next t ∧ t = s) ∧
      (joins → ∃ t, exec (.joiningRelease z) s = .next t ∧ ZoneIn t z zRun ∧
        (∀ y, y < 16 → y ≠ z.val → t.dev.zstate y = d.zstate y) ∧
        RegsKept s t [R.SF_ZONE_STAT.adr z, R.SF_OUT_STAT.adr] ∧ MemKept s t ∧ OnlyDev s t)) ∧
    (∀ a : Fin 128,
      let late := fun (z : Nat) => d.zoneCovers z a = true ∧ d.zstate z = zSs1 ∧
        d.fld (R.SF_ZONE_SS1B.t_max z) * 1000000 < (d.tick - (d.zone z).s) * d.time.tickNs
      let alone := ∃ m ∈ d.saf.mons, m.axis = a.val ∧ m.zone = none ∧
        d.fld (R.SF_ZONE_SS1B.t_max 0) * 1000000 < (d.tick - m.s) * d.time.tickNs
      (¬ (∃ z, z < 16 ∧ late z) → ¬ alone → ∃ t, exec (.ss1TmaxExpiry a) s = .next t ∧ t = s) ∧
      ((∃ z, z < 16 ∧ late z) ∨ alone → ∃ t, exec (.ss1TmaxExpiry a) s = .next t ∧
        t.dev.flag R.SF_EVT.ss1_sto = true ∧
        (∀ z, z < 16 → (late z → ZoneIn t z zSto) ∧ (¬ late z → t.dev.zstate z = d.zstate z)) ∧
        (alone → t.dev.astate a = aSafeOff ∧ (t.dev.ax a).stoCmd = true ∧
          ∀ m ∈ t.dev.saf.mons, ¬ (m.axis = a.val ∧ m.zone = none)) ∧ MemKept s t ∧ OnlyDev s t)) ∧
    (∀ a : Fin 128,
      let still := fun (m : Mon) => m.axis = a.val ∧ m.still = false ∧ d.flag (R.SF_AX_CFG.mon m.axis) = true ∧
        d.fld (R.SF_ZONE_SS1B.t_zero (m.zone.getD 0)) ≤ m.zeroRun
      ((∀ m ∈ d.saf.mons, ¬ still m) → ∃ t, exec (.ss1Standstill a) s = .next t ∧ t = s) ∧
      (∀ m ∈ d.saf.mons, still m → ∃ t, exec (.ss1Standstill a) s = .next t ∧ t.dev.astate a = aSafeOff ∧
        (t.dev.ax a).stoCmd = true ∧ (∀ k ∈ t.dev.saf.mons, k.axis = a.val → k.zone = none → k.still = false) ∧
        (∀ z, z < 16 →
          let ends := d.zstate z = zSs1 ∧ (∃ k ∈ d.saf.mons, k.zone = some z ∧ still k) ∧
            ∀ k ∈ d.saf.mons, k.zone = some z → k.still = true ∨ still k
          (ends → ZoneIn t z zSto) ∧ (¬ ends → t.dev.zstate z = d.zstate z)) ∧ MemKept s t ∧ OnlyDev s t))

/-- CHANNEL_COMPARE, READBACK_FAULT, SAFE_READBACK_CHANGE, TEST_PULSE, SAFETY_DIAGNOSTIC_TEST, SAFETY_RESET and
LOCKOUT_RETEST_DONE: a device fault with its cause, a test pulse counted or failed, a reset by its pulse length
that acts on its zones or starts the retest of a lock-out, and the end of the lock-out at the comparison that
follows a passed retest (R425, R430, R440, R441, R444, R449, R451, R452, R453, R569, R590). The model's own choices
and readings in it: log entry 62. -/
def Obligations.SafetyFaultsAndResets : Prop :=
  ∀ (s : State),
    let d := s.dev
    let rbOff := d.flag R.SF_OUT_STAT.sfb_hs ≠ d.flag R.SF_OUT_STAT.cmd_hs ∨
      d.flag R.SF_OUT_STAT.sfb_ls ≠ d.flag R.SF_OUT_STAT.cmd_ls
    let faults := fun (c : Instr) (cause : Nat) => ∃ t, exec c s = .next t ∧ DeviceFaulted s t cause
    let keeps := fun (c : Instr) => ∃ t, exec c s = .next t ∧ t = s
    let formed := fun (t : State) => t.dev.saf.pdusTick = some d.tick ∧
      t.dev.saf.pdus.map Prod.fst = (List.range 64).filter (fun c => d.flag (R.SF_CONN_CFG.en c))
    let resetTo := fun (t : State) (z : Nat) =>
      let clear := t.dev.demands z = [] ∧ t.dev.zoneStarting z = false
      (t.dev.zone z).hostSto = false ∧ (t.dev.zone z).hostSs1 = false ∧
      (d.zstate z = zLocked → t.dev.zoneFaulty z = false → clear → ZoneIn t z zRun) ∧
      (d.zstate z = zLocked → t.dev.zoneFaulty z = false → ¬ clear → ZoneIn t z zSto) ∧
      (d.zstate z = zLocked → t.dev.zoneFaulty z = true → t.dev.zstate z = zLocked) ∧
      (d.zstate z = zSto → clear → ZoneIn t z zRun) ∧
      (d.zstate z = zSto → ¬ clear → t.dev.zstate z = zSto ∧ t.dev.flag R.SF_EVT.rst_rej = true) ∧
      (d.zstate z ≠ zLocked → d.zstate z ≠ zSto → t.dev.zstate z = d.zstate z)
    (d.saf.retested = false → ∃ t, exec (.channelCompare true true) s = .next t ∧ formed t ∧
      { (t) with dev := { t.dev with saf := { t.dev.saf with pdus := d.saf.pdus, pdusTick := d.saf.pdusTick } } } = s) ∧
    (∀ ok, ∃ t, exec (.channelCompare false ok) s = .next t ∧ formed t ∧ DeviceFaulted s t 1 ∧
      t.dev.flag R.SF_EVT.xcmp = true) ∧
    (∃ t, exec (.channelCompare true false) s = .next t ∧ formed t ∧ DeviceFaulted s t 4) ∧
    (d.saf.retested = true → rbOff → ∃ t, exec (.channelCompare true true) s = .next t ∧ formed t ∧
      t.dev.saf.retested = false ∧ t.dev.flag R.SF_EVT.rst_rej = true ∧ BitsKept s t [R.SF_EVT.rst_rej] ∧
      MemKept s t ∧ OnlyDev s t) ∧
    (d.saf.retested = true → ¬ rbOff → ∃ t, exec (.channelCompare true true) s = .next t ∧ formed t ∧
      t.dev.flag R.SF_STAT.lockout = false ∧ t.dev.fld R.SF_STAT.lo_cause = 0 ∧ t.dev.saf.retested = false ∧
      t.dev.flag R.SF_EVT.rst_ok = true ∧
      (d.omode ≠ mLockout → t.dev.omode = d.omode) ∧
      (d.omode = mLockout → t.dev.omode = (if d.flag R.DEV_STAT.alarm_pend = true then mAlarm
        else if d.isTwin = true ∧ d.isActive = false ∧ d.twin.roleKnown = true then mShadow else mReady)) ∧
      (∀ z, z < 16 → d.flag (R.SF_ZONE_CFG.en z) = true → d.fld (R.SF_ZONE_CFG.rst_src z) = 0 → resetTo t z) ∧
      DevOrHold s t) ∧
    (∀ hs : Bool,
      let off := if hs = true then d.flag R.SF_OUT_STAT.sfb_hs ≠ d.flag R.SF_OUT_STAT.cmd_hs
        else d.flag R.SF_OUT_STAT.sfb_ls ≠ d.flag R.SF_OUT_STAT.cmd_ls
      let judged := off ∧ d.omode ≠ mReset ∧ d.omode ≠ mSelfTest ∧ d.omode ≠ mLoad
      (judged → ∃ t, exec (.readbackFault hs) s = .next t ∧ DeviceFaulted s t 3 ∧ t.dev.flag R.SF_EVT.rb = true) ∧
      (¬ judged → keeps (.readbackFault hs)) ∧
      (∀ level, ∃ t, exec (.safeReadbackChange hs level) s = .next t ∧
        FieldsSet s t [(if hs = true then R.SF_OUT_STAT.sfb_hs else R.SF_OUT_STAT.sfb_ls, b2n level)]) ∧
      (let runs := d.flag R.SF_OUT_CFG.tp_en = true ∧ d.pairOn = true ∧ d.saf.lsDue = ! hs
       (∀ ok, ¬ runs → keeps (.testPulse hs ok)) ∧
       (runs → ∃ t, exec (.testPulse hs true) s = .next t ∧ CountedOnce s t R.SF_OUT_STAT.tests ∧
         t.dev.saf.lsDue = hs ∧ BitsKept s t [R.SF_OUT_STAT.tests] ∧
         { (t) with dev := { t.dev with regs := d.regs, saf := { t.dev.saf with lsDue := d.saf.lsDue } } } = s) ∧
       (runs → faults (.testPulse hs false) 3))) ∧
    keeps (.safetyDiagnosticTest true) ∧ faults (.safetyDiagnosticTest false) 2 ∧
    (∀ ms,
      let rejected := fun (c : Instr) => ∃ t, exec c s = .next t ∧ EventRaised s t R.SF_EVT.rst_rej
      (ms < 100 ∨ 2000 < ms → rejected (.safetyReset none ms)) ∧
      (100 ≤ ms → ms ≤ 2000 → d.flag R.SF_STAT.lockout = true → ∃ t, exec (.safetyReset none ms) s = .next t ∧
        { (s) with dev := { d with saf := { d.saf with retest := true, retested := false, retestMs := ms } } } = t) ∧
      (100 ≤ ms → ms ≤ 2000 → d.flag R.SF_STAT.lockout = false → ∃ t, exec (.safetyReset none ms) s = .next t ∧
        (∀ z, z < 16 → d.flag (R.SF_ZONE_CFG.en z) = true → d.fld (R.SF_ZONE_CFG.rst_src z) = 0 → resetTo t z) ∧
        (∀ z, z < 16 → d.flag (R.SF_ZONE_CFG.en z) = false ∨ d.fld (R.SF_ZONE_CFG.rst_src z) ≠ 0 →
          t.dev.rd (R.SF_ZONE_STAT.adr z) = d.rd (R.SF_ZONE_STAT.adr z)) ∧ MemKept s t ∧ OnlyDev s t) ∧
      (∀ z : Fin 16,
        let own := d.flag (R.SF_ZONE_CFG.en z) = true ∧ d.fld (R.SF_ZONE_CFG.rst_src z) = 1
        (¬ own → keeps (.safetyReset (some z) ms)) ∧
        (own → ms < 100 ∨ 2000 < ms → rejected (.safetyReset (some z) ms)) ∧
        (own → 100 ≤ ms → ms ≤ 2000 → ∃ t, exec (.safetyReset (some z) ms) s = .next t ∧ resetTo t z ∧
          (∀ y, y < 16 → y ≠ z.val → t.dev.rd (R.SF_ZONE_STAT.adr y) = d.rd (R.SF_ZONE_STAT.adr y)) ∧
          MemKept s t ∧ OnlyDev s t))) ∧
    (∀ ok, d.saf.retest = false → keeps (.lockoutRetestDone ok)) ∧
    (d.saf.retest = true → ∀ ok, ∃ t, exec (.lockoutRetestDone ok) s = .next t ∧ t.dev.saf.retest = false ∧
      t.dev.saf.retested = ok ∧ (∀ p ∈ t.dev.ecc.flips, memId p.1 ≠ 15) ∧
      (∀ p ∈ d.ecc.flips, memId p.1 ≠ 15 → p ∈ t.dev.ecc.flips) ∧
      (ok = false → t.dev.flag R.SF_EVT.rst_rej = true) ∧ BitsKept s t [R.SF_EVT.rst_rej] ∧ MemKept s t ∧
      OnlyDev s t)

/-- TW_BLOCK_LOCK_GAIN, TW_BLOCK_LOCK_LOSS, TW_RESYNC, IDENT, RESYNC_REQ, RESYNC_DONE, RESYNC_PASS_END, RSYNC and
COPY: the identity check and its refusals, the resync with the pages that it writes, and the state copy as its
frames build it up (R471, R472, R473, R476, R486, R498). The model's own choices and readings in it: log entries
10, 44, 45. -/
def Obligations.TwinResyncAndCopy : Prop :=
  ∀ (s : State),
    let d := s.dev
    let z := d.twin
    let up := d.twUp = true
    let link := d.flag R.TW_STAT.link = true
    let standby := d.isStandby = true
    let keeps := fun (c : Instr) => ∃ t, exec c s = .next t ∧ t = s
    let me := Out.ident (d.lcWord R.TW_PAIR.adr) d.unitId (d.rd R.TW_CFG_CRC.adr)
    (d.isTwin = true → ¬ link → ∃ t, exec .twBlockLockGain s = .next t ∧ t.dev.flag R.TW_STAT.link = true ∧
      t.dev.twin.silent = 0 ∧ IdentStarted s t [me] ∧ Only s t [R.TW_STAT.adr, R.TW_PAIR.adr]) ∧
    (d.isTwin = false ∨ link → keeps .twBlockLockGain) ∧
    (up → ∃ t, exec .twResync s = .next t ∧ IdentStarted s t [me] ∧ Only s t [R.TW_STAT.adr, R.TW_PAIR.adr]) ∧
    (¬ up → keeps .twResync) ∧
    (link → ∃ t, exec .twBlockLockLoss s = .next t ∧ t.dev.flag R.TW_STAT.link = false ∧
      CountedOnce s t R.TW_LINK.lock ∧ t.dev.twin.resyncRun = false ∧ t.dev.twin.copyOn = false ∧
      t.dev.twin.copyDone = false ∧ t.dev.twin.copyBytes = [] ∧
      t.dev.tstate = (if d.tstate = tAlone ∨ (d.isActive = true ∧ z.lost = true) then tAlone else tDown) ∧
      Only s t [R.TW_STAT.adr, R.TW_LINK.adr]) ∧
    (¬ link → keeps .twBlockLockLoss) ∧
    (∀ (pair : Word) (unit : Bool) (crc : Word),
      let why := if pair ≠ d.rd R.TW_PAIR.adr then 1 else if b2n unit = d.unitId then 2
        else if crc ≠ d.rd R.TW_CFG_CRC.adr then 3 else 0
      (¬ up → keeps (.ident pair unit crc)) ∧
      (up → d.tstate ≠ tIdent → ∃ t, exec (.ident pair unit crc) s = .next t ∧ t.dev.rd R.TW_P_CFG_CRC.adr = crc ∧
        t.dev.twin = { (z) with frameNow := true } ∧ Only s t [R.TW_P_CFG_CRC.adr]) ∧
      (up → d.tstate = tIdent → why = 0 → ∃ t, exec (.ident pair unit crc) s = .next t ∧
        t.dev.rd R.TW_P_CFG_CRC.adr = crc ∧ t.dev.fld R.TW_RSYNC.reason = 0 ∧ t.dev.twin.identRx = true ∧
        (z.roleKnown = true → ResyncRuns s t) ∧
        (z.roleKnown = false → t.dev.tstate = tResync ∧ t.dev.twin.resyncRun = z.resyncRun) ∧
        Only s t [R.TW_P_CFG_CRC.adr, R.TW_RSYNC.adr, R.TW_STAT.adr, R.TW_EVT.adr]) ∧
      (up → d.tstate = tIdent → why ≠ 0 → ∃ t, exec (.ident pair unit crc) s = .next t ∧
        t.dev.rd R.TW_P_CFG_CRC.adr = crc ∧ t.dev.fld R.TW_RSYNC.reason = why ∧ t.dev.tstate = tRefused ∧
        t.dev.twin.sel = false ∧ t.dev.twin.copyOn = false ∧ TwinEvent s t R.TW_EVT.refused ∧
        TwinSent s t [.ctrl 5 why] ∧
        Only s t [R.TW_P_CFG_CRC.adr, R.TW_RSYNC.adr, R.TW_STAT.adr, R.TW_EVT.adr])) ∧
    (let asks := d.isActive = true ∧ up ∧ (d.tstate = tSynced ∨ d.tstate = tResync)
     (asks → ∃ t, exec .resyncReq s = .next t ∧ ResyncRuns s t ∧
       Only s t [R.TW_STAT.adr, R.TW_EVT.adr, R.TW_RSYNC.adr]) ∧ (¬ asks → keeps .resyncReq)) ∧
    (let done := up ∧ d.tstate = tResync ∧ standby
     (done → ∃ t, exec .resyncDone s = .next t ∧ FieldsSet { (s) with dev := { d with twin := t.dev.twin } } t
       [(R.TW_STAT.tstate, tSynced)] ∧ t.dev.twin.resyncRun = false ∧ t.dev.twin.sel = true) ∧
     (¬ done → keeps .resyncDone)) ∧
    (let ends := d.isActive = true ∧ up ∧ z.resyncRun = true ∧ z.dirty = []
     (ends → ∃ t, exec .resyncPassEnd s = .next t ∧ t.dev.tstate = tSynced ∧ t.dev.twin.resyncRun = false ∧
       t.dev.fld R.TW_RSYNC.pages_left = 0 ∧ t.dev.out = d.out ++ [.rsync 0 [] true true, .ctrl 4 0] ∧
       Only s t [R.TW_STAT.adr, R.TW_RSYNC.adr]) ∧ (¬ ends → keeps .resyncPassEnd)) ∧
    (∀ (page : Nat) (bs : List Byte) (last : Bool),
      let takes := up ∧ standby ∧ (d.tstate = tResync ∨ d.tstate = tSynced)
      let c := page * 4096
      (¬ takes → keeps (.rsync page bs last)) ∧
      (takes → ∃ t, exec (.rsync page bs last) s = .next t ∧
        (∀ i, page < 1536 → i < 4096 → i < bs.length → t.dev.byteAt (memCode 0 c + i) = bs.getD i 0) ∧
        (∀ k, k < memCode 0 c ∨ memCode 0 c + min 4096 bs.length ≤ k ∨ 1536 ≤ page →
          t.dev.byteAt k = d.byteAt k) ∧
        (last = true → t.dev.fld R.TW_RSYNC.pages_left = 0) ∧ RegsKept s t [R.TW_RSYNC.adr, R.ECC_INJ_CTRL.adr] ∧
        OnlyDev s t)) ∧
    (∀ (ofs : Nat) (bs : List Byte) (last : Bool) (crc : Word) (img : Option CopyImage),
      let takes := up ∧ standby ∧ z.copyOn = true ∧ bs.length ≤ 1024
      (¬ takes → keeps (.copy ofs bs last crc img)) ∧
      (takes → ∃ t, exec (.copy ofs bs last crc img) s = .next t ∧ t.dev.twin.frameNow = true ∧
        t.dev.twin.copyNext = ofs + bs.length ∧
        t.dev.twin.copyBytes = (if ofs = 0 then bs else z.copyBytes ++ bs) ∧
        (t.dev.twin.copyBad = true ↔ ofs ≠ 0 ∧ (z.copyBad = true ∨ ofs ≠ z.copyNext)) ∧
        (t.dev.twin.copyDone = true ↔ last = true ∧ t.dev.twin.copyBad = false ∧
          crc = crc32 t.dev.twin.copyBytes ∧ ∃ x, img = some x ∧ x.tick = d.tick) ∧
        t.dev.twin.copyImg = (if t.dev.twin.copyDone = true then img else none) ∧
        { (t) with dev := { t.dev with twin := z } } = s))

/-- TW_HB_RX, HANDOVER, REFUSE, TW_SWITCH, LINES_DEAD_HANDOVER, PRESENT_N_DEASSERT and LEAVING: what the partner's
heartbeat shows and decides, and how a handover begins, is refused and is completed (R462, R469, R471, R487, R489,
R490, R491, R492, R493, R579). HEALTH, HEALTH_REPORT, HEALTH_MISSING, TW_LINK_SILENCE, TW_FRAME_DISCARD and TIME:
the health words as they are sent, received and missed, a silent link, a spoiled frame counted, and the partner's
time measured (R47, R465, R466, R470, R481, R482, R486). The model's own choices and readings in it: log entries
39, 44. -/
def Obligations.TwinRolesAndLink : Prop :=
  (∀ (s : State),
    let d := s.dev
    let z := d.twin
    let up := d.twUp = true
    let own := d.fld R.TW_STAT.epoch
    let keeps := fun (c : Instr) => ∃ t, exec c s = .next t ∧ t = s
    let fair := d.isTwin = true ∧ d.isActive = true ∧ (d.rmode = mReady ∨ d.rmode = mRun ∨ d.rmode = mHold) ∧
      d.flag R.TW_CFG.sw_en = true ∧ d.flag R.TW_STAT.p_fit = true ∧ z.handover = none
    let dead := d.isTwin = true ∧ d.isActive = true ∧ 2 ≤ z.deadTicks ∧ d.flag R.TW_STAT.p_fit = true ∧ z.handover = none
    (∀ hb : Heartbeat,
      let listens := d.omode = mListen ∧ d.net.hstate = .listen ∧ d.linesOn = [] ∧ hb.lead = true
      let shown := fun (t : State) => t.dev.fld R.TW_STAT.pmode = hb.mode % 16 ∧
        t.dev.flag R.TW_STAT.p_fit = hb.fit ∧ t.dev.flag R.TW_STAT.leaving = hb.leaving ∧
        (d.time.numbered = true → hb.tick = word d.tick → d.easel.closed = false →
          t.dev.twin.hbNow = true ∧ t.dev.twin.lost = false) ∧
        (∀ l, l < 8 → (t.dev.line l).relayReq = hb.relReq.testBit l)
      (¬ up → keeps (.twHbRx hb)) ∧
      (up → hb.act = false → ∃ t, exec (.twHbRx hb) s = .next t ∧ shown t ∧
        (listens → t.dev.net.hstate = .follow ∧ t.dev.tick = hb.tick.toNat ∧ t.dev.time.numbered = true ∧
          t.dev.flag R.TIM_STAT.leads = false) ∧
        (¬ listens → Only s t [R.TW_STAT.adr]) ∧ MemKept s t ∧ OnlyDev s t) ∧
      (up → hb.act = true → ∃ t, exec (.twHbRx hb) s = .next t ∧ shown t ∧ OnlyDev s t ∧
        (z.roleWait = true → t.dev.flag R.TW_STAT.role = false ∧ t.dev.twin.roleKnown = true ∧
          t.dev.twin.roleWait = false ∧ t.dev.twin.pAct = true) ∧
        (z.roleWait = false → z.handover.isSome = true → d.isActive = false → d.omode ≠ mShadow →
          t.dev.omode = mShadow ∧ t.dev.fld R.TW_STAT.epoch = hb.epoch % 256 ∧ CountedOnce s t R.TW_CNT_SW.handover ∧
          t.dev.flag R.TW_EVT.handover = true ∧ t.dev.twin.handover = none ∧ t.dev.fld R.DEV_MODE.carried = d.omode) ∧
        (z.roleWait = false → ¬ listens → z.handover = none ∨ d.isActive = true →
          t.dev.twin.pAct = true ∧ t.dev.twin.pEpoch = hb.epoch ∧ t.dev.omode = d.omode ∧
          (let yields := d.isActive = true ∧ z.handover = none ∧ z.roleAt = none ∧
            (epochHigher hb.epoch own = true ∨ (d.unitId = 1 ∧ hb.epoch = own))
           (yields → t.dev.twin.roleAt = some (d.tick + 2, false, some hb.epoch) ∧
             CountedOnce s t R.TW_CNT_SW.demote ∧ t.dev.flag R.TW_EVT.demote = true) ∧
           (¬ yields → t.dev.twin.roleAt = z.roleAt ∧ Only s t [R.TW_STAT.adr]))))) ∧
    (∀ k, (up → d.isStandby = true → ∃ t, exec (.handover k) s = .next t ∧
        t.dev.twin = { (z) with frameNow := true, handover := some (extendTime d.tick (word k)) } ∧
        { (t) with dev := { t.dev with twin := z } } = s) ∧
      (¬ (up ∧ d.isStandby = true) → keeps (.handover k))) ∧
    (∀ r : Fin 8, (¬ up → keeps (.refuse r)) ∧
      (∀ k, up → z.handover = some k → d.omode ≠ mShadow → ∃ t, exec (.refuse r) s = .next t ∧
        TwinEvent s t R.TW_EVT.sw_rej ∧ t.dev.twin.handover = none ∧
        t.dev.twin.roleAt = some (k + 1, true, none) ∧ Only s t [R.TW_EVT.adr]) ∧
      (up → z.handover = none → r.val ≠ 0 → ∃ t, exec (.refuse r) s = .next t ∧ TwinEvent s t R.TW_EVT.refused ∧
        t.dev.fld R.TW_RSYNC.reason = 4 ∧ t.dev.tstate = tRefused ∧ t.dev.twin.copyOn = false ∧
        t.dev.twin.sel = false ∧ Only s t [R.TW_EVT.adr, R.TW_RSYNC.adr, R.TW_STAT.adr]) ∧
      (up → (z.handover.isSome = true ∧ d.omode = mShadow) ∨ (z.handover = none ∧ r.val = 0) →
        ∃ t, exec (.refuse r) s = .next t ∧ t = { (s) with dev := { d with twin := { (z) with frameNow := true } } })) ∧
    (fair → ∃ t, exec .twSwitch s = .next t ∧ HandoverStarted s t ∧ Only s t []) ∧
    (¬ fair → ∃ t, exec .twSwitch s = .next t ∧ EventRaised s t R.TW_EVT.sw_rej) ∧
    (dead → ∃ t, exec .linesDeadHandover s = .next t ∧ HandoverStarted s t ∧ Only s t []) ∧
    (¬ dead → keeps .linesDeadHandover) ∧
    (d.balls.presentN = true → keeps .presentNDeassert) ∧
    (d.balls.presentN = false → ∃ t, exec .presentNDeassert s = .next t ∧ t.dev.balls.presentN = true ∧
      t.dev.twin.present = some d.tick ∧ TwinEvent s t R.TW_EVT.present ∧
      (d.isActive = true → d.isTwin = true → z.lost = false → d.fld R.TW_STAT.pmode = mShadow →
        HandoverStarted s t) ∧
      (d.isActive = true → ¬ (d.isTwin = true ∧ z.lost = false ∧ d.fld R.TW_STAT.pmode = mShadow) →
        t.dev.twin.handover = z.handover ∧ t.dev.out = d.out) ∧
      (d.isStandby = true → t.dev.twin.leaving = true ∧ TwinSent s t [.ctrl 2 0]) ∧ Only s t [R.TW_EVT.adr]) ∧
    (up → d.isActive = true → ∃ t, exec .leaving s = .next t ∧ TwinEvent s t R.TW_EVT.p_leave ∧
      Only s t [R.TW_EVT.adr]) ∧
    (¬ (up ∧ d.isActive = true) → keeps .leaving)) ∧
  (∀ (s : State),
    let d := s.dev
    let z := d.twin
    let up := d.twUp = true
    let keeps := fun (c : Instr) => ∃ t, exec c s = .next t ∧ t = s
    (∀ w : Word, (¬ up → keeps (.health w)) ∧
      (up → ∃ t, exec (.health w) s = .next t ∧ t.dev.rd R.TW_PARTNER.adr = w ∧ t.dev.twin.healthMiss = 0 ∧
        (bit w 8 = true → Only s t [R.TW_PARTNER.adr]) ∧
        (bit w 8 = false → TwinEvent s t R.TW_EVT.health ∧ Only s t [R.TW_PARTNER.adr, R.TW_EVT.adr]))) ∧
    (let due := d.time.numbered = true ∧ d.tick % 1024 = 0
     (¬ due → keeps .healthReport) ∧
     (due → ∃ t w, exec .healthReport s = .next t ∧ t.dev.rd R.TW_HEALTH.adr = w ∧ TwinSent s t [.health w] ∧
       bits w 31 24 = z.lineLink % 256 ∧ bits w 15 11 = z.healthBits % 32 ∧
       bit w 10 = d.flag R.TW_STAT.fit ∧ (bit w 8 = true ↔ z.healthBits % 32 = 0) ∧
       bits w 7 0 = (bits (d.rd R.TW_HEALTH.adr) 7 0 + 1) % 256 ∧ t.dev.twin.healthBits = 0 ∧
       t.dev.twin.lineLink = 255 ∧ Only s t [R.TW_HEALTH.adr])) ∧
    (let miss := d.isTwin = true ∧ d.flag R.TW_STAT.hb = true ∧ 2048 ≤ z.healthMiss
     (¬ miss → keeps .healthMissing) ∧
     (miss → ∃ t, exec .healthMissing s = .next t ∧ TwinEvent s t R.TW_EVT.health ∧ t.dev.twin.healthMiss = 0 ∧
       Only s t [R.TW_EVT.adr])) ∧
    (let silent := d.isTwin = true ∧ 3 ≤ z.silent ∧ z.lost = false
     (¬ silent → keeps .twLinkSilence) ∧
     (silent → ∃ t, exec .twLinkSilence s = .next t ∧ TwinEvent s t R.TW_EVT.link_loss ∧
       t.dev.twin.copyOn = false ∧ t.dev.twin.resyncRun = false ∧
       (∀ l, l < 8 → (t.dev.line l).relay = false ∧ (t.dev.line l).relayReq = false ∧
         t.dev.flag (R.ML_STAT.relay l) = false) ∧
       Only s t (R.TW_EVT.adr :: (List.range 8).map R.ML_STAT.adr))) ∧
    (∀ r, ∃ t, exec (.twFrameDiscard r) s = .next t ∧ CountedOnce s t R.TW_LINK.crc ∧
      BitsKept s t [R.TW_LINK.crc] ∧ OnlyRegs s t) ∧
    (∀ (tx : Word) (txPs : Nat) (rx : Word) (rxPs ing : Nat),
      let i2 := ing - d.fld (R.TIM_PORT.ing_ps 8)
      (¬ up → keeps (.time tx txPs rx rxPs ing)) ∧
      (up → z.timeOut = none → ∃ t, exec (.time tx txPs rx rxPs ing) s = .next t ∧
        t = { (s) with dev := { d with twin := { (z) with frameNow := true, timeIn := some i2 } } }) ∧
      (∀ k e1, up → z.timeOut = some (k, e1) → k ≠ d.tick →
        let back : Int := (tx - rx).toInt * 1000 + txPs - rxPs
        let rtt : Int := (i2 : Int) - e1 - back
        let asym := d.sfld R.TW_TIME.asym_ps
        let ab := (rtt + asym) / 2
        let toUs := if d.unitId = 1 then ab else (rtt - asym) / 2
        let theta : Int := (BitVec.ofNat 32 (i2 / 1000) - tx).toInt - (toUs + txPs - (i2 % 1000 : Nat) + 500) / 1000
        ∃ t, exec (.time tx txPs rx rxPs ing) s = .next t ∧ t.dev.twin.timeIn = some i2 ∧
          t.dev.fld R.TW_TIME.dly = min 65535 (ab.toNat * 32 / 1000) ∧
          (d.flag R.TIM_STAT.leads = true → Only s t [R.TW_TIME.adr]) ∧
          (d.flag R.TIM_STAT.leads = false →
            t.dev.sfld R.TIM_DOM.dom_ofs = max (-32768) (min 32767 theta) ∧
            (d.fld R.TIM_DOM.dom_tol_ns < theta.natAbs → t.dev.flag R.TIM_STAT.dom_tol = true) ∧
            t.dev.time.domSeen = true ∧ (t.dev.time.rate - d.time.rate).natAbs ≤ 50000 ∧
            Only s t [R.TW_TIME.adr, R.TIM_DOM.adr, R.TIM_STAT.adr]))))

/-- STREAM_ACK, STREAM_DATAGRAM, STREAM_RESEND, STREAM_STALL and VN_OFS_LO_READ: which acknowledgements count, what
a datagram carries and how it moves the stream, a resend from ack, a stall, and the latch of the upper word for the
master that reads (R504, R505, R539, R540, R546, R628). SK_ARM, SK_DISARM, SK_FORCE and SK_RD_DATA_READ: when a
trace unit is armed and what it takes over, when an arm is rejected or without effect, how a disarm and a force
wait for the row, and a sample read with the address that moves on (R510, R513, R514, R515, R516). The model's own
choices and readings in it: log entries 3, 5. -/
def Obligations.RecordStreamAndSketchbook : Prop :=
  (∀ (s : State),
    let d := s.dev
    let v := d.vn
    let stall := d.flag R.VN_STAT.stall = true
    let keeps := fun (c : Instr) => ∃ t, exec c s = .next t ∧ t = s
    (∀ (k : Fin 4) (ack win : Nat),
      let mine := d.host.stream = none ∨ d.host.stream = some k.val
      let discards := ∃ t, exec (.streamAck k ack win) s = .next t ∧ CountedOnce s t R.HP_CNT.tag ∧
        BitsKept s t [R.HP_CNT.tag] ∧ OnlyRegs s t
      (d.session? k = none → discards) ∧
      (∀ x, d.session? k = some x →
        (¬ mine → discards) ∧
        (mine → ack < v.ack → keeps (.streamAck k ack win)) ∧
        (mine → v.ack ≤ ack → v.sent < ack → ∃ t, exec (.streamAck k ack win) s = .next t ∧
          FieldsSet s t [(R.VN_EVT.ack_bad, 1)]) ∧
        (mine → v.ack ≤ ack → ack ≤ v.sent → ∃ t, exec (.streamAck k ack win) s = .next t ∧
          t.dev.vn.ack = ack ∧ t.dev.rd R.VN_WIN.adr = word win ∧ t.dev.flag R.VN_STAT.stall = false ∧
          (stall → t.dev.vn.next = ack) ∧ (¬ stall → t.dev.vn.next = max v.next ack) ∧
          t.dev.vn.sent = v.sent ∧ t.dev.vn.ofs = v.ofs ∧ t.dev.rd R.VN_ACK_LO.adr = word ack ∧
          t.dev.host.stream = some k.val ∧ t.dev.host.streamAddr = x.srcAddr ∧
          t.dev.host.streamPort = x.srcPort ∧ t.dev.flag R.HP_STAT.stm = true ∧ t.dev.fld R.HP_STAT.stm_sess = k.val ∧
          Only s t [R.VN_WIN.adr, R.VN_STAT.adr, R.HP_STAT.adr, R.VN_FILL.adr, R.VN_OFS_LO.adr, R.VN_ACK_LO.adr]))) ∧
    (let n := d.fld R.VN_CFG.dgram * 64
     let lim := v.ack + (d.rd R.VN_WIN.adr).toNat
     let full := v.next + n ≤ v.ofs ∧ v.next + n ≤ lim
     let part := v.ofs < v.next + n ∧ v.next < v.mark ∧ v.mark ≤ lim
     let goes := fun (m : Nat) => ∀ (k : Nat) (x : Session), d.host.stream = some k → d.session? k = some x → ¬ stall →
       0 < m → (∀ i, i < m → d.flipAt (memCode 2 ((v.next + i) % memSize 2)) = 0) →
       ∃ t first, exec .streamDatagram s = .next t ∧
         t.dev.vn = { (v) with next := v.next + m, sent := max v.sent (v.next + m) } ∧
         t.dev.out = d.out ++ [sentTo x 0x20 0 (Response.mk 0x20 0 ([word v.next, word (v.next / 2 ^ 32),
           word (first * 65536 + m), word d.unitId] ++ bytesWords ((List.range m).map (fun i =>
             d.byteAt (memCode 2 ((v.next + i) % memSize 2)))))) d.host.streamAddr d.host.streamPort] ∧
         t.dev.session? k = some { (x) with seqOut := x.seqOut + 1 } ∧
         (∀ j, j ≠ k → t.dev.session? j = d.session? j) ∧ RegsKept s t [] ∧ MemKept s t ∧ OnlyDev s t
     (full → goes n) ∧ (part → goes (v.mark - v.next)) ∧
     (d.host.stream = none ∨ stall ∨ ¬ (full ∨ part) ∨ (full ∧ n = 0) → keeps .streamDatagram)) ∧
    (v.ack < v.sent → ∃ t, exec .streamResend s = .next t ∧ t.dev.vn = { (v) with next := v.ack } ∧
      CountedOnce s t R.VN_CNT_RTX.rtx ∧ BitsKept s t [R.VN_CNT_RTX.rtx] ∧
      { (t) with dev := { t.dev with regs := d.regs, vn := v } } = s) ∧
    (v.sent ≤ v.ack → keeps .streamResend) ∧
    (∃ t, exec .streamStall s = .next t ∧ FieldsSet s t [(R.VN_STAT.stall, 1), (R.VN_EVT.stall, 1)]) ∧
    (∀ m : Master,
      (∃ t, exec (.vnOfsLoRead m false) s = .next t ∧ masterGet t.dev.vn.ofsHi m = some (word (v.ofs / 2 ^ 32)) ∧
        (∀ m', m' ≠ m → masterGet t.dev.vn.ofsHi m' = masterGet v.ofsHi m') ∧
        { (t) with dev := { t.dev with vn := { t.dev.vn with ofsHi := v.ofsHi } } } = s) ∧
      (∃ t, exec (.vnOfsLoRead m true) s = .next t ∧ masterGet t.dev.vn.ackHi m = some (word (v.ack / 2 ^ 32)) ∧
        (∀ m', m' ≠ m → masterGet t.dev.vn.ackHi m' = masterGet v.ackHi m') ∧
        { (t) with dev := { t.dev with vn := { t.dev.vn with ackHi := v.ackHi } } } = s))) ∧
  (∀ (s : State),
    let d := s.dev
    (∀ u : Fin 8,
      let st := d.fld (R.SK_STAT.state u)
      let x := d.sk u
      let free := st = uIdle ∨ st = uDone ∨ x.disarm = true
      let live := st = uArmed ∨ st = uReady ∨ st = uPost
      let nch := d.fld (R.SK_CFG.nch_m1 u) + 1
      let rows := d.fld (R.SK_LEN.rows_m1 u) + 1
      let base := d.fld (R.SK_BASE.base u)
      let pre := d.fld (R.SK_LEN.pre u)
      let fits := base + nch * rows ≤ 524288 ∧ rows ≤ 65536 / nch ∧ pre < rows ∧
        ∀ k, k < 8 → k ≠ u.val → d.fld (R.SK_STAT.state k) ≠ uIdle →
          base + nch * rows ≤ (d.sk k).base ∨ (d.sk k).base + (d.sk k).rows * (d.sk k).nch ≤ base
      let others := fun (t : State) => (∀ k, k ≠ u.val → t.dev.sk k = d.sk k) ∧ MemKept s t ∧ OnlyDev s t
      (¬ free → ∃ t, exec (.skArm u) s = .next t ∧ t = s) ∧
      (free → ¬ fits → ∃ t, exec (.skArm u) s = .next t ∧ FieldsSet s t [(R.SK_EVT.rej u, 1)]) ∧
      (free → fits → ∃ t, exec (.skArm u) s = .next t ∧
        t.dev.fld (R.SK_STAT.state u) = (if pre = 0 then uReady else uArmed) ∧
        t.dev.fld (R.SK_STAT.rows u) = 0 ∧ t.dev.fld (R.SK_POS.oldest u) = 0 ∧
        t.dev.sk u = SkSt.mk nch (d.fld (R.SK_CFG.div_m1 u) + 1) base rows pre (d.rd (R.SK_TRIG.adr u))
          (d.rd (R.SK_THR.adr u)) ((List.range nch).map (fun c => d.rd (R.SK_CH.adr u c))) 0 0 none false false false ∧
        others t ∧ RegsKept s t [R.SK_STAT.adr u, R.SK_POS.adr u]) ∧
      (let waits := d.time.numbered = true ∧ d.easel.closed = false ∧ live
       (waits → ∃ t, exec (.skDisarm u) s = .next t ∧ t.dev.sk u = { (x) with disarm := true } ∧ others t ∧
         RegsKept s t []) ∧
       (¬ waits → ∃ t, exec (.skDisarm u) s = .next t ∧ t.dev.fld (R.SK_STAT.state u) = uIdle ∧
         BitsKept s t [R.SK_STAT.state u] ∧ t.dev.sk u = { (x) with disarm := false, force := false } ∧ others t)) ∧
      (st = uArmed ∨ st = uReady → ∃ t, exec (.skForce u) s = .next t ∧
        t.dev.sk u = { (x) with force := true } ∧ others t ∧ RegsKept s t []) ∧
      (¬ (st = uArmed ∨ st = uReady) → ∃ t, exec (.skForce u) s = .next t ∧ t = s)) ∧
    (∀ m : Master,
      let a := d.fld R.SK_RD_ADDR.val
      let c := memCode 3 (4 * a)
      ((∀ i, i < 4 → d.flipAt (c + i) = 0) → ∃ t, exec (.skRdDataRead m) s = .next t ∧
        t.dev.rd R.SK_RD_DATA.adr = word (bytesNat [d.byteAt c, d.byteAt (c + 1), d.byteAt (c + 2), d.byteAt (c + 3)]) ∧
        t.dev.fld R.SK_RD_ADDR.val = (a + 1) % 524288 ∧
        BitsKept s t [wholeReg R.SK_RD_DATA.adr, R.SK_RD_ADDR.val] ∧ OnlyRegs s t) ∧
      (∃ t, exec (.skRdDataRead m) s = .next t ∧ t.dev.fld R.SK_RD_ADDR.val = (a + 1) % 524288 ∧ OnlyDev s t)))

/-- SCRUB_ACCESS, ERROR_LOG_COMMIT, ECC_INJ_CTRL_WRITE and ECC_RET_WRITE: 32 bytes are scrubbed, a correctable byte
is written back and counted, an uncorrectable one is counted and left, the last bytes of the last memory end the
pass; the oldest queued entry goes to MRAM; injection and retirement are written only where their rules allow
(R519, R522, R525, R530, R531, R533). The model's own choices and readings in it: log entries 3, 11. -/
def Obligations.ScrubbingAndErrorLog : Prop :=
  ∀ (s : State),
    let d := s.dev
    let p := d.ecc.scrubPos
    let mem := memId p
    let inMem := memOfs p + 32 < memSize mem
    let after := if inMem then p + 32 else if mem < 15 then memCode (mem + 1) 0 else 0
    let pass := ¬ inMem ∧ 15 ≤ mem
    let bad := fun (c : Nat) => eccCheck (storedBits (d.byteAt c) ^^^ d.flipAt c)
    (∃ t, exec .scrubAccess s = .next t ∧ t.dev.ecc.scrubPos = after ∧ OnlyDev s t ∧
      (pass → t.dev.ecc.pages = [] ∧ t.dev.ecc.passStart = d.time.clock ∧
        t.dev.fld R.ECC_SCRUB.passes = (d.fld R.ECC_SCRUB.passes + 1) % 2 ^ R.ECC_SCRUB.passes.width ∧
        t.dev.fld R.ECC_SCRUB.last_ms = satN 16 ((d.time.clock - d.ecc.passStart) / 1000000))) ∧
    (¬ pass → (∀ i, i < 32 → d.flipAt (p + i) = 0) → ∃ t, exec .scrubAccess s = .next t ∧
      t = { (s) with dev := { d with ecc := { d.ecc with scrubPos := after } } }) ∧
    (∀ (j : Nat) (b : Byte), j < 32 → d.flipAt (p + j) ≠ 0 → bad (p + j) = .corrected b →
      (∀ i, i < 32 → i ≠ j → d.flipAt (p + i) = 0) → ∃ t, exec .scrubAccess s = .next t ∧
        t.dev.byteAt (p + j) = b ∧ t.dev.flipAt (p + j) = 0 ∧ (∀ c, c ≠ p + j → t.dev.byteAt c = d.byteAt c) ∧
        CountedOnce s t R.ECC_CNT.cor ∧ t.dev.flag R.ECC_EVT.cor = true ∧
        t.dev.rd R.ECC_LAST_ADDR.adr = word (p + j)) ∧
    (∀ (j : Nat), j < 32 → d.flipAt (p + j) ≠ 0 → bad (p + j) = .bad →
      (∀ i, i < 32 → i ≠ j → d.flipAt (p + i) = 0) → ∃ t, exec .scrubAccess s = .next t ∧
        (memId (p + j) ≠ 15 → MemKept s t) ∧ t.dev.flipAt (p + j) = d.flipAt (p + j) ∧
        CountedOnce s t R.ECC_CNT.scrub_unc ∧
        t.dev.flag R.ECC_EVT.scrub_unc = true ∧ t.dev.rd R.ECC_LAST_ADDR.adr = word (p + j) ∧
        (memId (p + j) = 15 → d.flag R.SF_STAT.lockout = false →
          t.dev.flag R.SF_STAT.lockout = true ∧ t.dev.fld R.SF_STAT.lo_cause = 5)) ∧
    (d.ecc.queue = [] → ∃ t, exec .errorLogCommit s = .next t ∧ t = s) ∧
    (∀ e rest, d.ecc.queue = e :: rest → ∃ t, exec .errorLogCommit s = .next t ∧ t.dev.ecc.queue = rest ∧
      t.dev.nv.logSeq = d.nv.logSeq + 1 ∧ t.dev.nv.logNext = (d.nv.logNext % 1024 + 1) % 1024 ∧
      t.dev.fld R.ECC_LOG_STAT.next = (d.nv.logNext % 1024 + 1) % 1024 ∧
      (∀ w, t.dev.logWord (d.nv.logNext % 1024) w = nthW (e.words (d.nv.logSeq + 1)) w) ∧
      BitsKept s t [R.ECC_LOG_STAT.next] ∧ MemKept s t ∧ OnlyDev s t) ∧
    (∀ v : Word,
      (d.rmode = mService → ∃ t, exec (.eccInjCtrlWrite v) s = .next t ∧
        FieldsSet s t [(wholeReg R.ECC_INJ_CTRL.adr, (v &&& 0x80001FFF#32).toNat)]) ∧
      (d.rmode ≠ mService → ∃ t, exec (.eccInjCtrlWrite v) s = .next t ∧ FieldsSet s t [(R.ECC_EVT.cfg_rej, 1)])) ∧
    (∀ (i : Fin 64) (v : Word),
      let m := bits v 19 16
      let pg := bits v 15 0
      let ok := d.loadOrService = true ∧ m ≤ 14 ∧ pg < memSize m / 4096 ∧ ∀ k, k < 64 → k ≠ i.val →
        ¬ (d.flag (R.ECC_RET.valid k) = true ∧ d.fld (R.ECC_RET.mem k) = m ∧ d.fld (R.ECC_RET.page k) = pg)
      (ok → ∃ t, exec (.eccRetWrite i v) s = .next t ∧
        FieldsSet s t [(wholeReg (R.ECC_RET.adr i), (v &&& 0x800FFFFF#32).toNat)]) ∧
      (¬ ok → ∃ t, exec (.eccRetWrite i v) s = .next t ∧ FieldsSet s t [(R.ECC_EVT.cfg_rej, 1)]))

/-- HOST_FRAME_RX, ARP_REQUEST, HOST_BLOCK_LOCK_LOSS and HOST_BLOCK_LOCK_GAIN: which frames count as discarded,
which messages are dropped, a well-formed PING and a message whose form is wrong as datagrams bring them, a WRITE
or CMD that waits for its tick, an ARP answer, and the link (R59, R535, R536, R538, R539, R540, R541, R542, R569).
The model's own choices and readings in it: log entries 13, 47. -/
def Obligations.HostFrames : Prop :=
  ∀ (s : State),
    let d := s.dev
    let up := d.hostUp = true ∧ d.host.link = true
    let keeps := fun (c : Instr) => ∃ t, exec c s = .next t ∧ t = s
    let counts := fun (c : Instr) (f : Fld) => ∃ t, exec c s = .next t ∧ CountedOnce s t f ∧ BitsKept s t [f] ∧ OnlyRegs s t
    (∀ f : HostFrame,
      let own := if f.type = 0x21 then bits (nthW d.host.cfg 4) 31 16 else bits (nthW d.host.cfg 4) 15 0
      let mine := f.ver = 1 ∧ f.dstPort.toNat = own
      let named := fun (k : Nat) (x : Session) => k < 4 ∧ d.session? k = some x ∧ x.sid = f.sid ∧
        ∀ j y, j < k → d.session? j = some y → y.sid ≠ f.sid
      let genuine := fun (x : Session) =>
        f.tag = shpTag x.kIn f.type f.sid f.seq f.req 0 f.words ∧ x.seqIn < f.seq
      let took := fun (x : Session) => { (touched s x) with seqIn := f.seq, srcAddr := f.src, srcPort := f.srcPort }
      let formed := f.clean = true ∧ f.len = 4 * f.words.length
      (¬ up → keeps (.hostFrameRx f)) ∧
      (up → ¬ FrameAccepted s f → counts (.hostFrameRx f) R.HP_CNT.frame) ∧
      (up → FrameAccepted s f → ¬ mine → keeps (.hostFrameRx f)) ∧
      (up → FrameAccepted s f → mine → f.type = 0x01 → f.req = 0 → f.sid = 0 → f.clean = true → f.len = 20 →
        f.words.length = 5 → bits (nthW f.words 0) 31 16 = 0 →
        exec (.hostFrameRx f) s = exec (.hello (bits (nthW f.words 0) 7 0) (bits (nthW f.words 0) 15 8)
          ((wordsBytes (f.words.drop 1)).take 16) f.src f.srcPort) s) ∧
      (up → FrameAccepted s f → mine → f.type ≠ 0x01 → f.type ≠ 0x03 →
        ((∀ k x, k < 4 → d.session? k = some x → x.sid ≠ f.sid) → counts (.hostFrameRx f) R.HP_CNT.tag) ∧
        (∀ k x, named k x → ¬ genuine x → counts (.hostFrameRx f) R.HP_CNT.tag) ∧
        (∀ k x, named k x → genuine x → FreshRequest s k f.req x → f.type = 0x06 → formed → f.words = [] →
          ∃ t, exec (.hostFrameRx f) s = .next t ∧ AnsweredOnly s t k (took x) f.req (Response.mk 0x86 0 []) []) ∧
        (∀ k x, named k x → genuine x → FreshRequest s k f.req x → f.type ≠ 0x21 → ¬ formed →
          ∃ t, exec (.hostFrameRx f) s = .next t ∧
            AnsweredOnly s t k (took x) f.req (Response.mk ((f.type + 0x80) % 256) 1 []) []) ∧
        (∀ k x, named k x → genuine x → FreshRequest s k f.req x → f.type = 0x11 ∨ f.type = 0x12 → formed →
          d.time.numbered = true → (∀ m ∈ d.host.inbox, ¬ (m.sess = k ∧ m.req = f.req)) →
          ∃ t b, exec (.hostFrameRx f) s = .next t ∧ t.dev.host.inbox = d.host.inbox ++ [HostMsg.mk k f.req b] ∧
            (f.type = 0x12 → b = .cmd f.words) ∧ t.dev.session? k = some (took x) ∧ t.dev.out = d.out ∧ Only s t []) ∧
        (∀ k x r, named k x → genuine x → f.type ≠ 0x21 → d.keptFor k f.req = some r →
          ∃ t, exec (.hostFrameRx f) s = .next t ∧
            t.dev.out = d.out ++ [sentTo (took x) r.type f.req r f.src f.srcPort] ∧
            t.dev.session? k = some { (took x) with seqOut := x.seqOut + 1 } ∧ Only s t []))) ∧
    (∀ target : Word,
      (up → target = nthW d.host.cfg 1 → ∃ t, exec (.arpRequest target) s = .next t ∧
        t = { (s) with dev := { d with out := d.out ++ [.arpReply target] } }) ∧
      (¬ (up ∧ target = nthW d.host.cfg 1) → keeps (.arpRequest target))) ∧
    (d.host.link = false → keeps .hostBlockLockLoss) ∧
    (d.host.link = true → ∃ t, exec .hostBlockLockLoss s = .next t ∧ t.dev.host = { (d.host) with link := false } ∧
      t.dev.flag R.HP_STAT.link = false ∧ t.dev.flag R.HP_EVT.link_loss = true ∧
      BitsKept s t [R.HP_STAT.link, R.HP_EVT.link_loss] ∧ MemKept s t ∧ OnlyDev s t) ∧
    (d.omode = mReset ∨ d.omode = mSelfTest → keeps .hostBlockLockGain) ∧
    (d.omode ≠ mReset → d.omode ≠ mSelfTest → ∃ t, exec .hostBlockLockGain s = .next t ∧
      t.dev.host = { (d.host) with link := true } ∧ t.dev.flag R.HP_STAT.link = true ∧
      BitsKept s t [R.HP_STAT.link] ∧ MemKept s t ∧ OnlyDev s t)

/-- HELLO, AUTH, CLOSE, CHALLENGE_TIMEOUT and SESSION_IDLE_TIMEOUT: who gets a challenge, which AUTH opens a
session and which counts as a failure, and how a session ends; every step keeps the port's four sessions (R536,
R539, R543, R544, R545, R546, R559, R565, R567). The model's own choices and readings in it: log entries 47, 48,
49. -/
def Obligations.Sessions : Prop :=
  (∀ s t : State, HostOk s → step s = .next t → HostOk t) ∧ HostOk State.reset ∧
  ∀ (s : State),
    let d := s.dev
    let h := d.host
    let up := d.hostUp = true
    let keeps := fun (c : Instr) => ∃ t, exec c s = .next t ∧ t = s
    let gone := fun (t : State) (k : Nat) (x : Session) => t.dev.session? k = none ∧
      (∀ j, j ≠ k → t.dev.session? j = d.session? j) ∧ (∀ m ∈ t.dev.host.inbox, m.sess ≠ k) ∧
      t.dev.host.stream = (if h.stream = some k then none else h.stream) ∧
      (x.kind = 0 → t.dev.store = d.store) ∧
      (x.kind ≠ 0 → t.dev.store.stRegs = [] ∧ t.dev.store.stKeys = [] ∧ t.dev.flag R.NV_STAT.lc_stage = false) ∧
      MemKept s t ∧ OnlyDev s t
    (∀ (slot kind : Nat) (nonce : List Byte) (src : Word) (port : BitVec 16),
      let prov := (d.keySlot slot).prov = true
      let openNow := (h.sessions.filter Option.isSome).length
      let granted := 1 ≤ slot ∧ slot ≤ 7 ∧ kind ≤ 2 ∧ h.erasedBoot = false ∧
        (d.flag R.SEC_STAT.boot = true ↔ kind = 2) ∧ (kind ≠ 2 → prov) ∧ openNow < 4 ∧
        (kind = 1 → d.rmode = mService ∧ (d.keySlot slot).priv = 3 ∧ ∀ x, some x ∈ h.sessions → x.kind ≠ 1)
      let fails := 1 ≤ slot ∧ slot ≤ 7 ∧ kind < 2 ∧ d.flag R.SEC_STAT.boot = false ∧ ¬ prov
      (¬ up → keeps (.hello slot kind nonce src port)) ∧
      (up → granted → ∃ (t : State) (sid : Word) (dn : List Byte), exec (.hello slot kind nonce src port) s = .next t ∧
        dn.length = 16 ∧ (d.sidsUsed.length + 2 ≤ 2 ^ 32 → sid ≠ 0 ∧ sid ∉ d.sidsUsed) ∧
        t.dev.out = d.out ++ [.shp sid 0x02 0 0 0 ([word d.unitId, Config.serial] ++ bytesWords dn) [] src port] ∧
        t.dev.host = { (h) with challenges := h.challenges ++
          [Challenge.mk sid slot kind nonce dn d.time.clock src port] } ∧ Only s t []) ∧
      (up → ¬ granted → ∃ (t : State) (why : Nat) (l : List Out) (ws : List Word),
        exec (.hello slot kind nonce src port) s = .next t ∧ (why = 2 ∨ (why = 3 ∧ kind = 1 ∧ d.rmode ≠ mService)) ∧
        t.dev.out = l ++ [.shp 0 0x02 0 0 why ws [] src port] ∧ (fails → t.dev.flag R.HP_EVT.auth_fail = true) ∧
        (¬ fails → l = d.out ∧ t.dev.host = h ∧ Only s t []) ∧ DevOrHold s t)) ∧
    (∀ (sid : Word) (seq : Nat) (hn dn tag : List Byte),
      let counted := fun (c : Instr) => ∃ t, exec c s = .next t ∧ CountedOnce s t R.HP_CNT.tag ∧
        BitsKept s t [R.HP_CNT.tag] ∧ OnlyRegs s t
      (¬ up → keeps (.auth sid seq hn dn tag)) ∧
      (up → (∀ c ∈ h.challenges, c.sid ≠ sid) → counted (.auth sid seq hn dn tag)) ∧
      (∀ (c : Challenge) (l1 l2 : List Challenge), h.challenges = l1 ++ c :: l2 → c.sid = sid →
        (∀ q ∈ l1, q.sid ≠ sid) → up →
        let key := if c.kind = 2 then Config.bootKey else (d.keySlot c.slot).key
        let ks := hkdf key (c.hostNonce ++ c.devNonce)
          (ascii "SHP1" ++ wordBytes c.sid ++ natBytes 1 c.slot ++ natBytes 1 c.kind)
        let good := tag = shpTag (ks.take 32) 0x03 sid seq 0 0 (bytesWords (hn ++ dn))
        let fresh := seq ≠ 0 ∧ hn = c.hostNonce ∧ dn = c.devNonce
        let priv := if c.kind = 2 then 0 else (d.keySlot c.slot).priv
        let why := d.helloWhy c.slot c.kind
        let left := h.challenges.filter (fun q => q.sid ≠ sid)
        let words := [word (bits (nthW h.cfg 0) 31 16 * 65536 + priv)]
        let sent := Out.shp sid 0x04 1 0 why words (shpTag ((ks.drop 32).take 32) 0x04 sid 1 0 why words)
          c.srcAddr c.srcPort
        (¬ good → ∃ t, exec (.auth sid seq hn dn tag) s = .next t ∧ CountedOnce s t R.HP_CNT.tag ∧
          t.dev.flag R.HP_EVT.auth_fail = true ∧ DevOrHold s t) ∧
        (good → ¬ fresh → counted (.auth sid seq hn dn tag)) ∧
        (good → fresh → why ≠ 0 → ∃ t, exec (.auth sid seq hn dn tag) s = .next t ∧ t.dev.out = d.out ++ [sent] ∧
          t.dev.host = { (h) with challenges := left } ∧ Only s t []) ∧
        (good → fresh → why = 0 → HostOk s → ∃ t k, exec (.auth sid seq hn dn tag) s = .next t ∧
          k < 4 ∧ d.session? k = none ∧ t.dev.out = d.out ++ [sent] ∧ t.dev.host.challenges = left ∧
          t.dev.session? k = some (Session.mk c.kind c.slot priv sid (ks.take 32) ((ks.drop 32).take 32) (ks.drop 64)
            seq 1 d.time.clock [] c.srcAddr c.srcPort) ∧
          (∀ j, j ≠ k → t.dev.session? j = d.session? j) ∧
          t.dev.flag (R.HP_SESS.open_ k) = true ∧
          Only s t (R.HP_STAT.adr :: (List.range 4).map R.HP_SESS.adr)))) ∧
    (∀ k : Fin 4,
      (d.session? k = none → keeps (.close k) ∧ keeps (.sessionIdleTimeout k)) ∧
      (∀ x, d.session? k = some x →
        (∃ t, exec (.close k) s = .next t ∧ gone t k x ∧
          t.dev.out = d.out ++ [sentTo x 0x85 0 (Response.mk 0x85 0 []) x.srcAddr x.srcPort]) ∧
        (∃ t, exec (.sessionIdleTimeout k) s = .next t ∧ gone t k x ∧ t.dev.flag R.HP_EVT.close = true ∧
          t.dev.out = d.out))) ∧
    (∀ sid : Word, ∃ t, exec (.challengeTimeout sid) s = .next t ∧ t = { (s) with dev := { d with
      host := { (h) with challenges := h.challenges.filter (fun c => c.sid ≠ sid) } } })

/-- Every request of a session is executed once: without the session nothing happens; a request whose response is
kept gets that response again under a new seq, and a STORE or COMMIT_LC that runs is not begun anew. PING, READ,
WRITE and REGISTER_WRITE: what a read of plain registers answers, which reads and writes are turned away, how
guards are judged, and what a plain register holds after a write (R5, R10, R40, R477, R538, R541, R542, R547, R549,
R550). The model's own choices and readings in it: log entries 47, 50, 51. -/
def Obligations.HostRequests : Prop :=
  (∀ (s : State) (k : Fin 4) (req : Word) (c : Instr),
    (c = .ping k ∧ req = 0) ∨ (∃ rs, c = .read k req rs) ∨ (∃ es, c = .write k req es) ∨ c = .store k req ∨
    c = .commitLc k req ∨ c = .discardLc k req ∨ (∃ a p w, c = .provision k req a p w) ∨ c = .goRun k req ∨
    c = .goHold k req ∨ c = .goResume k req ∨ c = .goReady k req ∨ c = .goStop k req ∨ c = .goService k req ∨
    c = .svcExit k req ∨ c = .restart k req ∨ c = .alarmExit k req ∨ c = .reset k req →
    (s.dev.session? k = none → ∃ t, exec c s = .next t ∧ t = s) ∧
    (∀ x, s.dev.session? k = some x →
      (∀ r, s.dev.keptFor k req = some r → ∃ t, exec c s = .next t ∧
        t.dev.out = s.dev.out ++ [sentTo x r.type req r x.srcAddr x.srcPort] ∧
        t.dev.session? k = some { (touched s x) with seqOut := x.seqOut + 1 } ∧ Only s t []) ∧
      (s.dev.keptFor k req = none → s.dev.stillRuns x.sid req = true → ∃ t, exec c s = .next t ∧
        t.dev.out = s.dev.out ∧ t.dev.session? k = some (touched s x) ∧ Only s t []))) ∧
  (∀ (s : State) (k : Fin 4) (req : Word) (x : Session), FreshRequest s k req x →
    let d := s.dev.touch k
    let y := touched s x
    let plain := fun (a : Nat) (r : RegAt) => locate a = some r ∧ r.row.name ∉ [RegName.TIM_NOW_LO, .TIM_NOW_HI,
      .VN_OFS_LO, .VN_OFS_HI, .VN_ACK_LO, .VN_ACK_HI, .BR_PM_DATA, .SK_RD_DATA]
    (req = 0 → ∃ t, exec (.ping k) s = .next t ∧ AnsweredOnly s t k y 0 (Response.mk 0x86 0 []) []) ∧
    (∀ rs : List (Word × Nat),
      let addrs := rangeAddrs rs
      let forms := 1 ≤ rs.length ∧ rs.length ≤ 16 ∧ (∀ p ∈ rs, bits p.1 1 0 = 0 ∧ 1 ≤ p.2) ∧
        (rs.map Prod.snd).sum ≤ 256
      let may := x.kind ≠ 2 ∨ ∀ a ∈ addrs, 0xA1000 ≤ a ∧ a < 0xC0000
      (¬ forms → ∃ t, exec (.read k req rs) s = .next t ∧ AnsweredOnly s t k y req (Response.mk 0x90 1 []) []) ∧
      (forms → ¬ may → ∃ t, exec (.read k req rs) s = .next t ∧
        AnsweredOnly s t k y req (Response.mk 0x90 2 []) []) ∧
      (∀ ws : List Word, forms → may → ws.length = addrs.length →
        (∀ i, i < addrs.length → ∃ r, plain (addrs.getD i 0) r ∧ ws.getD i 0 = d.plainWord r (addrs.getD i 0)) →
        ∃ t, exec (.read k req rs) s = .next t ∧ AnsweredOnly s t k y req
          (Response.mk 0x90 0 ([word d.tick, word (d.tick / 2 ^ 32)] ++ ws)) []) ∧
      (forms → may → (∃ a ∈ addrs, locate a = none ∧ windowCode a = none) → ∃ t, exec (.read k req rs) s = .next t ∧
        Answered s t k y req (Response.mk 0x90 10 []))) ∧
    (∀ es : List WEntry,
      let why := d.writeWhy k es
      (why = 1 ∨ why = 2 → ∃ t, exec (.write k req es) s = .next t ∧
        AnsweredOnly s t k y req (Response.mk 0x91 why []) [] ∧ t.dev.evts = s.dev.evts) ∧
      (2 < why → ∃ t, exec (.write k req es) s = .next t ∧ AnsweredOnly s t k y req (Response.mk 0x91 why []) [] ∧
        t.dev.evts.length = s.dev.evts.length + 1) ∧
      (∀ (g w : WEntry) (r q : RegAt), es = [g, w] → why = 0 → g.op = 1 → w.op = 0 → plain g.adr r → plain w.adr q →
        d.plainWord r g.adr &&& g.mask ≠ g.value → ∃ t, exec (.write k req es) s = .next t ∧
          AnsweredOnly s t k y req (Response.mk 0x91 5
            [2, d.plainWord r g.adr, 4, d.plainWord q w.adr]) []) ∧
      (∀ (g : WEntry) (r : RegAt), es = [g] → why = 0 → g.op = 1 → plain g.adr r →
        d.plainWord r g.adr &&& g.mask = g.value → ∃ t, exec (.write k req es) s = .next t ∧
          AnsweredOnly s t k y req (Response.mk 0x91 0 [1, d.plainWord r g.adr]) []) ∧
      (∀ (w : WEntry), es = [w] → why = 0 → w.op = 0 → w.adr = R.AX_PLAUS.adr 5 →
        let nv := merge (d.rd w.adr) w.value (w.mask &&& accMask w.adr .RW)
        ((R.AX_PLAUS.n 5).get nv = 0 → ∃ t, exec (.write k req es) s = .next t ∧
          AnsweredOnly s t k y req (Response.mk 0x91 0 [3, d.rd w.adr]) [R.AX_EVT.adr 5] ∧
          t.dev.flag (R.AX_EVT.cfg_rej 5) = true) ∧
        ((R.AX_PLAUS.n 5).get nv ≠ 0 → ∃ t, exec (.write k req es) s = .next t ∧ t.dev.rd w.adr = nv ∧
          Answered s t k y req (Response.mk 0x91 0 [0, nv]) ∧ RegsKept s t [w.adr] ∧ MemKept s t ∧ OnlyDev s t)))) ∧
  (∀ (s : State) (by_ : Actor) (addr v mask : Word),
    let d := s.dev
    let acts := match by_ with
      | .firmware _ => True
      | .session k => (d.session? k).isSome = true ∧ d.writeWhy k [WEntry.mk addr v mask] = 0 ∧ bits addr 1 0 = 0
    let a := addr.toNat
    (¬ acts → (∀ m, by_ ≠ .firmware m) → bits addr 1 0 = 0 → ∃ t, exec (.registerWrite by_ addr v mask) s = .next t ∧
      t = s) ∧
    (acts → locate a = none → windowCode a = none → ∃ t, exec (.registerWrite by_ addr v mask) s = .next t ∧
      t = s) ∧
    (∀ i, i < 128 → acts → a = R.AX_LIM.adr i → ∃ t, exec (.registerWrite by_ addr v mask) s = .next t ∧
      RegWritten s t a (merge (d.rd a) v (mask &&& accMask a .RW)) []) ∧
    (∀ i, i < 128 → acts → a = R.AX_PRF_EVT.adr i → ∃ t, exec (.registerWrite by_ addr v mask) s = .next t ∧
      t.dev.rd a = d.rd a &&& ~~~ (v &&& mask &&& accMask a .W1C) ∧ BitsKept s t [wholeReg a] ∧ OnlyRegs s t) ∧
    (acts → a = R.DEV_MODE.adr → ∃ t, exec (.registerWrite by_ addr v mask) s = .next t ∧ t = s))

/-- STORE, STORE_COMPLETE, COMMIT_LC, COMMIT_LC_COMPLETE, DISCARD_LC and PROVISION: what turns them away, what a
STORE and a commit take and which bank they write, which bank is in force after the header is written or the write
failed, and what is staged and discarded (R542, R545, R551, R555, R556, R558, R559, R560, R561, R562, R565). The
model's own choices and readings in it: log entry 54. -/
def Obligations.StoreAndLimitedChange : Prop :=
  (∀ (s : State) (k : Fin 4) (req : Word) (x : Session), FreshRequest s k req x →
    let d := s.dev
    let y := touched s x
    let answers := fun (c : Instr) (r : Nat) => ∃ t, exec c s = .next t ∧ AnsweredOnly s t k y req (Response.mk 0x92 r []) []
    (let why := if x.priv < 2 then 2 else if d.rmode ≠ mReady ∧ d.rmode ≠ mHold ∧ d.rmode ≠ mService then 3
       else if d.store.job.isSome = true then 7 else 0
     (why ≠ 0 → answers (.store k req) why) ∧
     (why = 0 → ∃ (t : State) (j : NvJob), exec (.store k req) s = .next t ∧ t.dev.store.job = some j ∧
       j.commit = false ∧ j.sess = k ∧ j.sid = x.sid ∧ j.req = req ∧ j.tick = d.tick ∧
       t.dev.flag R.NV_STAT.storing = true ∧ t.dev.out = d.out ∧ t.dev.session? k = some y ∧
       (d.time.numbered = true → j.taken = false ∧ t.dev.nv = d.nv) ∧
       (d.time.numbered = false → j.taken = true ∧ j.bank.valid = true ∧
         (∀ a ∈ rwsRegs, (a, t.dev.rd a &&& accMask a .RWS) ∈ j.bank.recs) ∧
         (d.nv.bankNo = some 0 → t.dev.nv.bank1 = { (j.bank) with valid := false } ∧ t.dev.nv.bank0 = d.nv.bank0 ∧
           j.bank.seq = d.nv.bank0.seq + 1) ∧
         (d.nv.bankNo = some 1 → t.dev.nv.bank0 = { (j.bank) with valid := false } ∧ t.dev.nv.bank1 = d.nv.bank1 ∧
           j.bank.seq = d.nv.bank1.seq + 1) ∧ t.dev.nv.bankNo = d.nv.bankNo) ∧
       BitsKept s t [R.NV_STAT.storing] ∧ MemKept s t ∧ OnlyDev s t)) ∧
    (let may := x.kind = 1 ∨ (x.kind = 2 ∧ d.flag R.SEC_STAT.boot = true)
     let why := if ¬ may then 2 else if d.mode.erasing = true then 11 else if d.store.job.isSome = true then 7
       else if 1024 < d.nv.clog.length + d.changedSettings.length then 8 else 0
     (why ≠ 0 → answers (.commitLc k req) why) ∧
     (why = 0 → ∃ (t : State) (j : NvJob), exec (.commitLc k req) s = .next t ∧ t.dev.store.job = some j ∧
       j.commit = true ∧ j.sess = k ∧ j.sid = x.sid ∧ j.req = req ∧ j.sets = d.changedSettings ∧
       j.lc = d.commitBank d.changedSettings ∧ t.dev.flag R.NV_STAT.storing = true ∧ t.dev.out = d.out ∧
       t.dev.nv.clog.length = d.nv.clog.length + d.changedSettings.length ∧
       (∀ i, i < d.nv.clog.length → t.dev.nv.clog.getD i [] = d.nv.clog.getD i []) ∧
       (∀ i, d.nv.clog.length ≤ i → i < t.dev.nv.clog.length → i ∈ t.dev.nv.voids) ∧
       (d.nv.lcNo = 0 → t.dev.nv.lc1 = { (j.lc) with valid := false } ∧ t.dev.nv.lc0 = d.nv.lc0) ∧
       (d.nv.lcNo = 1 → t.dev.nv.lc0 = { (j.lc) with valid := false } ∧ t.dev.nv.lc1 = d.nv.lc1) ∧
       t.dev.nv.lcNo = d.nv.lcNo ∧ t.dev.store.stRegs = d.store.stRegs ∧ t.dev.store.stKeys = d.store.stKeys ∧
       MemKept s t ∧ OnlyDev s t)) ∧
    (x.kind ≠ 1 → answers (.discardLc k req) 2) ∧
    (x.kind = 1 → ∃ t, exec (.discardLc k req) s = .next t ∧ Answered s t k y req (Response.mk 0x92 0 []) ∧
      t.dev.store = { (d.store) with stRegs := [], stKeys := [] } ∧ t.dev.flag R.NV_STAT.lc_stage = false ∧
      BitsKept s t [R.NV_STAT.lc_stage] ∧ MemKept s t ∧ OnlyDev s t) ∧
    (∀ (slot : Fin 8) (priv : Fin 4) (wrapped : List Byte),
      let pad := hmac x.kWrap (ascii "KEY" ++ natBytes 1 slot ++ natBytes 1 (d.keySlot slot).count)
      let key := wrapped.zipWith (fun (a b : Byte) => a ^^^ b) pad
      let may := x.kind = 1 ∨ (x.kind = 2 ∧ d.flag R.SEC_STAT.boot = true)
      let why := if ¬ may then 2 else if (∀ b ∈ key, b = 0) then 1 else if nth d.lc.lifeKeys slot = 0 then 8 else 0
      (why ≠ 0 → answers (.provision k req slot priv wrapped) why) ∧
      (why = 0 → ∃ t, exec (.provision k req slot priv wrapped) s = .next t ∧
        Answered s t k y req (Response.mk 0x92 0 []) ∧ t.dev.flag R.NV_STAT.lc_stage = true ∧
        t.dev.store.stKeys = StagedKey.mk slot key (if slot.val = 0 then 0 else priv.val) ::
          d.store.stKeys.filter (fun z => z.slot ≠ slot.val) ∧
        t.dev.nv = d.nv ∧ BitsKept s t [R.NV_STAT.lc_stage] ∧ MemKept s t ∧ OnlyDev s t))) ∧
  (∀ (s : State) (ok : Bool),
    let d := s.dev
    let answered := fun (t : State) (j : NvJob) (r : Nat) =>
      (∀ x, d.session? j.sess = some x → x.sid = j.sid → Answered s t j.sess x j.req (Response.mk 0x92 r [])) ∧
      ((∀ x, d.session? j.sess = some x → x.sid ≠ j.sid) → t.dev.out = d.out ∧ t.dev.host = d.host)
    let stored := fun (t : State) => t.dev.store.job = none ∧ t.dev.flag R.NV_STAT.storing = false ∧ MemKept s t ∧
      OnlyDev s t
    (∀ j, d.store.job = some j → j.commit = false → j.taken = true →
      ∃ t, exec (.storeComplete ok) s = .next t ∧ stored t ∧ answered t j (if ok = true then 0 else 9) ∧
        (ok = true → (d.nv.bankNo = some 0 → t.dev.nv = { (d.nv) with bank1 := j.bank }) ∧
          (d.nv.bankNo ≠ some 0 → t.dev.nv = { (d.nv) with bank0 := j.bank }) ∧
          t.dev.flag R.NV_EVT.store = true ∧ t.dev.flag R.NV_STAT.img_chg = false ∧
          (∀ b, t.dev.nv.bankNo = some b → t.dev.flag R.NV_STAT.none = false ∧ t.dev.fld R.NV_STAT.bank = b) ∧
          RegsKept s t [R.NV_STAT.adr, R.NV_EVT.adr]) ∧
        (ok = false → t.dev.nv = d.nv ∧ t.dev.flag R.NV_EVT.store_err = true ∧
          BitsKept s t [R.NV_STAT.storing, R.NV_EVT.store_err])) ∧
    ((∀ j, d.store.job = some j → j.commit = true ∨ j.taken = false) →
      ∃ t, exec (.storeComplete ok) s = .next t ∧ t = s) ∧
    (∀ j, d.store.job = some j → j.commit = true →
      ∃ t, exec (.commitLcComplete ok) s = .next t ∧ stored t ∧ answered t j (if ok = true then 0 else 9) ∧
        (ok = true → (d.nv.lcNo = 0 → t.dev.nv.lc1 = j.lc ∧ t.dev.nv.lc0 = d.nv.lc0) ∧
          (d.nv.lcNo = 1 → t.dev.nv.lc0 = j.lc ∧ t.dev.nv.lc1 = d.nv.lc1) ∧ t.dev.flag R.NV_EVT.commit = true ∧
          (1 ∈ j.sets ∨ 2 ∈ j.sets → t.dev.flag R.SF_STAT.pend = true) ∧
          (∀ i ∈ t.dev.nv.voids, i < j.logFrom ∨ j.logFrom + j.sets.length ≤ i)) ∧
        (ok = false → t.dev.nv = d.nv ∧ BitsKept s t [R.NV_STAT.storing])) ∧
    ((∀ j, d.store.job = some j → j.commit = false) → ∃ t, exec (.commitLcComplete ok) s = .next t ∧ t = s))

/-- TAMPER_TRIP, VBAT_BROWNOUT, VOLTAGE_TRIP, TEMPERATURE_TRIP, CLOCK_TRIP, SEC_ERASE and SEC_TAMP_CLR: the latch
and the trips with their actions while the device is out of Reset, nothing but the latch in Reset, and the two
controls that only a session of privilege 3 in Service may use (R563, R564, R565, R566, R605, R606, R607, R615).
The model's own choices and readings in it: log entry 55. -/
def Obligations.SecurityTrips : Prop :=
  ∀ (s : State),
    let d := s.dev
    let act := fun (c : Nat) => (d.rd R.SEC_ACT.adr).toNat / 4 ^ c % 4
    let alive := d.omode ≠ mReset
    (∀ c, c = Instr.tamperTrip ∨ c = .vbatBrownout →
      (alive → ∃ t, exec c s = .next t ∧ Tripped s t 0 (act 0) ∧ t.dev.nv.tamper = true ∧
        t.dev.flag R.SEC_STAT.tamp = true) ∧
      (¬ alive → ∃ t, exec c s = .next t ∧ t.dev.nv = { (d.nv) with tamper := true } ∧
        (c = .vbatBrownout → t.dev.balls = d.balls) ∧ t.dev.omode = mReset ∧ t.dev.out = d.out ∧ Only s t [])) ∧
    (∀ c n, (c = Instr.voltageTrip ∧ n = 1) ∨ (c = .temperatureTrip ∧ n = 2) ∨ (c = .clockTrip ∧ n = 3) →
      (alive → ∃ t, exec c s = .next t ∧ Tripped s t n (act n) ∧ t.dev.nv.tamper = d.nv.tamper ∧
        bits (word t.dev.twin.healthBits) 2 2 = 1) ∧
      (¬ alive → ∃ t, exec c s = .next t ∧ t = s)) ∧
    (∀ k : Fin 4,
      let may := d.rmode = mService ∧ ∃ x, d.session? k = some x ∧ x.priv = 3
      (may → ∃ t, exec (.secErase k) s = .next t ∧ KeysErased t ∧ t.dev.omode = d.omode ∧ MemKept s t ∧ OnlyDev s t) ∧
      (¬ may → ∃ t, exec (.secErase k) s = .next t ∧ FieldsSet s t [(R.SEC_EVT.cfg_rej, 1)]) ∧
      (may → d.balls.tamperN = true → ∃ t, exec (.secTampClr k) s = .next t ∧
        t.dev.nv = { (d.nv) with tamper := false } ∧ t.dev.flag R.SEC_STAT.tamp = false ∧
        BitsKept s t [R.SEC_STAT.tamp] ∧ MemKept s t ∧ OnlyDev s t) ∧
      (¬ may ∨ d.balls.tamperN = false → ∃ t, exec (.secTampClr k) s = .next t ∧
        FieldsSet s t [(R.SEC_EVT.cfg_rej, 1)]))

/-- GO_RUN, GO_HOLD, GO_RESUME, GO_READY, GO_STOP, GO_SERVICE, SVC_EXIT, RESTART, ALARM_EXIT, RESET and
STOP_COMPLETE: the privilege, the modes and the conditions of each mode command, the result of one that is turned
away, and the transition of one that is not (R545, R546, R582, R583, R584, R585, R586, R587, R588, R591, R592,
R593). The model's own choices and readings in it: log entries 3, 59. -/
def Obligations.ModeCommands : Prop :=
  (∀ (s : State) (k : Fin 4) (req : Word) (x : Session), FreshRequest s k req x →
    let d := s.dev
    let y := touched s x
    let ends := fun (t : State) => t.dev.out = d.out ++ [sentTo y 0x92 req (Response.mk 0x92 0 []) x.srcAddr x.srcPort]
    let refused := fun (c : Instr) (r : Nat) => ∃ t, exec c s = .next t ∧
      AnsweredOnly s t k y req (Response.mk 0x92 r []) [R.DEV_EVT.adr, R.DEV_CHK.adr] ∧
      t.dev.flag R.DEV_EVT.cmd_rej = true
    let judged := fun (c : Instr) (code need : Nat) (in_ : List Nat) (may : Prop) (act : State → Prop) =>
      let denied := x.priv < need ∨ x.kind = 2
      let shadow := d.omode = mShadow ∧ code ≠ 0x19
      (denied → ∃ t, exec c s = .next t ∧ AnsweredOnly s t k y req (Response.mk 0x92 2 []) []) ∧
      (¬ denied → shadow → refused c 4) ∧
      (¬ denied → ¬ shadow → d.omode ∉ in_ → refused c
        (if d.time.numbered = true ∧ d.mode.cause.isSome = true ∧ d.fld R.DEV_MODE.prev ∈ in_ then 11 else 3)) ∧
      (¬ denied → ¬ shadow → d.omode ∈ in_ → ¬ may → refused c 3) ∧
      (¬ denied → ¬ shadow → d.omode ∈ in_ → may → ∃ t, exec c s = .next t ∧ ends t ∧ act t)
    let enters := fun (m : Nat) (t : State) => ModeEntered s t m 1 ∧ DevOrHold s t
    let checks := (d.touch k).failedChecks = []
    judged (.goRun k req) 0x10 1 [mReady] True (enters mRun) ∧
    judged (.goHold k req) 0x11 1 [mRun] True (enters mHold) ∧
    judged (.goResume k req) 0x12 1 [mHold] True (enters mRun) ∧
    judged (.goReady k req) 0x13 1 [mRun, mHold] (d.axesIdle = true) (enters mReady) ∧
    judged (.goStop k req) 0x14 1 [mRun, mHold] True (fun t => enters mStop t ∧
      (HoldsQuietly s → ∀ a ∈ d.movingGroups, (t.dev.ax a).ss1 = some d.tick)) ∧
    judged (.goService k req) 0x15 2 [mReady] (d.store.job = none ∧
      ∀ r, r < 64 → d.rstate r ≠ sHolding ∧ d.rstate r ≠ sAborting) (enters mService) ∧
    judged (.svcExit k req) 0x16 1 [mService] (checks ∧ d.flag R.DEV_STAT.rst_pend = false) (fun t => enters mReady t ∧
      ∀ j z, j < 4 → d.session? j = some z → z.kind = 1 → t.dev.session? j = none) ∧
    judged (.restart k req) 0x17 2 [mService] checks (fun t => enters mListen t ∧
      t.dev.flag R.DEV_STAT.rst_pend = false ∧ t.dev.mode.idleLeft = 2 ∧ t.dev.net.hstate = .listen ∧
      t.dev.time.numbered = false ∧ t.dev.twin.roleKnown = false ∧ t.dev.flag R.TW_STAT.role = false) ∧
    judged (.alarmExit k req) 0x18 1 [mAlarm] (d.host.erasedBoot = false ∧ d.flag R.SEC_STAT.erased = false ∧
      d.balls.tamperN = true ∧ d.balls.voltOk = true ∧ d.balls.tempOk = true ∧ d.balls.clkOk = true ∧
      d.failuresNow.length < d.fld R.SEC_AUTH.lim ∧ d.axesIdle = true) (fun t =>
      enters (if d.isTwin = true ∧ d.isActive = false ∧ d.twin.roleKnown = true then mShadow else mReady) t ∧
      t.dev.flag R.DEV_STAT.alarm_pend = false) ∧
    judged (.reset k req) 0x19 1 [mLoad, mListen, mShadow, mReady, mRun, mHold, mStop, mService, mAlarm] True
      (fun t => InReset s t 1)) ∧
  (∀ s : State,
    let past := s.dev.omode = mStop ∧ s.dev.axesIdle = true ∧ s.dev.saf.mons = []
    (past → ∃ t, exec .stopComplete s = .next t ∧ ModeEntered s t mReady 10 ∧
      Only s t [R.DEV_MODE.adr, R.DEV_EVT.adr, R.DEV_CNT.adr, R.DEV_STAT.adr, R.SF_OUT_STAT.adr]) ∧
    (¬ past → ∃ t, exec .stopComplete s = .next t ∧ t = s))

/-- RESET_ASSERT, RESET_RELEASE, SELF_TEST_DONE, LOAD_DONE and WITHDRAWAL_IDLE: into Reset, out of it into
Self-test, on to Load or, without a key in slot 0, to Service in the bootstrap state, on to Listen with a good
image, and the halts (R429, R460, R494, R527, R565, R566, R570, R571, R572, R576, R577, R579). The model's own
choices and readings in it: log entries 55, 56, 57, 59, 66. -/
def Obligations.StartUp : Prop :=
  ∀ (s : State),
    let d := s.dev
    let keeps := fun (c : Instr) => ∃ t, exec c s = .next t ∧ t = s
    (d.omode ≠ mReset → ∃ t, exec .resetAssert s = .next t ∧ InReset s t 8) ∧
    (d.omode = mReset → ∃ t, exec .resetAssert s = .next t ∧
      t = { (s) with dev := { d with balls := { d.balls with rstN := false } } }) ∧
    (let goes := ∃ k, d.twin.present = some k ∧ k + 2 ≤ d.tick ∧ d.omode ≠ mReset
     (goes → ∃ t, exec .withdrawalIdle s = .next t ∧ InReset s t 8) ∧ (¬ goes → keeps .withdrawalIdle)) ∧
    (∀ (roleB powerUp orderOk : Bool),
      (d.omode ≠ mReset → keeps (.resetRelease roleB powerUp orderOk)) ∧
      (d.omode = mReset → (powerUp = true → orderOk = true) → ∃ t, exec (.resetRelease roleB powerUp orderOk) s = .next t ∧
        t.dev.omode = mSelfTest ∧ t.dev.fld R.DEV_MODE.prev = mReset ∧ t.dev.fld R.TW_STAT.unit = b2n roleB ∧
        t.dev.flag R.SEC_STAT.tamp = d.nv.tamper ∧ t.dev.nv.tamper = d.nv.tamper ∧
        t.dev.balls.rstN = true ∧ t.dev.balls.pgood = true ∧ t.dev.balls.presentN = false ∧ t.dev.balls.roleB = roleB ∧
        (d.nv.tamper = false → t.dev.nv = d.nv) ∧ (∀ c, t.dev.byteAt c = 0) ∧ (∀ k, t.dev.session? k = none) ∧
        OnlyDev s t)) ∧
    (∀ r : SelfTest,
      let runs := d.omode = mSelfTest ∧ d.flag R.DEV_STAT.halt = false
      let prov := ((if d.nv.lcNo = 1 then d.nv.lc1 else d.nv.lc0).keys.getD 0 {}).prov
      (¬ runs → keeps (.selfTestDone r)) ∧
      (runs → r.failed = 0 → ∃ t, exec (.selfTestDone r) s = .next t ∧
        t.dev.omode = (if prov = true then mLoad else mService) ∧ (prov = false → t.dev.flag R.SEC_STAT.boot = true) ∧
        (prov = false → t.dev.fld R.DEV_MODE.reason = 9) ∧ (∀ c, t.dev.byteAt c = 0 ∧ t.dev.flipAt c = 0) ∧
        (∀ z, z < 16 → t.dev.flag (R.SF_ZONE_CFG.en z) = true → t.dev.zstate z = zSto) ∧
        t.dev.fld R.DEV_START.selftest_ms = satN 8 r.ms ∧ OnlyDev s t) ∧
      (runs → r.failed ≠ 0 → r.failed ≤ 4 → ∃ t, exec (.selfTestDone r) s = .next t ∧
        t.dev.omode = mSelfTest ∧ t.dev.flag R.DEV_STAT.halt = true ∧ t.dev.flag R.DEV_STAT.alarm_n = false ∧
        t.dev.fld R.DEV_STAT.halt_cause = (if r.failed ≤ 2 then 1 else r.failed - 1) ∧
        t.dev.fld R.DEV_START.selftest_ms = satN 8 r.ms ∧ MemKept s t ∧ OnlyDev s t)) ∧
    (∀ img : LoadImage,
      let runs := d.omode = mLoad ∧ d.flag R.DEV_STAT.halt = false
      let why := if img.flashOk = false then 4 else if img.headerOk = false then 5
        else if sha256 img.publicKey ≠ (d.keySlot 0).key then 6
        else if ecdsaVerify img.publicKey img.digest img.signature = false then 7 else 0
      let u := ((d.updTime (fun z => { (z) with clock := z.clock + img.ms * 1000000 })).set R.DEV_START.load_ms
        (satN 12 img.ms)).setB R.DEV_STAT.slow (img.flashOk && img.slow)
      let p := (u.imageFacts img).placeAll img.recs
      let hash := word (bytesNat (img.digest.take 4))
      let kept := p.1.updStore (fun z => { (z) with image := p.1.regs })
      let e := ((kept.setB R.NV_STAT.img_chg (kept.settings?.any (fun b => b.hash != hash))).overlay).scanJournal
      (¬ runs → keeps (.loadDone img)) ∧
      (runs → img.flashOk = false ∨ img.headerOk = false → ∃ t, exec (.loadDone img) s = .next t ∧
        t.dev.omode = mLoad ∧ t.dev.flag R.DEV_STAT.halt = true ∧ t.dev.fld R.DEV_STAT.halt_cause = why ∧
        Only s t [R.DEV_STAT.adr, R.DEV_START.adr]) ∧
      (runs → why = 6 ∨ why = 7 → ∃ t, exec (.loadDone img) s = .next t ∧ t.dev.flag R.DEV_STAT.halt = true ∧
        t.dev.fld R.DEV_STAT.halt_cause = why ∧ OnlyDev s t) ∧
      (runs → why = 0 → p.2 = none → img.bodyOk = true → e.failedChecks = [] →
        ∃ t, exec (.loadDone img) s = .next t ∧ t.dev.omode = mListen ∧ t.dev.net.hstate = .listen ∧
          t.dev.time.numbered = false ∧ t.dev.rd R.DEV_IMG_LEN.adr = img.len ∧ t.dev.rd R.DEV_IMG_BUILD.adr = img.build ∧
          t.dev.rd R.DEV_IMG_HASH.adr = hash ∧ t.dev.fld R.DEV_START.load_ms = satN 12 img.ms ∧ OnlyDev s t) ∧
      (runs → why = 0 → p.2 ≠ none ∨ img.bodyOk = false →
        ∃ t, exec (.loadDone img) s = .next t ∧ t.dev.flag R.DEV_STAT.halt = true ∧
          t.dev.fld R.DEV_STAT.halt_cause = 8 ∧ OnlyDev s t))

/-- A write to BR_CFG or ML_CFG that reaches the register is accepted only in Load and Service, where the register
takes the written bits; in any other mode it has no effect and sets the rejection bit of its block, for ML_CFG that
of its line (R112, R259). -/
def Obligations.ConfigurationWrites : Prop :=
  ∀ (s : State) (by_ : Actor) (addr v mask : Word),
    let d := s.dev
    let a := addr.toNat
    let acts := match by_ with
      | .firmware _ => True
      | .session k => (d.session? k).isSome = true ∧ d.writeWhy k [WEntry.mk addr v mask] = 0
    let taken := merge (d.rd a) v (mask &&& accMask a .RW)
    (acts → a = R.BR_CFG.adr → d.rmode = mLoad ∨ d.rmode = mService →
      ∃ t, exec (.registerWrite by_ addr v mask) s = .next t ∧ FieldsSet s t [(wholeReg a, taken.toNat)]) ∧
    (acts → a = R.BR_CFG.adr → d.rmode ≠ mLoad → d.rmode ≠ mService →
      ∃ t, exec (.registerWrite by_ addr v mask) s = .next t ∧ FieldsSet s t [(R.BR_EVT.cfg_rej, 1)]) ∧
    (∀ l, l < 8 → acts → a = R.ML_CFG.adr l → d.rmode = mLoad →
      ∃ t, exec (.registerWrite by_ addr v mask) s = .next t ∧ FieldsSet s t [(wholeReg a, taken.toNat)]) ∧
    (∀ l, l < 8 → acts → a = R.ML_CFG.adr l → d.rmode = mService →
      ∃ t, exec (.registerWrite by_ addr v mask) s = .next t ∧
        FieldsSet s t [(wholeReg a, taken.toNat), (R.DEV_STAT.rst_pend, 1)]) ∧
    (∀ l, l < 8 → acts → a = R.ML_CFG.adr l → d.rmode ≠ mLoad → d.rmode ≠ mService →
      ∃ t, exec (.registerWrite by_ addr v mask) s = .next t ∧ FieldsSet s t [(R.ML_EVT.cfg_rej l, 1)])
end

