-- ==== Sys2Proof/Laws/Bits.lean ====
section
/-! SUPPORT. The laws of fields of words: what a field reads after a field was written. -/

namespace Sys2Proof.Machine

theorem Fld.mask_bit (f : Fld) (i : Nat) :
    f.mask.getLsbD i = (decide (i < 32) && (decide (f.lo ≤ i) && decide (i < f.lo + f.width))) := by
  unfold Fld.mask
  rw [BitVec.getLsbD_ofNat, Nat.testBit_mul_two_pow, Nat.testBit_two_pow_sub_one]
  by_cases h : f.lo ≤ i
  · simp only [h, decide_true, Bool.true_and]; congr 1; exact decide_eq_decide.mpr (by omega)
  · simp [h]

theorem Fld.put_bit (f : Fld) (w : Word) (v i : Nat) (hi : i < 32) :
    (f.put w v).getLsbD i =
      if f.lo ≤ i ∧ i < f.lo + f.width then v.testBit (i - f.lo) else w.getLsbD i := by
  unfold Fld.put
  simp only [BitVec.getLsbD_or, BitVec.getLsbD_and, BitVec.getLsbD_not, Fld.mask_bit,
    BitVec.getLsbD_ofNat, Nat.testBit_mul_two_pow, hi, decide_true, Bool.true_and]
  by_cases h1 : f.lo ≤ i <;> by_cases h2 : i < f.lo + f.width <;> simp [h1, h2]

theorem Fld.get_testBit (f : Fld) (w : Word) (i : Nat) :
    (f.get w).testBit i = (decide (i < f.width) && w.getLsbD (f.lo + i)) := by
  unfold Fld.get
  rw [Nat.testBit_mod_two_pow, Nat.testBit_div_two_pow]
  simp [BitVec.getLsbD, Nat.add_comm]

/-- A field reads what was written into it, modulo its size. -/
theorem Fld.get_put_self (f : Fld) (w : Word) (v : Nat) (h : f.lo + f.width ≤ 32) :
    f.get (f.put w v) = v % 2 ^ f.width := by
  apply Nat.eq_of_testBit_eq
  intro i
  rw [Fld.get_testBit, Nat.testBit_mod_two_pow]
  by_cases hi : i < f.width
  · rw [Fld.put_bit _ _ _ _ (by omega)]
    simp [hi, show f.lo + i < f.lo + f.width by omega]
  · simp [hi]

/-- A field that shares no bit with the one written reads as before. -/
theorem Fld.get_put_other (f g : Fld) (w : Word) (v : Nat) (h : g.lo + g.width ≤ 32)
    (hd : g.lo + g.width ≤ f.lo ∨ f.lo + f.width ≤ g.lo) : g.get (f.put w v) = g.get w := by
  apply Nat.eq_of_testBit_eq
  intro i
  rw [Fld.get_testBit, Fld.get_testBit]
  by_cases hi : i < g.width
  · rw [Fld.put_bit _ _ _ _ (by omega)]
    rw [if_neg (by omega)]
  · simp [hi]

@[simp] theorem b2n_ne_zero (b : Bool) : (b2n b != 0) = b := by cases b <;> rfl

theorem b2n_mod_two (b : Bool) : b2n b % 2 ^ 1 = b2n b := by cases b <;> rfl

theorem satN_le (n v : Nat) : satN n v ≤ 2 ^ n - 1 := Nat.min_le_right _ _

theorem satN_of_le (n v : Nat) (h : v ≤ 2 ^ n - 1) : satN n v = v := Nat.min_eq_left h

end Sys2Proof.Machine
end

