-- ==== Sys2Proof/Laws/Sparse.lean ====
section
/-! SUPPORT. The laws of sparse stores: what is read after a write, and that writes keep the canonical
form. -/

namespace Sys2Proof.Machine

variable {α : Type}

@[simp] theorem Sparse.get_nil (f : Nat → α) (k : Nat) : Sparse.get f [] k = f k := rfl

theorem Sparse.get_insert (f : Nat → α) (l : List (Nat × α)) (k j : Nat) (v : α) :
    Sparse.get f (Sparse.insert l k v) j = if j = k then v else Sparse.get f l j := by
  induction l with
  | nil => simp [Sparse.insert, Sparse.get]
  | cons p t ih =>
    obtain ⟨k', v'⟩ := p
    simp only [Sparse.insert]
    split
    · rename_i h; subst h; by_cases hj : j = k <;> simp [Sparse.get, hj]
    · split
      · by_cases hj : j = k <;> simp [Sparse.get, hj]
      · rename_i h _
        by_cases hj : j = k'
        · have : j ≠ k := fun hk => h (hk ▸ hj ▸ rfl)
          simp [Sparse.get, hj, show k' ≠ k from hj ▸ this]
        · simp [Sparse.get, hj, ih]

theorem Sparse.get_filter_ne (f : Nat → α) (l : List (Nat × α)) (k j : Nat) :
    Sparse.get f (l.filter (fun p => p.1 ≠ k)) j = if j = k then f j else Sparse.get f l j := by
  induction l with
  | nil => simp
  | cons p t ih =>
    obtain ⟨k', v'⟩ := p
    by_cases hk : k' = k
    · subst hk
      simp only [List.filter, ne_eq, not_true_eq_false, decide_false, Sparse.get]
      rw [show (t.filter fun p => decide ¬p.1 = k') = t.filter fun p => decide (p.1 ≠ k') from rfl, ih]
      by_cases hj : j = k' <;> simp [hj]
    · simp only [List.filter, ne_eq, hk, not_false_eq_true, decide_true, Sparse.get]
      by_cases hj : j = k'
      · simp [hj, hk]
      · simp only [hj, if_false]; exact ih

/-- A read of a store after a write: the value at the key written, the former value elsewhere. -/
theorem Sparse.get_put [DecidableEq α] (f : Nat → α) (l : List (Nat × α)) (k j : Nat) (v : α) :
    Sparse.get f (Sparse.put f l k v) j = if j = k then v else Sparse.get f l j := by
  unfold Sparse.put
  simp only
  split
  · rename_i h; rw [Sparse.get_filter_ne]; by_cases hj : j = k <;> simp [hj, h]
  · rw [Sparse.get_insert, Sparse.get_filter_ne]; by_cases hj : j = k <;> simp [hj]

@[simp] theorem Sparse.get_put_self [DecidableEq α] (f : Nat → α) (l : List (Nat × α)) (k : Nat) (v : α) :
    Sparse.get f (Sparse.put f l k v) k = v := by simp [Sparse.get_put]

theorem Sparse.get_put_ne [DecidableEq α] (f : Nat → α) (l : List (Nat × α)) {k j : Nat} (v : α)
    (h : j ≠ k) : Sparse.get f (Sparse.put f l k v) j = Sparse.get f l j := by simp [Sparse.get_put, h]

theorem Sparse.find?_insert (l : List (Nat × α)) (k j : Nat) (v : α) :
    Sparse.find? (Sparse.insert l k v) j = if j = k then some v else Sparse.find? l j := by
  induction l with
  | nil => simp [Sparse.insert, Sparse.find?]
  | cons p t ih =>
    obtain ⟨k', v'⟩ := p
    simp only [Sparse.insert]
    split
    · rename_i h; subst h; by_cases hj : j = k <;> simp [Sparse.find?, hj]
    · split
      · by_cases hj : j = k <;> simp [Sparse.find?, hj]
      · rename_i h _
        by_cases hj : j = k'
        · have : k' ≠ k := fun hk => h hk.symm
          simp [Sparse.find?, hj, this]
        · simp [Sparse.find?, hj, ih]

theorem Sparse.find?_modify (l : List (Nat × α)) (k j : Nat) (g : α → α) :
    Sparse.find? (Sparse.modify l k g) j =
      if j = k then (Sparse.find? l j).map g else Sparse.find? l j := by
  induction l with
  | nil => simp [Sparse.modify, Sparse.find?]
  | cons p t ih =>
    obtain ⟨k', v'⟩ := p
    simp only [Sparse.modify, List.map_cons] at ih ⊢
    by_cases hk : k' = k
    · subst hk
      by_cases hj : j = k'
      · simp [Sparse.find?, hj]
      · simp [Sparse.find?, hj]; simpa [hj] using ih
    · by_cases hj : j = k'
      · subst hj; simp [Sparse.find?, hk]
      · simp [Sparse.find?, hk, hj]; simpa using ih

theorem Sparse.wfFrom_mono [DecidableEq α] (f : Nat → α) {m n : Nat} (h : m ≤ n) (l : List (Nat × α)) :
    Sparse.wfFrom f n l = true → Sparse.wfFrom f m l = true := by
  cases l with
  | nil => simp [Sparse.wfFrom]
  | cons p t =>
    obtain ⟨k, v⟩ := p
    simp only [Sparse.wfFrom, Bool.and_eq_true, decide_eq_true_eq]
    rintro ⟨⟨h1, h2⟩, h3⟩
    exact ⟨⟨Nat.le_trans h h1, h2⟩, h3⟩

theorem Sparse.wfFrom_filter [DecidableEq α] (f : Nat → α) (p : Nat × α → Bool) (l : List (Nat × α)) :
    ∀ n, Sparse.wfFrom f n l = true → Sparse.wfFrom f n (l.filter p) = true := by
  induction l with
  | nil => simp [Sparse.wfFrom]
  | cons q t ih =>
    obtain ⟨k, v⟩ := q
    intro n h
    simp only [Sparse.wfFrom, Bool.and_eq_true, decide_eq_true_eq] at h
    obtain ⟨⟨h1, h2⟩, h3⟩ := h
    simp only [List.filter]
    split
    · simp only [Sparse.wfFrom, Bool.and_eq_true, decide_eq_true_eq]
      exact ⟨⟨h1, h2⟩, ih _ h3⟩
    · exact Sparse.wfFrom_mono f (by omega) _ (ih _ h3)

theorem Sparse.wfFrom_insert [DecidableEq α] (f : Nat → α) (l : List (Nat × α)) (k : Nat) (v : α)
    (hv : v ≠ f k) : ∀ n, n ≤ k → (∀ p ∈ l, p.1 ≠ k) → Sparse.wfFrom f n l = true →
      Sparse.wfFrom f n (Sparse.insert l k v) = true := by
  induction l with
  | nil => intro n hn _ _; simp [Sparse.insert, Sparse.wfFrom, hn, hv]
  | cons q t ih =>
    obtain ⟨k', v'⟩ := q
    intro n hn hne h
    simp only [Sparse.wfFrom, Bool.and_eq_true, decide_eq_true_eq] at h
    obtain ⟨⟨h1, h2⟩, h3⟩ := h
    have hk : k' ≠ k := hne (k', v') (by simp)
    simp only [Sparse.insert, if_neg (Ne.symm hk)]
    split
    · simp only [Sparse.wfFrom, Bool.and_eq_true, decide_eq_true_eq]
      exact ⟨⟨hn, hv⟩, ⟨by omega, h2⟩, h3⟩
    · simp only [Sparse.wfFrom, Bool.and_eq_true, decide_eq_true_eq]
      exact ⟨⟨h1, h2⟩, ih _ (by omega) (fun p hp => hne p (by simp [hp])) h3⟩

/-- A write keeps the canonical form. -/
theorem Sparse.wf_put [DecidableEq α] (f : Nat → α) (l : List (Nat × α)) (k : Nat) (v : α)
    (h : Sparse.wf f l = true) : Sparse.wf f (Sparse.put f l k v) = true := by
  unfold Sparse.put Sparse.wf at *
  simp only
  split
  · exact Sparse.wfFrom_filter f _ l 0 h
  · rename_i hv
    refine Sparse.wfFrom_insert f _ k v hv 0 (Nat.zero_le _) ?_ (Sparse.wfFrom_filter f _ l 0 h)
    intro p hp; simpa using (List.mem_filter.mp hp).2

@[simp] theorem Sparse.wf_nil [DecidableEq α] (f : Nat → α) : Sparse.wf f [] = true := rfl

/-- Keys above a bound: filtering out a lower key changes nothing. -/
theorem Sparse.filter_below [DecidableEq α] (f : Nat → α) (l : List (Nat × α)) :
    ∀ (n k : Nat), k < n → Sparse.wfFrom f n l = true → l.filter (fun p => decide (p.1 ≠ k)) = l := by
  induction l with
  | nil => intros; rfl
  | cons q t ih =>
    obtain ⟨k', v'⟩ := q
    intro n k hk h
    simp only [Sparse.wfFrom, Bool.and_eq_true, decide_eq_true_eq] at h
    obtain ⟨⟨h1, -⟩, h3⟩ := h
    have : k' ≠ k := by omega
    simp only [List.filter, ne_eq, this, not_false_eq_true, decide_true]
    exact congrArg _ (ih (k' + 1) k (by omega) h3)

/-- An entry below every key goes to the front. -/
theorem Sparse.insert_below [DecidableEq α] (f : Nat → α) (l : List (Nat × α)) (n k : Nat) (v : α) (hk : k < n)
    (h : Sparse.wfFrom f n l = true) : Sparse.insert l k v = (k, v) :: l := by
  cases l with
  | nil => rfl
  | cons q t =>
    obtain ⟨k', v'⟩ := q
    simp only [Sparse.wfFrom, Bool.and_eq_true, decide_eq_true_eq] at h
    have h1 : k ≠ k' := by omega
    have h2 : k < k' := by omega
    simp [Sparse.insert, h1, h2]

/-- Putting what a key reads changes nothing in canonical form. -/
theorem Sparse.put_get [DecidableEq α] (f : Nat → α) (l : List (Nat × α)) (k : Nat) (h : Sparse.wf f l = true) :
    Sparse.put f l k (Sparse.get f l k) = l := by
  unfold Sparse.wf at h
  generalize 0 = n at h
  induction l generalizing n with
  | nil => simp [Sparse.put]
  | cons q t ih =>
    obtain ⟨k', v'⟩ := q
    simp only [Sparse.wfFrom, Bool.and_eq_true, decide_eq_true_eq] at h
    obtain ⟨⟨-, h2⟩, h3⟩ := h
    by_cases hk : k = k'
    · subst hk
      have e := Sparse.filter_below f t (k + 1) k (by omega) h3
      simp only [ne_eq] at e
      simp only [Sparse.put, Sparse.get, List.filter, ne_eq, not_true_eq_false, decide_false, if_true, if_neg h2, e]
      exact Sparse.insert_below f t (k + 1) k v' (by omega) h3
    · have ih' := ih _ h3
      have hne : ¬ k' = k := fun e => hk e.symm
      simp only [Sparse.put, Sparse.get, List.filter, ne_eq, hne, not_false_eq_true, decide_true, if_neg hk] at ih' ⊢
      split at ih' <;> rename_i hv
      · simp only [hv, if_true]
        rw [ih']
      · simp only [hv, if_false]
        by_cases hlt : k < k'
        · have : Sparse.get f t k = f k := by
            have hfil := Sparse.filter_below f t (k' + 1) k (by omega) h3
            have := Sparse.insert_below f t (k' + 1) k (Sparse.get f t k) (by omega) h3
            simp only [ne_eq] at hfil
            rw [hfil, this] at ih'
            exact absurd (congrArg List.length ih') (by simp)
          exact absurd this hv
        · simp only [Sparse.insert, if_neg hk, if_neg hlt, ih']

/-- The keys of a store stay where an entry is changed. -/
theorem Sparse.keys_modify (l : List (Nat × α)) (k : Nat) (g : α → α) :
    (Sparse.modify l k g).map Prod.fst = l.map Prod.fst := by
  induction l with
  | nil => rfl
  | cons p t ih =>
    simp only [Sparse.modify, List.map_cons] at ih ⊢
    rw [ih]; split <;> rfl

theorem Sparse.mem_insert (l : List (Nat × α)) (k : Nat) (v : α) (p : Nat × α)
    (h : p ∈ Sparse.insert l k v) : p = (k, v) ∨ p ∈ l := by
  induction l with
  | nil => simpa [Sparse.insert] using h
  | cons q t ih =>
    obtain ⟨k', v'⟩ := q
    simp only [Sparse.insert] at h
    split at h
    · rcases List.mem_cons.mp h with h | h
      · exact .inl h
      · exact .inr (by simp [h])
    · split at h
      · rcases List.mem_cons.mp h with h | h
        · exact .inl h
        · exact .inr h
      · rcases List.mem_cons.mp h with h | h
        · exact .inr (by simp [h])
        · rcases ih h with h | h
          · exact .inl h
          · exact .inr (by simp [h])

/-- Setting an entry keeps the keys strictly rising. -/
theorem Sparse.rising_insert (l : List (Nat × α)) (k : Nat) (v : α)
    (h : (l.map Prod.fst).Pairwise (· < ·)) : ((Sparse.insert l k v).map Prod.fst).Pairwise (· < ·) := by
  induction l with
  | nil => simp [Sparse.insert]
  | cons q t ih =>
    obtain ⟨k', v'⟩ := q
    simp only [List.map_cons, List.pairwise_cons] at h
    obtain ⟨h1, h2⟩ := h
    simp only [Sparse.insert]
    split
    · rename_i hk; subst hk; simp only [List.map_cons, List.pairwise_cons]; exact ⟨h1, h2⟩
    · split
      · rename_i hlt
        simp only [List.map_cons, List.pairwise_cons]
        refine ⟨?_, h1, h2⟩
        intro a ha
        rcases List.mem_cons.mp ha with rfl | ha
        · exact hlt
        · exact Nat.lt_trans hlt (h1 a ha)
      · rename_i hne hge
        simp only [List.map_cons, List.pairwise_cons]
        refine ⟨?_, ih h2⟩
        intro a ha
        obtain ⟨p, hp, rfl⟩ := List.mem_map.mp ha
        rcases Sparse.mem_insert t k v p hp with rfl | hp
        · show k' < k; omega
        · exact h1 _ (List.mem_map.mpr ⟨p, hp, rfl⟩)

end Sys2Proof.Machine
end

