-- ==== Sys2Proof/Laws/State.lean ====
section
/-! SUPPORT. One lemma per field of the device per update: what an update leaves as it was, and what the
registers and the numbered units read after it. -/

namespace Sys2Proof.Machine

@[simp] theorem Dev.wr_regsT (d : Dev) (a : Nat) (w : Word) : (d.wr a w).regsT = d.regsT := rfl
@[simp] theorem Dev.wr_mem (d : Dev) (a : Nat) (w : Word) : (d.wr a w).mem = d.mem := rfl
@[simp] theorem Dev.wr_time (d : Dev) (a : Nat) (w : Word) : (d.wr a w).time = d.time := rfl
@[simp] theorem Dev.wr_net (d : Dev) (a : Nat) (w : Word) : (d.wr a w).net = d.net := rfl
@[simp] theorem Dev.wr_easel (d : Dev) (a : Nat) (w : Word) : (d.wr a w).easel = d.easel := rfl
@[simp] theorem Dev.wr_engs (d : Dev) (a : Nat) (w : Word) : (d.wr a w).engs = d.engs := rfl
@[simp] theorem Dev.wr_axes (d : Dev) (a : Nat) (w : Word) : (d.wr a w).axes = d.axes := rfl
@[simp] theorem Dev.wr_decs (d : Dev) (a : Nat) (w : Word) : (d.wr a w).decs = d.decs := rfl
@[simp] theorem Dev.wr_prfs (d : Dev) (a : Nat) (w : Word) : (d.wr a w).prfs = d.prfs := rfl
@[simp] theorem Dev.wr_cmps (d : Dev) (a : Nat) (w : Word) : (d.wr a w).cmps = d.cmps := rfl
@[simp] theorem Dev.wr_loops (d : Dev) (a : Nat) (w : Word) : (d.wr a w).loops = d.loops := rfl
@[simp] theorem Dev.wr_grps (d : Dev) (a : Nat) (w : Word) : (d.wr a w).grps = d.grps := rfl
@[simp] theorem Dev.wr_rcp (d : Dev) (a : Nat) (w : Word) : (d.wr a w).rcp = d.rcp := rfl
@[simp] theorem Dev.wr_saf (d : Dev) (a : Nat) (w : Word) : (d.wr a w).saf = d.saf := rfl
@[simp] theorem Dev.wr_twin (d : Dev) (a : Nat) (w : Word) : (d.wr a w).twin = d.twin := rfl
@[simp] theorem Dev.wr_vn (d : Dev) (a : Nat) (w : Word) : (d.wr a w).vn = d.vn := rfl
@[simp] theorem Dev.wr_sks (d : Dev) (a : Nat) (w : Word) : (d.wr a w).sks = d.sks := rfl
@[simp] theorem Dev.wr_evts (d : Dev) (a : Nat) (w : Word) : (d.wr a w).evts = d.evts := rfl
@[simp] theorem Dev.wr_ecc (d : Dev) (a : Nat) (w : Word) : (d.wr a w).ecc = d.ecc := rfl
@[simp] theorem Dev.wr_host (d : Dev) (a : Nat) (w : Word) : (d.wr a w).host = d.host := rfl
@[simp] theorem Dev.wr_nv (d : Dev) (a : Nat) (w : Word) : (d.wr a w).nv = d.nv := rfl
@[simp] theorem Dev.wr_store (d : Dev) (a : Nat) (w : Word) : (d.wr a w).store = d.store := rfl
@[simp] theorem Dev.wr_balls (d : Dev) (a : Nat) (w : Word) : (d.wr a w).balls = d.balls := rfl
@[simp] theorem Dev.wr_mode (d : Dev) (a : Nat) (w : Word) : (d.wr a w).mode = d.mode := rfl
@[simp] theorem Dev.wr_out (d : Dev) (a : Nat) (w : Word) : (d.wr a w).out = d.out := rfl
@[simp] theorem Dev.wr_free (d : Dev) (a : Nat) (w : Word) : (d.wr a w).free = d.free := rfl
@[simp] theorem Dev.wr_ax (d : Dev) (a : Nat) (w : Word) (j : Nat) : (d.wr a w).ax j = d.ax j := rfl
@[simp] theorem Dev.wr_dec (d : Dev) (a : Nat) (w : Word) (j : Nat) : (d.wr a w).dec j = d.dec j := rfl
@[simp] theorem Dev.wr_prf (d : Dev) (a : Nat) (w : Word) (j : Nat) : (d.wr a w).prf j = d.prf j := rfl
@[simp] theorem Dev.wr_cmp (d : Dev) (a : Nat) (w : Word) (j : Nat) : (d.wr a w).cmp j = d.cmp j := rfl
@[simp] theorem Dev.wr_loop (d : Dev) (a : Nat) (w : Word) (j : Nat) : (d.wr a w).loop j = d.loop j := rfl
@[simp] theorem Dev.wr_grp (d : Dev) (a : Nat) (w : Word) (j : Nat) : (d.wr a w).grp j = d.grp j := rfl
@[simp] theorem Dev.wr_recipe (d : Dev) (a : Nat) (w : Word) (j : Nat) : (d.wr a w).recipe j = d.recipe j := rfl
@[simp] theorem Dev.wr_edge (d : Dev) (a : Nat) (w : Word) (j : Nat) : (d.wr a w).edge j = d.edge j := rfl
@[simp] theorem Dev.wr_zone (d : Dev) (a : Nat) (w : Word) (j : Nat) : (d.wr a w).zone j = d.zone j := rfl
@[simp] theorem Dev.wr_conn (d : Dev) (a : Nat) (w : Word) (j : Nat) : (d.wr a w).conn j = d.conn j := rfl
@[simp] theorem Dev.wr_line (d : Dev) (a : Nat) (w : Word) (j : Nat) : (d.wr a w).line j = d.line j := rfl
@[simp] theorem Dev.wr_head (d : Dev) (a : Nat) (w : Word) (j : Nat) : (d.wr a w).head j = d.head j := rfl
@[simp] theorem Dev.wr_sk (d : Dev) (a : Nat) (w : Word) (j : Nat) : (d.wr a w).sk j = d.sk j := rfl
@[simp] theorem Dev.wr_eng (d : Dev) (a : Nat) (w : Word) (j : Nat) : (d.wr a w).eng j = d.eng j := rfl

@[simp] theorem Dev.set_regsT (d : Dev) (f : Fld) (v : Nat) : (d.set f v).regsT = d.regsT := rfl
@[simp] theorem Dev.set_mem (d : Dev) (f : Fld) (v : Nat) : (d.set f v).mem = d.mem := rfl
@[simp] theorem Dev.set_time (d : Dev) (f : Fld) (v : Nat) : (d.set f v).time = d.time := rfl
@[simp] theorem Dev.set_net (d : Dev) (f : Fld) (v : Nat) : (d.set f v).net = d.net := rfl
@[simp] theorem Dev.set_easel (d : Dev) (f : Fld) (v : Nat) : (d.set f v).easel = d.easel := rfl
@[simp] theorem Dev.set_engs (d : Dev) (f : Fld) (v : Nat) : (d.set f v).engs = d.engs := rfl
@[simp] theorem Dev.set_axes (d : Dev) (f : Fld) (v : Nat) : (d.set f v).axes = d.axes := rfl
@[simp] theorem Dev.set_decs (d : Dev) (f : Fld) (v : Nat) : (d.set f v).decs = d.decs := rfl
@[simp] theorem Dev.set_prfs (d : Dev) (f : Fld) (v : Nat) : (d.set f v).prfs = d.prfs := rfl
@[simp] theorem Dev.set_cmps (d : Dev) (f : Fld) (v : Nat) : (d.set f v).cmps = d.cmps := rfl
@[simp] theorem Dev.set_loops (d : Dev) (f : Fld) (v : Nat) : (d.set f v).loops = d.loops := rfl
@[simp] theorem Dev.set_grps (d : Dev) (f : Fld) (v : Nat) : (d.set f v).grps = d.grps := rfl
@[simp] theorem Dev.set_rcp (d : Dev) (f : Fld) (v : Nat) : (d.set f v).rcp = d.rcp := rfl
@[simp] theorem Dev.set_saf (d : Dev) (f : Fld) (v : Nat) : (d.set f v).saf = d.saf := rfl
@[simp] theorem Dev.set_twin (d : Dev) (f : Fld) (v : Nat) : (d.set f v).twin = d.twin := rfl
@[simp] theorem Dev.set_vn (d : Dev) (f : Fld) (v : Nat) : (d.set f v).vn = d.vn := rfl
@[simp] theorem Dev.set_sks (d : Dev) (f : Fld) (v : Nat) : (d.set f v).sks = d.sks := rfl
@[simp] theorem Dev.set_evts (d : Dev) (f : Fld) (v : Nat) : (d.set f v).evts = d.evts := rfl
@[simp] theorem Dev.set_ecc (d : Dev) (f : Fld) (v : Nat) : (d.set f v).ecc = d.ecc := rfl
@[simp] theorem Dev.set_host (d : Dev) (f : Fld) (v : Nat) : (d.set f v).host = d.host := rfl
@[simp] theorem Dev.set_nv (d : Dev) (f : Fld) (v : Nat) : (d.set f v).nv = d.nv := rfl
@[simp] theorem Dev.set_store (d : Dev) (f : Fld) (v : Nat) : (d.set f v).store = d.store := rfl
@[simp] theorem Dev.set_balls (d : Dev) (f : Fld) (v : Nat) : (d.set f v).balls = d.balls := rfl
@[simp] theorem Dev.set_mode (d : Dev) (f : Fld) (v : Nat) : (d.set f v).mode = d.mode := rfl
@[simp] theorem Dev.set_out (d : Dev) (f : Fld) (v : Nat) : (d.set f v).out = d.out := rfl
@[simp] theorem Dev.set_free (d : Dev) (f : Fld) (v : Nat) : (d.set f v).free = d.free := rfl
@[simp] theorem Dev.set_ax (d : Dev) (f : Fld) (v : Nat) (j : Nat) : (d.set f v).ax j = d.ax j := rfl
@[simp] theorem Dev.set_dec (d : Dev) (f : Fld) (v : Nat) (j : Nat) : (d.set f v).dec j = d.dec j := rfl
@[simp] theorem Dev.set_prf (d : Dev) (f : Fld) (v : Nat) (j : Nat) : (d.set f v).prf j = d.prf j := rfl
@[simp] theorem Dev.set_cmp (d : Dev) (f : Fld) (v : Nat) (j : Nat) : (d.set f v).cmp j = d.cmp j := rfl
@[simp] theorem Dev.set_loop (d : Dev) (f : Fld) (v : Nat) (j : Nat) : (d.set f v).loop j = d.loop j := rfl
@[simp] theorem Dev.set_grp (d : Dev) (f : Fld) (v : Nat) (j : Nat) : (d.set f v).grp j = d.grp j := rfl
@[simp] theorem Dev.set_recipe (d : Dev) (f : Fld) (v : Nat) (j : Nat) : (d.set f v).recipe j = d.recipe j := rfl
@[simp] theorem Dev.set_edge (d : Dev) (f : Fld) (v : Nat) (j : Nat) : (d.set f v).edge j = d.edge j := rfl
@[simp] theorem Dev.set_zone (d : Dev) (f : Fld) (v : Nat) (j : Nat) : (d.set f v).zone j = d.zone j := rfl
@[simp] theorem Dev.set_conn (d : Dev) (f : Fld) (v : Nat) (j : Nat) : (d.set f v).conn j = d.conn j := rfl
@[simp] theorem Dev.set_line (d : Dev) (f : Fld) (v : Nat) (j : Nat) : (d.set f v).line j = d.line j := rfl
@[simp] theorem Dev.set_head (d : Dev) (f : Fld) (v : Nat) (j : Nat) : (d.set f v).head j = d.head j := rfl
@[simp] theorem Dev.set_sk (d : Dev) (f : Fld) (v : Nat) (j : Nat) : (d.set f v).sk j = d.sk j := rfl
@[simp] theorem Dev.set_eng (d : Dev) (f : Fld) (v : Nat) (j : Nat) : (d.set f v).eng j = d.eng j := rfl

@[simp] theorem Dev.setB_regsT (d : Dev) (f : Fld) (b : Bool) : (d.setB f b).regsT = d.regsT := rfl
@[simp] theorem Dev.setB_mem (d : Dev) (f : Fld) (b : Bool) : (d.setB f b).mem = d.mem := rfl
@[simp] theorem Dev.setB_time (d : Dev) (f : Fld) (b : Bool) : (d.setB f b).time = d.time := rfl
@[simp] theorem Dev.setB_net (d : Dev) (f : Fld) (b : Bool) : (d.setB f b).net = d.net := rfl
@[simp] theorem Dev.setB_easel (d : Dev) (f : Fld) (b : Bool) : (d.setB f b).easel = d.easel := rfl
@[simp] theorem Dev.setB_engs (d : Dev) (f : Fld) (b : Bool) : (d.setB f b).engs = d.engs := rfl
@[simp] theorem Dev.setB_axes (d : Dev) (f : Fld) (b : Bool) : (d.setB f b).axes = d.axes := rfl
@[simp] theorem Dev.setB_decs (d : Dev) (f : Fld) (b : Bool) : (d.setB f b).decs = d.decs := rfl
@[simp] theorem Dev.setB_prfs (d : Dev) (f : Fld) (b : Bool) : (d.setB f b).prfs = d.prfs := rfl
@[simp] theorem Dev.setB_cmps (d : Dev) (f : Fld) (b : Bool) : (d.setB f b).cmps = d.cmps := rfl
@[simp] theorem Dev.setB_loops (d : Dev) (f : Fld) (b : Bool) : (d.setB f b).loops = d.loops := rfl
@[simp] theorem Dev.setB_grps (d : Dev) (f : Fld) (b : Bool) : (d.setB f b).grps = d.grps := rfl
@[simp] theorem Dev.setB_rcp (d : Dev) (f : Fld) (b : Bool) : (d.setB f b).rcp = d.rcp := rfl
@[simp] theorem Dev.setB_saf (d : Dev) (f : Fld) (b : Bool) : (d.setB f b).saf = d.saf := rfl
@[simp] theorem Dev.setB_twin (d : Dev) (f : Fld) (b : Bool) : (d.setB f b).twin = d.twin := rfl
@[simp] theorem Dev.setB_vn (d : Dev) (f : Fld) (b : Bool) : (d.setB f b).vn = d.vn := rfl
@[simp] theorem Dev.setB_sks (d : Dev) (f : Fld) (b : Bool) : (d.setB f b).sks = d.sks := rfl
@[simp] theorem Dev.setB_evts (d : Dev) (f : Fld) (b : Bool) : (d.setB f b).evts = d.evts := rfl
@[simp] theorem Dev.setB_ecc (d : Dev) (f : Fld) (b : Bool) : (d.setB f b).ecc = d.ecc := rfl
@[simp] theorem Dev.setB_host (d : Dev) (f : Fld) (b : Bool) : (d.setB f b).host = d.host := rfl
@[simp] theorem Dev.setB_nv (d : Dev) (f : Fld) (b : Bool) : (d.setB f b).nv = d.nv := rfl
@[simp] theorem Dev.setB_store (d : Dev) (f : Fld) (b : Bool) : (d.setB f b).store = d.store := rfl
@[simp] theorem Dev.setB_balls (d : Dev) (f : Fld) (b : Bool) : (d.setB f b).balls = d.balls := rfl
@[simp] theorem Dev.setB_mode (d : Dev) (f : Fld) (b : Bool) : (d.setB f b).mode = d.mode := rfl
@[simp] theorem Dev.setB_out (d : Dev) (f : Fld) (b : Bool) : (d.setB f b).out = d.out := rfl
@[simp] theorem Dev.setB_free (d : Dev) (f : Fld) (b : Bool) : (d.setB f b).free = d.free := rfl
@[simp] theorem Dev.setB_ax (d : Dev) (f : Fld) (b : Bool) (j : Nat) : (d.setB f b).ax j = d.ax j := rfl
@[simp] theorem Dev.setB_dec (d : Dev) (f : Fld) (b : Bool) (j : Nat) : (d.setB f b).dec j = d.dec j := rfl
@[simp] theorem Dev.setB_prf (d : Dev) (f : Fld) (b : Bool) (j : Nat) : (d.setB f b).prf j = d.prf j := rfl
@[simp] theorem Dev.setB_cmp (d : Dev) (f : Fld) (b : Bool) (j : Nat) : (d.setB f b).cmp j = d.cmp j := rfl
@[simp] theorem Dev.setB_loop (d : Dev) (f : Fld) (b : Bool) (j : Nat) : (d.setB f b).loop j = d.loop j := rfl
@[simp] theorem Dev.setB_grp (d : Dev) (f : Fld) (b : Bool) (j : Nat) : (d.setB f b).grp j = d.grp j := rfl
@[simp] theorem Dev.setB_recipe (d : Dev) (f : Fld) (b : Bool) (j : Nat) : (d.setB f b).recipe j = d.recipe j := rfl
@[simp] theorem Dev.setB_edge (d : Dev) (f : Fld) (b : Bool) (j : Nat) : (d.setB f b).edge j = d.edge j := rfl
@[simp] theorem Dev.setB_zone (d : Dev) (f : Fld) (b : Bool) (j : Nat) : (d.setB f b).zone j = d.zone j := rfl
@[simp] theorem Dev.setB_conn (d : Dev) (f : Fld) (b : Bool) (j : Nat) : (d.setB f b).conn j = d.conn j := rfl
@[simp] theorem Dev.setB_line (d : Dev) (f : Fld) (b : Bool) (j : Nat) : (d.setB f b).line j = d.line j := rfl
@[simp] theorem Dev.setB_head (d : Dev) (f : Fld) (b : Bool) (j : Nat) : (d.setB f b).head j = d.head j := rfl
@[simp] theorem Dev.setB_sk (d : Dev) (f : Fld) (b : Bool) (j : Nat) : (d.setB f b).sk j = d.sk j := rfl
@[simp] theorem Dev.setB_eng (d : Dev) (f : Fld) (b : Bool) (j : Nat) : (d.setB f b).eng j = d.eng j := rfl

@[simp] theorem Dev.setI_regsT (d : Dev) (f : Fld) (x : Int) : (d.setI f x).regsT = d.regsT := rfl
@[simp] theorem Dev.setI_mem (d : Dev) (f : Fld) (x : Int) : (d.setI f x).mem = d.mem := rfl
@[simp] theorem Dev.setI_time (d : Dev) (f : Fld) (x : Int) : (d.setI f x).time = d.time := rfl
@[simp] theorem Dev.setI_net (d : Dev) (f : Fld) (x : Int) : (d.setI f x).net = d.net := rfl
@[simp] theorem Dev.setI_easel (d : Dev) (f : Fld) (x : Int) : (d.setI f x).easel = d.easel := rfl
@[simp] theorem Dev.setI_engs (d : Dev) (f : Fld) (x : Int) : (d.setI f x).engs = d.engs := rfl
@[simp] theorem Dev.setI_axes (d : Dev) (f : Fld) (x : Int) : (d.setI f x).axes = d.axes := rfl
@[simp] theorem Dev.setI_decs (d : Dev) (f : Fld) (x : Int) : (d.setI f x).decs = d.decs := rfl
@[simp] theorem Dev.setI_prfs (d : Dev) (f : Fld) (x : Int) : (d.setI f x).prfs = d.prfs := rfl
@[simp] theorem Dev.setI_cmps (d : Dev) (f : Fld) (x : Int) : (d.setI f x).cmps = d.cmps := rfl
@[simp] theorem Dev.setI_loops (d : Dev) (f : Fld) (x : Int) : (d.setI f x).loops = d.loops := rfl
@[simp] theorem Dev.setI_grps (d : Dev) (f : Fld) (x : Int) : (d.setI f x).grps = d.grps := rfl
@[simp] theorem Dev.setI_rcp (d : Dev) (f : Fld) (x : Int) : (d.setI f x).rcp = d.rcp := rfl
@[simp] theorem Dev.setI_saf (d : Dev) (f : Fld) (x : Int) : (d.setI f x).saf = d.saf := rfl
@[simp] theorem Dev.setI_twin (d : Dev) (f : Fld) (x : Int) : (d.setI f x).twin = d.twin := rfl
@[simp] theorem Dev.setI_vn (d : Dev) (f : Fld) (x : Int) : (d.setI f x).vn = d.vn := rfl
@[simp] theorem Dev.setI_sks (d : Dev) (f : Fld) (x : Int) : (d.setI f x).sks = d.sks := rfl
@[simp] theorem Dev.setI_evts (d : Dev) (f : Fld) (x : Int) : (d.setI f x).evts = d.evts := rfl
@[simp] theorem Dev.setI_ecc (d : Dev) (f : Fld) (x : Int) : (d.setI f x).ecc = d.ecc := rfl
@[simp] theorem Dev.setI_host (d : Dev) (f : Fld) (x : Int) : (d.setI f x).host = d.host := rfl
@[simp] theorem Dev.setI_nv (d : Dev) (f : Fld) (x : Int) : (d.setI f x).nv = d.nv := rfl
@[simp] theorem Dev.setI_store (d : Dev) (f : Fld) (x : Int) : (d.setI f x).store = d.store := rfl
@[simp] theorem Dev.setI_balls (d : Dev) (f : Fld) (x : Int) : (d.setI f x).balls = d.balls := rfl
@[simp] theorem Dev.setI_mode (d : Dev) (f : Fld) (x : Int) : (d.setI f x).mode = d.mode := rfl
@[simp] theorem Dev.setI_out (d : Dev) (f : Fld) (x : Int) : (d.setI f x).out = d.out := rfl
@[simp] theorem Dev.setI_free (d : Dev) (f : Fld) (x : Int) : (d.setI f x).free = d.free := rfl
@[simp] theorem Dev.setI_ax (d : Dev) (f : Fld) (x : Int) (j : Nat) : (d.setI f x).ax j = d.ax j := rfl
@[simp] theorem Dev.setI_dec (d : Dev) (f : Fld) (x : Int) (j : Nat) : (d.setI f x).dec j = d.dec j := rfl
@[simp] theorem Dev.setI_prf (d : Dev) (f : Fld) (x : Int) (j : Nat) : (d.setI f x).prf j = d.prf j := rfl
@[simp] theorem Dev.setI_cmp (d : Dev) (f : Fld) (x : Int) (j : Nat) : (d.setI f x).cmp j = d.cmp j := rfl
@[simp] theorem Dev.setI_loop (d : Dev) (f : Fld) (x : Int) (j : Nat) : (d.setI f x).loop j = d.loop j := rfl
@[simp] theorem Dev.setI_grp (d : Dev) (f : Fld) (x : Int) (j : Nat) : (d.setI f x).grp j = d.grp j := rfl
@[simp] theorem Dev.setI_recipe (d : Dev) (f : Fld) (x : Int) (j : Nat) : (d.setI f x).recipe j = d.recipe j := rfl
@[simp] theorem Dev.setI_edge (d : Dev) (f : Fld) (x : Int) (j : Nat) : (d.setI f x).edge j = d.edge j := rfl
@[simp] theorem Dev.setI_zone (d : Dev) (f : Fld) (x : Int) (j : Nat) : (d.setI f x).zone j = d.zone j := rfl
@[simp] theorem Dev.setI_conn (d : Dev) (f : Fld) (x : Int) (j : Nat) : (d.setI f x).conn j = d.conn j := rfl
@[simp] theorem Dev.setI_line (d : Dev) (f : Fld) (x : Int) (j : Nat) : (d.setI f x).line j = d.line j := rfl
@[simp] theorem Dev.setI_head (d : Dev) (f : Fld) (x : Int) (j : Nat) : (d.setI f x).head j = d.head j := rfl
@[simp] theorem Dev.setI_sk (d : Dev) (f : Fld) (x : Int) (j : Nat) : (d.setI f x).sk j = d.sk j := rfl
@[simp] theorem Dev.setI_eng (d : Dev) (f : Fld) (x : Int) (j : Nat) : (d.setI f x).eng j = d.eng j := rfl

@[simp] theorem Dev.bump_regsT (d : Dev) (f : Fld) (n : Nat) : (d.bump f n).regsT = d.regsT := rfl
@[simp] theorem Dev.bump_mem (d : Dev) (f : Fld) (n : Nat) : (d.bump f n).mem = d.mem := rfl
@[simp] theorem Dev.bump_time (d : Dev) (f : Fld) (n : Nat) : (d.bump f n).time = d.time := rfl
@[simp] theorem Dev.bump_net (d : Dev) (f : Fld) (n : Nat) : (d.bump f n).net = d.net := rfl
@[simp] theorem Dev.bump_easel (d : Dev) (f : Fld) (n : Nat) : (d.bump f n).easel = d.easel := rfl
@[simp] theorem Dev.bump_engs (d : Dev) (f : Fld) (n : Nat) : (d.bump f n).engs = d.engs := rfl
@[simp] theorem Dev.bump_axes (d : Dev) (f : Fld) (n : Nat) : (d.bump f n).axes = d.axes := rfl
@[simp] theorem Dev.bump_decs (d : Dev) (f : Fld) (n : Nat) : (d.bump f n).decs = d.decs := rfl
@[simp] theorem Dev.bump_prfs (d : Dev) (f : Fld) (n : Nat) : (d.bump f n).prfs = d.prfs := rfl
@[simp] theorem Dev.bump_cmps (d : Dev) (f : Fld) (n : Nat) : (d.bump f n).cmps = d.cmps := rfl
@[simp] theorem Dev.bump_loops (d : Dev) (f : Fld) (n : Nat) : (d.bump f n).loops = d.loops := rfl
@[simp] theorem Dev.bump_grps (d : Dev) (f : Fld) (n : Nat) : (d.bump f n).grps = d.grps := rfl
@[simp] theorem Dev.bump_rcp (d : Dev) (f : Fld) (n : Nat) : (d.bump f n).rcp = d.rcp := rfl
@[simp] theorem Dev.bump_saf (d : Dev) (f : Fld) (n : Nat) : (d.bump f n).saf = d.saf := rfl
@[simp] theorem Dev.bump_twin (d : Dev) (f : Fld) (n : Nat) : (d.bump f n).twin = d.twin := rfl
@[simp] theorem Dev.bump_vn (d : Dev) (f : Fld) (n : Nat) : (d.bump f n).vn = d.vn := rfl
@[simp] theorem Dev.bump_sks (d : Dev) (f : Fld) (n : Nat) : (d.bump f n).sks = d.sks := rfl
@[simp] theorem Dev.bump_evts (d : Dev) (f : Fld) (n : Nat) : (d.bump f n).evts = d.evts := rfl
@[simp] theorem Dev.bump_ecc (d : Dev) (f : Fld) (n : Nat) : (d.bump f n).ecc = d.ecc := rfl
@[simp] theorem Dev.bump_host (d : Dev) (f : Fld) (n : Nat) : (d.bump f n).host = d.host := rfl
@[simp] theorem Dev.bump_nv (d : Dev) (f : Fld) (n : Nat) : (d.bump f n).nv = d.nv := rfl
@[simp] theorem Dev.bump_store (d : Dev) (f : Fld) (n : Nat) : (d.bump f n).store = d.store := rfl
@[simp] theorem Dev.bump_balls (d : Dev) (f : Fld) (n : Nat) : (d.bump f n).balls = d.balls := rfl
@[simp] theorem Dev.bump_mode (d : Dev) (f : Fld) (n : Nat) : (d.bump f n).mode = d.mode := rfl
@[simp] theorem Dev.bump_out (d : Dev) (f : Fld) (n : Nat) : (d.bump f n).out = d.out := rfl
@[simp] theorem Dev.bump_free (d : Dev) (f : Fld) (n : Nat) : (d.bump f n).free = d.free := rfl
@[simp] theorem Dev.bump_ax (d : Dev) (f : Fld) (n : Nat) (j : Nat) : (d.bump f n).ax j = d.ax j := rfl
@[simp] theorem Dev.bump_dec (d : Dev) (f : Fld) (n : Nat) (j : Nat) : (d.bump f n).dec j = d.dec j := rfl
@[simp] theorem Dev.bump_prf (d : Dev) (f : Fld) (n : Nat) (j : Nat) : (d.bump f n).prf j = d.prf j := rfl
@[simp] theorem Dev.bump_cmp (d : Dev) (f : Fld) (n : Nat) (j : Nat) : (d.bump f n).cmp j = d.cmp j := rfl
@[simp] theorem Dev.bump_loop (d : Dev) (f : Fld) (n : Nat) (j : Nat) : (d.bump f n).loop j = d.loop j := rfl
@[simp] theorem Dev.bump_grp (d : Dev) (f : Fld) (n : Nat) (j : Nat) : (d.bump f n).grp j = d.grp j := rfl
@[simp] theorem Dev.bump_recipe (d : Dev) (f : Fld) (n : Nat) (j : Nat) : (d.bump f n).recipe j = d.recipe j := rfl
@[simp] theorem Dev.bump_edge (d : Dev) (f : Fld) (n : Nat) (j : Nat) : (d.bump f n).edge j = d.edge j := rfl
@[simp] theorem Dev.bump_zone (d : Dev) (f : Fld) (n : Nat) (j : Nat) : (d.bump f n).zone j = d.zone j := rfl
@[simp] theorem Dev.bump_conn (d : Dev) (f : Fld) (n : Nat) (j : Nat) : (d.bump f n).conn j = d.conn j := rfl
@[simp] theorem Dev.bump_line (d : Dev) (f : Fld) (n : Nat) (j : Nat) : (d.bump f n).line j = d.line j := rfl
@[simp] theorem Dev.bump_head (d : Dev) (f : Fld) (n : Nat) (j : Nat) : (d.bump f n).head j = d.head j := rfl
@[simp] theorem Dev.bump_sk (d : Dev) (f : Fld) (n : Nat) (j : Nat) : (d.bump f n).sk j = d.sk j := rfl
@[simp] theorem Dev.bump_eng (d : Dev) (f : Fld) (n : Nat) (j : Nat) : (d.bump f n).eng j = d.eng j := rfl

@[simp] theorem Dev.bumpMod_regsT (d : Dev) (f : Fld) (n : Nat) : (d.bumpMod f n).regsT = d.regsT := rfl
@[simp] theorem Dev.bumpMod_mem (d : Dev) (f : Fld) (n : Nat) : (d.bumpMod f n).mem = d.mem := rfl
@[simp] theorem Dev.bumpMod_time (d : Dev) (f : Fld) (n : Nat) : (d.bumpMod f n).time = d.time := rfl
@[simp] theorem Dev.bumpMod_net (d : Dev) (f : Fld) (n : Nat) : (d.bumpMod f n).net = d.net := rfl
@[simp] theorem Dev.bumpMod_easel (d : Dev) (f : Fld) (n : Nat) : (d.bumpMod f n).easel = d.easel := rfl
@[simp] theorem Dev.bumpMod_engs (d : Dev) (f : Fld) (n : Nat) : (d.bumpMod f n).engs = d.engs := rfl
@[simp] theorem Dev.bumpMod_axes (d : Dev) (f : Fld) (n : Nat) : (d.bumpMod f n).axes = d.axes := rfl
@[simp] theorem Dev.bumpMod_decs (d : Dev) (f : Fld) (n : Nat) : (d.bumpMod f n).decs = d.decs := rfl
@[simp] theorem Dev.bumpMod_prfs (d : Dev) (f : Fld) (n : Nat) : (d.bumpMod f n).prfs = d.prfs := rfl
@[simp] theorem Dev.bumpMod_cmps (d : Dev) (f : Fld) (n : Nat) : (d.bumpMod f n).cmps = d.cmps := rfl
@[simp] theorem Dev.bumpMod_loops (d : Dev) (f : Fld) (n : Nat) : (d.bumpMod f n).loops = d.loops := rfl
@[simp] theorem Dev.bumpMod_grps (d : Dev) (f : Fld) (n : Nat) : (d.bumpMod f n).grps = d.grps := rfl
@[simp] theorem Dev.bumpMod_rcp (d : Dev) (f : Fld) (n : Nat) : (d.bumpMod f n).rcp = d.rcp := rfl
@[simp] theorem Dev.bumpMod_saf (d : Dev) (f : Fld) (n : Nat) : (d.bumpMod f n).saf = d.saf := rfl
@[simp] theorem Dev.bumpMod_twin (d : Dev) (f : Fld) (n : Nat) : (d.bumpMod f n).twin = d.twin := rfl
@[simp] theorem Dev.bumpMod_vn (d : Dev) (f : Fld) (n : Nat) : (d.bumpMod f n).vn = d.vn := rfl
@[simp] theorem Dev.bumpMod_sks (d : Dev) (f : Fld) (n : Nat) : (d.bumpMod f n).sks = d.sks := rfl
@[simp] theorem Dev.bumpMod_evts (d : Dev) (f : Fld) (n : Nat) : (d.bumpMod f n).evts = d.evts := rfl
@[simp] theorem Dev.bumpMod_ecc (d : Dev) (f : Fld) (n : Nat) : (d.bumpMod f n).ecc = d.ecc := rfl
@[simp] theorem Dev.bumpMod_host (d : Dev) (f : Fld) (n : Nat) : (d.bumpMod f n).host = d.host := rfl
@[simp] theorem Dev.bumpMod_nv (d : Dev) (f : Fld) (n : Nat) : (d.bumpMod f n).nv = d.nv := rfl
@[simp] theorem Dev.bumpMod_store (d : Dev) (f : Fld) (n : Nat) : (d.bumpMod f n).store = d.store := rfl
@[simp] theorem Dev.bumpMod_balls (d : Dev) (f : Fld) (n : Nat) : (d.bumpMod f n).balls = d.balls := rfl
@[simp] theorem Dev.bumpMod_mode (d : Dev) (f : Fld) (n : Nat) : (d.bumpMod f n).mode = d.mode := rfl
@[simp] theorem Dev.bumpMod_out (d : Dev) (f : Fld) (n : Nat) : (d.bumpMod f n).out = d.out := rfl
@[simp] theorem Dev.bumpMod_free (d : Dev) (f : Fld) (n : Nat) : (d.bumpMod f n).free = d.free := rfl
@[simp] theorem Dev.bumpMod_ax (d : Dev) (f : Fld) (n : Nat) (j : Nat) : (d.bumpMod f n).ax j = d.ax j := rfl
@[simp] theorem Dev.bumpMod_dec (d : Dev) (f : Fld) (n : Nat) (j : Nat) : (d.bumpMod f n).dec j = d.dec j := rfl
@[simp] theorem Dev.bumpMod_prf (d : Dev) (f : Fld) (n : Nat) (j : Nat) : (d.bumpMod f n).prf j = d.prf j := rfl
@[simp] theorem Dev.bumpMod_cmp (d : Dev) (f : Fld) (n : Nat) (j : Nat) : (d.bumpMod f n).cmp j = d.cmp j := rfl
@[simp] theorem Dev.bumpMod_loop (d : Dev) (f : Fld) (n : Nat) (j : Nat) : (d.bumpMod f n).loop j = d.loop j := rfl
@[simp] theorem Dev.bumpMod_grp (d : Dev) (f : Fld) (n : Nat) (j : Nat) : (d.bumpMod f n).grp j = d.grp j := rfl
@[simp] theorem Dev.bumpMod_recipe (d : Dev) (f : Fld) (n : Nat) (j : Nat) : (d.bumpMod f n).recipe j = d.recipe j := rfl
@[simp] theorem Dev.bumpMod_edge (d : Dev) (f : Fld) (n : Nat) (j : Nat) : (d.bumpMod f n).edge j = d.edge j := rfl
@[simp] theorem Dev.bumpMod_zone (d : Dev) (f : Fld) (n : Nat) (j : Nat) : (d.bumpMod f n).zone j = d.zone j := rfl
@[simp] theorem Dev.bumpMod_conn (d : Dev) (f : Fld) (n : Nat) (j : Nat) : (d.bumpMod f n).conn j = d.conn j := rfl
@[simp] theorem Dev.bumpMod_line (d : Dev) (f : Fld) (n : Nat) (j : Nat) : (d.bumpMod f n).line j = d.line j := rfl
@[simp] theorem Dev.bumpMod_head (d : Dev) (f : Fld) (n : Nat) (j : Nat) : (d.bumpMod f n).head j = d.head j := rfl
@[simp] theorem Dev.bumpMod_sk (d : Dev) (f : Fld) (n : Nat) (j : Nat) : (d.bumpMod f n).sk j = d.sk j := rfl
@[simp] theorem Dev.bumpMod_eng (d : Dev) (f : Fld) (n : Nat) (j : Nat) : (d.bumpMod f n).eng j = d.eng j := rfl

@[simp] theorem Dev.emit_regs (d : Dev) (o : Out) : (d.emit o).regs = d.regs := rfl
@[simp] theorem Dev.emit_regsT (d : Dev) (o : Out) : (d.emit o).regsT = d.regsT := rfl
@[simp] theorem Dev.emit_mem (d : Dev) (o : Out) : (d.emit o).mem = d.mem := rfl
@[simp] theorem Dev.emit_time (d : Dev) (o : Out) : (d.emit o).time = d.time := rfl
@[simp] theorem Dev.emit_net (d : Dev) (o : Out) : (d.emit o).net = d.net := rfl
@[simp] theorem Dev.emit_easel (d : Dev) (o : Out) : (d.emit o).easel = d.easel := rfl
@[simp] theorem Dev.emit_engs (d : Dev) (o : Out) : (d.emit o).engs = d.engs := rfl
@[simp] theorem Dev.emit_axes (d : Dev) (o : Out) : (d.emit o).axes = d.axes := rfl
@[simp] theorem Dev.emit_decs (d : Dev) (o : Out) : (d.emit o).decs = d.decs := rfl
@[simp] theorem Dev.emit_prfs (d : Dev) (o : Out) : (d.emit o).prfs = d.prfs := rfl
@[simp] theorem Dev.emit_cmps (d : Dev) (o : Out) : (d.emit o).cmps = d.cmps := rfl
@[simp] theorem Dev.emit_loops (d : Dev) (o : Out) : (d.emit o).loops = d.loops := rfl
@[simp] theorem Dev.emit_grps (d : Dev) (o : Out) : (d.emit o).grps = d.grps := rfl
@[simp] theorem Dev.emit_rcp (d : Dev) (o : Out) : (d.emit o).rcp = d.rcp := rfl
@[simp] theorem Dev.emit_saf (d : Dev) (o : Out) : (d.emit o).saf = d.saf := rfl
@[simp] theorem Dev.emit_twin (d : Dev) (o : Out) : (d.emit o).twin = d.twin := rfl
@[simp] theorem Dev.emit_vn (d : Dev) (o : Out) : (d.emit o).vn = d.vn := rfl
@[simp] theorem Dev.emit_sks (d : Dev) (o : Out) : (d.emit o).sks = d.sks := rfl
@[simp] theorem Dev.emit_evts (d : Dev) (o : Out) : (d.emit o).evts = d.evts := rfl
@[simp] theorem Dev.emit_ecc (d : Dev) (o : Out) : (d.emit o).ecc = d.ecc := rfl
@[simp] theorem Dev.emit_host (d : Dev) (o : Out) : (d.emit o).host = d.host := rfl
@[simp] theorem Dev.emit_nv (d : Dev) (o : Out) : (d.emit o).nv = d.nv := rfl
@[simp] theorem Dev.emit_store (d : Dev) (o : Out) : (d.emit o).store = d.store := rfl
@[simp] theorem Dev.emit_balls (d : Dev) (o : Out) : (d.emit o).balls = d.balls := rfl
@[simp] theorem Dev.emit_mode (d : Dev) (o : Out) : (d.emit o).mode = d.mode := rfl
@[simp] theorem Dev.emit_free (d : Dev) (o : Out) : (d.emit o).free = d.free := rfl
@[simp] theorem Dev.emit_rd (d : Dev) (o : Out) (j : Nat) : (d.emit o).rd j = d.rd j := rfl
@[simp] theorem Dev.emit_fld (d : Dev) (o : Out) (h : Fld) : (d.emit o).fld h = d.fld h := rfl
@[simp] theorem Dev.emit_flag (d : Dev) (o : Out) (h : Fld) : (d.emit o).flag h = d.flag h := rfl
@[simp] theorem Dev.emit_ax (d : Dev) (o : Out) (j : Nat) : (d.emit o).ax j = d.ax j := rfl
@[simp] theorem Dev.emit_dec (d : Dev) (o : Out) (j : Nat) : (d.emit o).dec j = d.dec j := rfl
@[simp] theorem Dev.emit_prf (d : Dev) (o : Out) (j : Nat) : (d.emit o).prf j = d.prf j := rfl
@[simp] theorem Dev.emit_cmp (d : Dev) (o : Out) (j : Nat) : (d.emit o).cmp j = d.cmp j := rfl
@[simp] theorem Dev.emit_loop (d : Dev) (o : Out) (j : Nat) : (d.emit o).loop j = d.loop j := rfl
@[simp] theorem Dev.emit_grp (d : Dev) (o : Out) (j : Nat) : (d.emit o).grp j = d.grp j := rfl
@[simp] theorem Dev.emit_recipe (d : Dev) (o : Out) (j : Nat) : (d.emit o).recipe j = d.recipe j := rfl
@[simp] theorem Dev.emit_edge (d : Dev) (o : Out) (j : Nat) : (d.emit o).edge j = d.edge j := rfl
@[simp] theorem Dev.emit_zone (d : Dev) (o : Out) (j : Nat) : (d.emit o).zone j = d.zone j := rfl
@[simp] theorem Dev.emit_conn (d : Dev) (o : Out) (j : Nat) : (d.emit o).conn j = d.conn j := rfl
@[simp] theorem Dev.emit_line (d : Dev) (o : Out) (j : Nat) : (d.emit o).line j = d.line j := rfl
@[simp] theorem Dev.emit_head (d : Dev) (o : Out) (j : Nat) : (d.emit o).head j = d.head j := rfl
@[simp] theorem Dev.emit_sk (d : Dev) (o : Out) (j : Nat) : (d.emit o).sk j = d.sk j := rfl
@[simp] theorem Dev.emit_eng (d : Dev) (o : Out) (j : Nat) : (d.emit o).eng j = d.eng j := rfl

@[simp] theorem Dev.record_regs (d : Dev) (e : EvRec) : (d.record e).regs = d.regs := rfl
@[simp] theorem Dev.record_regsT (d : Dev) (e : EvRec) : (d.record e).regsT = d.regsT := rfl
@[simp] theorem Dev.record_mem (d : Dev) (e : EvRec) : (d.record e).mem = d.mem := rfl
@[simp] theorem Dev.record_time (d : Dev) (e : EvRec) : (d.record e).time = d.time := rfl
@[simp] theorem Dev.record_net (d : Dev) (e : EvRec) : (d.record e).net = d.net := rfl
@[simp] theorem Dev.record_easel (d : Dev) (e : EvRec) : (d.record e).easel = d.easel := rfl
@[simp] theorem Dev.record_engs (d : Dev) (e : EvRec) : (d.record e).engs = d.engs := rfl
@[simp] theorem Dev.record_axes (d : Dev) (e : EvRec) : (d.record e).axes = d.axes := rfl
@[simp] theorem Dev.record_decs (d : Dev) (e : EvRec) : (d.record e).decs = d.decs := rfl
@[simp] theorem Dev.record_prfs (d : Dev) (e : EvRec) : (d.record e).prfs = d.prfs := rfl
@[simp] theorem Dev.record_cmps (d : Dev) (e : EvRec) : (d.record e).cmps = d.cmps := rfl
@[simp] theorem Dev.record_loops (d : Dev) (e : EvRec) : (d.record e).loops = d.loops := rfl
@[simp] theorem Dev.record_grps (d : Dev) (e : EvRec) : (d.record e).grps = d.grps := rfl
@[simp] theorem Dev.record_rcp (d : Dev) (e : EvRec) : (d.record e).rcp = d.rcp := rfl
@[simp] theorem Dev.record_saf (d : Dev) (e : EvRec) : (d.record e).saf = d.saf := rfl
@[simp] theorem Dev.record_twin (d : Dev) (e : EvRec) : (d.record e).twin = d.twin := rfl
@[simp] theorem Dev.record_vn (d : Dev) (e : EvRec) : (d.record e).vn = d.vn := rfl
@[simp] theorem Dev.record_sks (d : Dev) (e : EvRec) : (d.record e).sks = d.sks := rfl
@[simp] theorem Dev.record_ecc (d : Dev) (e : EvRec) : (d.record e).ecc = d.ecc := rfl
@[simp] theorem Dev.record_host (d : Dev) (e : EvRec) : (d.record e).host = d.host := rfl
@[simp] theorem Dev.record_nv (d : Dev) (e : EvRec) : (d.record e).nv = d.nv := rfl
@[simp] theorem Dev.record_store (d : Dev) (e : EvRec) : (d.record e).store = d.store := rfl
@[simp] theorem Dev.record_balls (d : Dev) (e : EvRec) : (d.record e).balls = d.balls := rfl
@[simp] theorem Dev.record_mode (d : Dev) (e : EvRec) : (d.record e).mode = d.mode := rfl
@[simp] theorem Dev.record_out (d : Dev) (e : EvRec) : (d.record e).out = d.out := rfl
@[simp] theorem Dev.record_free (d : Dev) (e : EvRec) : (d.record e).free = d.free := rfl
@[simp] theorem Dev.record_rd (d : Dev) (e : EvRec) (j : Nat) : (d.record e).rd j = d.rd j := rfl
@[simp] theorem Dev.record_fld (d : Dev) (e : EvRec) (h : Fld) : (d.record e).fld h = d.fld h := rfl
@[simp] theorem Dev.record_flag (d : Dev) (e : EvRec) (h : Fld) : (d.record e).flag h = d.flag h := rfl
@[simp] theorem Dev.record_ax (d : Dev) (e : EvRec) (j : Nat) : (d.record e).ax j = d.ax j := rfl
@[simp] theorem Dev.record_dec (d : Dev) (e : EvRec) (j : Nat) : (d.record e).dec j = d.dec j := rfl
@[simp] theorem Dev.record_prf (d : Dev) (e : EvRec) (j : Nat) : (d.record e).prf j = d.prf j := rfl
@[simp] theorem Dev.record_cmp (d : Dev) (e : EvRec) (j : Nat) : (d.record e).cmp j = d.cmp j := rfl
@[simp] theorem Dev.record_loop (d : Dev) (e : EvRec) (j : Nat) : (d.record e).loop j = d.loop j := rfl
@[simp] theorem Dev.record_grp (d : Dev) (e : EvRec) (j : Nat) : (d.record e).grp j = d.grp j := rfl
@[simp] theorem Dev.record_recipe (d : Dev) (e : EvRec) (j : Nat) : (d.record e).recipe j = d.recipe j := rfl
@[simp] theorem Dev.record_edge (d : Dev) (e : EvRec) (j : Nat) : (d.record e).edge j = d.edge j := rfl
@[simp] theorem Dev.record_zone (d : Dev) (e : EvRec) (j : Nat) : (d.record e).zone j = d.zone j := rfl
@[simp] theorem Dev.record_conn (d : Dev) (e : EvRec) (j : Nat) : (d.record e).conn j = d.conn j := rfl
@[simp] theorem Dev.record_line (d : Dev) (e : EvRec) (j : Nat) : (d.record e).line j = d.line j := rfl
@[simp] theorem Dev.record_head (d : Dev) (e : EvRec) (j : Nat) : (d.record e).head j = d.head j := rfl
@[simp] theorem Dev.record_sk (d : Dev) (e : EvRec) (j : Nat) : (d.record e).sk j = d.sk j := rfl
@[simp] theorem Dev.record_eng (d : Dev) (e : EvRec) (j : Nat) : (d.record e).eng j = d.eng j := rfl

@[simp] theorem Dev.event_regsT (d : Dev) (c : Nat) (f : Fld) (i : Nat) (l : List Word) : (d.event c f i l).regsT = d.regsT := rfl
@[simp] theorem Dev.event_mem (d : Dev) (c : Nat) (f : Fld) (i : Nat) (l : List Word) : (d.event c f i l).mem = d.mem := rfl
@[simp] theorem Dev.event_time (d : Dev) (c : Nat) (f : Fld) (i : Nat) (l : List Word) : (d.event c f i l).time = d.time := rfl
@[simp] theorem Dev.event_net (d : Dev) (c : Nat) (f : Fld) (i : Nat) (l : List Word) : (d.event c f i l).net = d.net := rfl
@[simp] theorem Dev.event_easel (d : Dev) (c : Nat) (f : Fld) (i : Nat) (l : List Word) : (d.event c f i l).easel = d.easel := rfl
@[simp] theorem Dev.event_engs (d : Dev) (c : Nat) (f : Fld) (i : Nat) (l : List Word) : (d.event c f i l).engs = d.engs := rfl
@[simp] theorem Dev.event_axes (d : Dev) (c : Nat) (f : Fld) (i : Nat) (l : List Word) : (d.event c f i l).axes = d.axes := rfl
@[simp] theorem Dev.event_decs (d : Dev) (c : Nat) (f : Fld) (i : Nat) (l : List Word) : (d.event c f i l).decs = d.decs := rfl
@[simp] theorem Dev.event_prfs (d : Dev) (c : Nat) (f : Fld) (i : Nat) (l : List Word) : (d.event c f i l).prfs = d.prfs := rfl
@[simp] theorem Dev.event_cmps (d : Dev) (c : Nat) (f : Fld) (i : Nat) (l : List Word) : (d.event c f i l).cmps = d.cmps := rfl
@[simp] theorem Dev.event_loops (d : Dev) (c : Nat) (f : Fld) (i : Nat) (l : List Word) : (d.event c f i l).loops = d.loops := rfl
@[simp] theorem Dev.event_grps (d : Dev) (c : Nat) (f : Fld) (i : Nat) (l : List Word) : (d.event c f i l).grps = d.grps := rfl
@[simp] theorem Dev.event_rcp (d : Dev) (c : Nat) (f : Fld) (i : Nat) (l : List Word) : (d.event c f i l).rcp = d.rcp := rfl
@[simp] theorem Dev.event_saf (d : Dev) (c : Nat) (f : Fld) (i : Nat) (l : List Word) : (d.event c f i l).saf = d.saf := rfl
@[simp] theorem Dev.event_twin (d : Dev) (c : Nat) (f : Fld) (i : Nat) (l : List Word) : (d.event c f i l).twin = d.twin := rfl
@[simp] theorem Dev.event_vn (d : Dev) (c : Nat) (f : Fld) (i : Nat) (l : List Word) : (d.event c f i l).vn = d.vn := rfl
@[simp] theorem Dev.event_sks (d : Dev) (c : Nat) (f : Fld) (i : Nat) (l : List Word) : (d.event c f i l).sks = d.sks := rfl
@[simp] theorem Dev.event_ecc (d : Dev) (c : Nat) (f : Fld) (i : Nat) (l : List Word) : (d.event c f i l).ecc = d.ecc := rfl
@[simp] theorem Dev.event_host (d : Dev) (c : Nat) (f : Fld) (i : Nat) (l : List Word) : (d.event c f i l).host = d.host := rfl
@[simp] theorem Dev.event_nv (d : Dev) (c : Nat) (f : Fld) (i : Nat) (l : List Word) : (d.event c f i l).nv = d.nv := rfl
@[simp] theorem Dev.event_store (d : Dev) (c : Nat) (f : Fld) (i : Nat) (l : List Word) : (d.event c f i l).store = d.store := rfl
@[simp] theorem Dev.event_balls (d : Dev) (c : Nat) (f : Fld) (i : Nat) (l : List Word) : (d.event c f i l).balls = d.balls := rfl
@[simp] theorem Dev.event_mode (d : Dev) (c : Nat) (f : Fld) (i : Nat) (l : List Word) : (d.event c f i l).mode = d.mode := rfl
@[simp] theorem Dev.event_out (d : Dev) (c : Nat) (f : Fld) (i : Nat) (l : List Word) : (d.event c f i l).out = d.out := rfl
@[simp] theorem Dev.event_free (d : Dev) (c : Nat) (f : Fld) (i : Nat) (l : List Word) : (d.event c f i l).free = d.free := rfl
@[simp] theorem Dev.event_ax (d : Dev) (c : Nat) (f : Fld) (i : Nat) (l : List Word) (j : Nat) : (d.event c f i l).ax j = d.ax j := rfl
@[simp] theorem Dev.event_dec (d : Dev) (c : Nat) (f : Fld) (i : Nat) (l : List Word) (j : Nat) : (d.event c f i l).dec j = d.dec j := rfl
@[simp] theorem Dev.event_prf (d : Dev) (c : Nat) (f : Fld) (i : Nat) (l : List Word) (j : Nat) : (d.event c f i l).prf j = d.prf j := rfl
@[simp] theorem Dev.event_cmp (d : Dev) (c : Nat) (f : Fld) (i : Nat) (l : List Word) (j : Nat) : (d.event c f i l).cmp j = d.cmp j := rfl
@[simp] theorem Dev.event_loop (d : Dev) (c : Nat) (f : Fld) (i : Nat) (l : List Word) (j : Nat) : (d.event c f i l).loop j = d.loop j := rfl
@[simp] theorem Dev.event_grp (d : Dev) (c : Nat) (f : Fld) (i : Nat) (l : List Word) (j : Nat) : (d.event c f i l).grp j = d.grp j := rfl
@[simp] theorem Dev.event_recipe (d : Dev) (c : Nat) (f : Fld) (i : Nat) (l : List Word) (j : Nat) : (d.event c f i l).recipe j = d.recipe j := rfl
@[simp] theorem Dev.event_edge (d : Dev) (c : Nat) (f : Fld) (i : Nat) (l : List Word) (j : Nat) : (d.event c f i l).edge j = d.edge j := rfl
@[simp] theorem Dev.event_zone (d : Dev) (c : Nat) (f : Fld) (i : Nat) (l : List Word) (j : Nat) : (d.event c f i l).zone j = d.zone j := rfl
@[simp] theorem Dev.event_conn (d : Dev) (c : Nat) (f : Fld) (i : Nat) (l : List Word) (j : Nat) : (d.event c f i l).conn j = d.conn j := rfl
@[simp] theorem Dev.event_line (d : Dev) (c : Nat) (f : Fld) (i : Nat) (l : List Word) (j : Nat) : (d.event c f i l).line j = d.line j := rfl
@[simp] theorem Dev.event_head (d : Dev) (c : Nat) (f : Fld) (i : Nat) (l : List Word) (j : Nat) : (d.event c f i l).head j = d.head j := rfl
@[simp] theorem Dev.event_sk (d : Dev) (c : Nat) (f : Fld) (i : Nat) (l : List Word) (j : Nat) : (d.event c f i l).sk j = d.sk j := rfl
@[simp] theorem Dev.event_eng (d : Dev) (c : Nat) (f : Fld) (i : Nat) (l : List Word) (j : Nat) : (d.event c f i l).eng j = d.eng j := rfl

@[simp] theorem Dev.note_regs (d : Dev) (c u i : Nat) (l : List Word) : (d.note c u i l).regs = d.regs := rfl
@[simp] theorem Dev.note_regsT (d : Dev) (c u i : Nat) (l : List Word) : (d.note c u i l).regsT = d.regsT := rfl
@[simp] theorem Dev.note_mem (d : Dev) (c u i : Nat) (l : List Word) : (d.note c u i l).mem = d.mem := rfl
@[simp] theorem Dev.note_time (d : Dev) (c u i : Nat) (l : List Word) : (d.note c u i l).time = d.time := rfl
@[simp] theorem Dev.note_net (d : Dev) (c u i : Nat) (l : List Word) : (d.note c u i l).net = d.net := rfl
@[simp] theorem Dev.note_easel (d : Dev) (c u i : Nat) (l : List Word) : (d.note c u i l).easel = d.easel := rfl
@[simp] theorem Dev.note_engs (d : Dev) (c u i : Nat) (l : List Word) : (d.note c u i l).engs = d.engs := rfl
@[simp] theorem Dev.note_axes (d : Dev) (c u i : Nat) (l : List Word) : (d.note c u i l).axes = d.axes := rfl
@[simp] theorem Dev.note_decs (d : Dev) (c u i : Nat) (l : List Word) : (d.note c u i l).decs = d.decs := rfl
@[simp] theorem Dev.note_prfs (d : Dev) (c u i : Nat) (l : List Word) : (d.note c u i l).prfs = d.prfs := rfl
@[simp] theorem Dev.note_cmps (d : Dev) (c u i : Nat) (l : List Word) : (d.note c u i l).cmps = d.cmps := rfl
@[simp] theorem Dev.note_loops (d : Dev) (c u i : Nat) (l : List Word) : (d.note c u i l).loops = d.loops := rfl
@[simp] theorem Dev.note_grps (d : Dev) (c u i : Nat) (l : List Word) : (d.note c u i l).grps = d.grps := rfl
@[simp] theorem Dev.note_rcp (d : Dev) (c u i : Nat) (l : List Word) : (d.note c u i l).rcp = d.rcp := rfl
@[simp] theorem Dev.note_saf (d : Dev) (c u i : Nat) (l : List Word) : (d.note c u i l).saf = d.saf := rfl
@[simp] theorem Dev.note_twin (d : Dev) (c u i : Nat) (l : List Word) : (d.note c u i l).twin = d.twin := rfl
@[simp] theorem Dev.note_vn (d : Dev) (c u i : Nat) (l : List Word) : (d.note c u i l).vn = d.vn := rfl
@[simp] theorem Dev.note_sks (d : Dev) (c u i : Nat) (l : List Word) : (d.note c u i l).sks = d.sks := rfl
@[simp] theorem Dev.note_ecc (d : Dev) (c u i : Nat) (l : List Word) : (d.note c u i l).ecc = d.ecc := rfl
@[simp] theorem Dev.note_host (d : Dev) (c u i : Nat) (l : List Word) : (d.note c u i l).host = d.host := rfl
@[simp] theorem Dev.note_nv (d : Dev) (c u i : Nat) (l : List Word) : (d.note c u i l).nv = d.nv := rfl
@[simp] theorem Dev.note_store (d : Dev) (c u i : Nat) (l : List Word) : (d.note c u i l).store = d.store := rfl
@[simp] theorem Dev.note_balls (d : Dev) (c u i : Nat) (l : List Word) : (d.note c u i l).balls = d.balls := rfl
@[simp] theorem Dev.note_mode (d : Dev) (c u i : Nat) (l : List Word) : (d.note c u i l).mode = d.mode := rfl
@[simp] theorem Dev.note_out (d : Dev) (c u i : Nat) (l : List Word) : (d.note c u i l).out = d.out := rfl
@[simp] theorem Dev.note_free (d : Dev) (c u i : Nat) (l : List Word) : (d.note c u i l).free = d.free := rfl
@[simp] theorem Dev.note_rd (d : Dev) (c u i : Nat) (l : List Word) (j : Nat) : (d.note c u i l).rd j = d.rd j := rfl
@[simp] theorem Dev.note_fld (d : Dev) (c u i : Nat) (l : List Word) (h : Fld) : (d.note c u i l).fld h = d.fld h := rfl
@[simp] theorem Dev.note_flag (d : Dev) (c u i : Nat) (l : List Word) (h : Fld) : (d.note c u i l).flag h = d.flag h := rfl
@[simp] theorem Dev.note_ax (d : Dev) (c u i : Nat) (l : List Word) (j : Nat) : (d.note c u i l).ax j = d.ax j := rfl
@[simp] theorem Dev.note_dec (d : Dev) (c u i : Nat) (l : List Word) (j : Nat) : (d.note c u i l).dec j = d.dec j := rfl
@[simp] theorem Dev.note_prf (d : Dev) (c u i : Nat) (l : List Word) (j : Nat) : (d.note c u i l).prf j = d.prf j := rfl
@[simp] theorem Dev.note_cmp (d : Dev) (c u i : Nat) (l : List Word) (j : Nat) : (d.note c u i l).cmp j = d.cmp j := rfl
@[simp] theorem Dev.note_loop (d : Dev) (c u i : Nat) (l : List Word) (j : Nat) : (d.note c u i l).loop j = d.loop j := rfl
@[simp] theorem Dev.note_grp (d : Dev) (c u i : Nat) (l : List Word) (j : Nat) : (d.note c u i l).grp j = d.grp j := rfl
@[simp] theorem Dev.note_recipe (d : Dev) (c u i : Nat) (l : List Word) (j : Nat) : (d.note c u i l).recipe j = d.recipe j := rfl
@[simp] theorem Dev.note_edge (d : Dev) (c u i : Nat) (l : List Word) (j : Nat) : (d.note c u i l).edge j = d.edge j := rfl
@[simp] theorem Dev.note_zone (d : Dev) (c u i : Nat) (l : List Word) (j : Nat) : (d.note c u i l).zone j = d.zone j := rfl
@[simp] theorem Dev.note_conn (d : Dev) (c u i : Nat) (l : List Word) (j : Nat) : (d.note c u i l).conn j = d.conn j := rfl
@[simp] theorem Dev.note_line (d : Dev) (c u i : Nat) (l : List Word) (j : Nat) : (d.note c u i l).line j = d.line j := rfl
@[simp] theorem Dev.note_head (d : Dev) (c u i : Nat) (l : List Word) (j : Nat) : (d.note c u i l).head j = d.head j := rfl
@[simp] theorem Dev.note_sk (d : Dev) (c u i : Nat) (l : List Word) (j : Nat) : (d.note c u i l).sk j = d.sk j := rfl
@[simp] theorem Dev.note_eng (d : Dev) (c u i : Nat) (l : List Word) (j : Nat) : (d.note c u i l).eng j = d.eng j := rfl

@[simp] theorem Dev.noteRej_regs (d : Dev) (r i : Nat) : (d.noteRej r i).regs = d.regs := rfl
@[simp] theorem Dev.noteRej_regsT (d : Dev) (r i : Nat) : (d.noteRej r i).regsT = d.regsT := rfl
@[simp] theorem Dev.noteRej_mem (d : Dev) (r i : Nat) : (d.noteRej r i).mem = d.mem := rfl
@[simp] theorem Dev.noteRej_time (d : Dev) (r i : Nat) : (d.noteRej r i).time = d.time := rfl
@[simp] theorem Dev.noteRej_net (d : Dev) (r i : Nat) : (d.noteRej r i).net = d.net := rfl
@[simp] theorem Dev.noteRej_easel (d : Dev) (r i : Nat) : (d.noteRej r i).easel = d.easel := rfl
@[simp] theorem Dev.noteRej_engs (d : Dev) (r i : Nat) : (d.noteRej r i).engs = d.engs := rfl
@[simp] theorem Dev.noteRej_axes (d : Dev) (r i : Nat) : (d.noteRej r i).axes = d.axes := rfl
@[simp] theorem Dev.noteRej_decs (d : Dev) (r i : Nat) : (d.noteRej r i).decs = d.decs := rfl
@[simp] theorem Dev.noteRej_prfs (d : Dev) (r i : Nat) : (d.noteRej r i).prfs = d.prfs := rfl
@[simp] theorem Dev.noteRej_cmps (d : Dev) (r i : Nat) : (d.noteRej r i).cmps = d.cmps := rfl
@[simp] theorem Dev.noteRej_loops (d : Dev) (r i : Nat) : (d.noteRej r i).loops = d.loops := rfl
@[simp] theorem Dev.noteRej_grps (d : Dev) (r i : Nat) : (d.noteRej r i).grps = d.grps := rfl
@[simp] theorem Dev.noteRej_rcp (d : Dev) (r i : Nat) : (d.noteRej r i).rcp = d.rcp := rfl
@[simp] theorem Dev.noteRej_saf (d : Dev) (r i : Nat) : (d.noteRej r i).saf = d.saf := rfl
@[simp] theorem Dev.noteRej_twin (d : Dev) (r i : Nat) : (d.noteRej r i).twin = d.twin := rfl
@[simp] theorem Dev.noteRej_vn (d : Dev) (r i : Nat) : (d.noteRej r i).vn = d.vn := rfl
@[simp] theorem Dev.noteRej_sks (d : Dev) (r i : Nat) : (d.noteRej r i).sks = d.sks := rfl
@[simp] theorem Dev.noteRej_ecc (d : Dev) (r i : Nat) : (d.noteRej r i).ecc = d.ecc := rfl
@[simp] theorem Dev.noteRej_host (d : Dev) (r i : Nat) : (d.noteRej r i).host = d.host := rfl
@[simp] theorem Dev.noteRej_nv (d : Dev) (r i : Nat) : (d.noteRej r i).nv = d.nv := rfl
@[simp] theorem Dev.noteRej_store (d : Dev) (r i : Nat) : (d.noteRej r i).store = d.store := rfl
@[simp] theorem Dev.noteRej_balls (d : Dev) (r i : Nat) : (d.noteRej r i).balls = d.balls := rfl
@[simp] theorem Dev.noteRej_mode (d : Dev) (r i : Nat) : (d.noteRej r i).mode = d.mode := rfl
@[simp] theorem Dev.noteRej_out (d : Dev) (r i : Nat) : (d.noteRej r i).out = d.out := rfl
@[simp] theorem Dev.noteRej_free (d : Dev) (r i : Nat) : (d.noteRej r i).free = d.free := rfl
@[simp] theorem Dev.noteRej_rd (d : Dev) (r i : Nat) (j : Nat) : (d.noteRej r i).rd j = d.rd j := rfl
@[simp] theorem Dev.noteRej_fld (d : Dev) (r i : Nat) (h : Fld) : (d.noteRej r i).fld h = d.fld h := rfl
@[simp] theorem Dev.noteRej_flag (d : Dev) (r i : Nat) (h : Fld) : (d.noteRej r i).flag h = d.flag h := rfl
@[simp] theorem Dev.noteRej_ax (d : Dev) (r i : Nat) (j : Nat) : (d.noteRej r i).ax j = d.ax j := rfl
@[simp] theorem Dev.noteRej_dec (d : Dev) (r i : Nat) (j : Nat) : (d.noteRej r i).dec j = d.dec j := rfl
@[simp] theorem Dev.noteRej_prf (d : Dev) (r i : Nat) (j : Nat) : (d.noteRej r i).prf j = d.prf j := rfl
@[simp] theorem Dev.noteRej_cmp (d : Dev) (r i : Nat) (j : Nat) : (d.noteRej r i).cmp j = d.cmp j := rfl
@[simp] theorem Dev.noteRej_loop (d : Dev) (r i : Nat) (j : Nat) : (d.noteRej r i).loop j = d.loop j := rfl
@[simp] theorem Dev.noteRej_grp (d : Dev) (r i : Nat) (j : Nat) : (d.noteRej r i).grp j = d.grp j := rfl
@[simp] theorem Dev.noteRej_recipe (d : Dev) (r i : Nat) (j : Nat) : (d.noteRej r i).recipe j = d.recipe j := rfl
@[simp] theorem Dev.noteRej_edge (d : Dev) (r i : Nat) (j : Nat) : (d.noteRej r i).edge j = d.edge j := rfl
@[simp] theorem Dev.noteRej_zone (d : Dev) (r i : Nat) (j : Nat) : (d.noteRej r i).zone j = d.zone j := rfl
@[simp] theorem Dev.noteRej_conn (d : Dev) (r i : Nat) (j : Nat) : (d.noteRej r i).conn j = d.conn j := rfl
@[simp] theorem Dev.noteRej_line (d : Dev) (r i : Nat) (j : Nat) : (d.noteRej r i).line j = d.line j := rfl
@[simp] theorem Dev.noteRej_head (d : Dev) (r i : Nat) (j : Nat) : (d.noteRej r i).head j = d.head j := rfl
@[simp] theorem Dev.noteRej_sk (d : Dev) (r i : Nat) (j : Nat) : (d.noteRej r i).sk j = d.sk j := rfl
@[simp] theorem Dev.noteRej_eng (d : Dev) (r i : Nat) (j : Nat) : (d.noteRej r i).eng j = d.eng j := rfl

@[simp] theorem Dev.setFlip_regs (d : Dev) (c : Nat) (v : BitVec 13) : (d.setFlip c v).regs = d.regs := rfl
@[simp] theorem Dev.setFlip_regsT (d : Dev) (c : Nat) (v : BitVec 13) : (d.setFlip c v).regsT = d.regsT := rfl
@[simp] theorem Dev.setFlip_mem (d : Dev) (c : Nat) (v : BitVec 13) : (d.setFlip c v).mem = d.mem := rfl
@[simp] theorem Dev.setFlip_time (d : Dev) (c : Nat) (v : BitVec 13) : (d.setFlip c v).time = d.time := rfl
@[simp] theorem Dev.setFlip_net (d : Dev) (c : Nat) (v : BitVec 13) : (d.setFlip c v).net = d.net := rfl
@[simp] theorem Dev.setFlip_easel (d : Dev) (c : Nat) (v : BitVec 13) : (d.setFlip c v).easel = d.easel := rfl
@[simp] theorem Dev.setFlip_engs (d : Dev) (c : Nat) (v : BitVec 13) : (d.setFlip c v).engs = d.engs := rfl
@[simp] theorem Dev.setFlip_axes (d : Dev) (c : Nat) (v : BitVec 13) : (d.setFlip c v).axes = d.axes := rfl
@[simp] theorem Dev.setFlip_decs (d : Dev) (c : Nat) (v : BitVec 13) : (d.setFlip c v).decs = d.decs := rfl
@[simp] theorem Dev.setFlip_prfs (d : Dev) (c : Nat) (v : BitVec 13) : (d.setFlip c v).prfs = d.prfs := rfl
@[simp] theorem Dev.setFlip_cmps (d : Dev) (c : Nat) (v : BitVec 13) : (d.setFlip c v).cmps = d.cmps := rfl
@[simp] theorem Dev.setFlip_loops (d : Dev) (c : Nat) (v : BitVec 13) : (d.setFlip c v).loops = d.loops := rfl
@[simp] theorem Dev.setFlip_grps (d : Dev) (c : Nat) (v : BitVec 13) : (d.setFlip c v).grps = d.grps := rfl
@[simp] theorem Dev.setFlip_rcp (d : Dev) (c : Nat) (v : BitVec 13) : (d.setFlip c v).rcp = d.rcp := rfl
@[simp] theorem Dev.setFlip_saf (d : Dev) (c : Nat) (v : BitVec 13) : (d.setFlip c v).saf = d.saf := rfl
@[simp] theorem Dev.setFlip_twin (d : Dev) (c : Nat) (v : BitVec 13) : (d.setFlip c v).twin = d.twin := rfl
@[simp] theorem Dev.setFlip_vn (d : Dev) (c : Nat) (v : BitVec 13) : (d.setFlip c v).vn = d.vn := rfl
@[simp] theorem Dev.setFlip_sks (d : Dev) (c : Nat) (v : BitVec 13) : (d.setFlip c v).sks = d.sks := rfl
@[simp] theorem Dev.setFlip_evts (d : Dev) (c : Nat) (v : BitVec 13) : (d.setFlip c v).evts = d.evts := rfl
@[simp] theorem Dev.setFlip_host (d : Dev) (c : Nat) (v : BitVec 13) : (d.setFlip c v).host = d.host := rfl
@[simp] theorem Dev.setFlip_nv (d : Dev) (c : Nat) (v : BitVec 13) : (d.setFlip c v).nv = d.nv := rfl
@[simp] theorem Dev.setFlip_store (d : Dev) (c : Nat) (v : BitVec 13) : (d.setFlip c v).store = d.store := rfl
@[simp] theorem Dev.setFlip_balls (d : Dev) (c : Nat) (v : BitVec 13) : (d.setFlip c v).balls = d.balls := rfl
@[simp] theorem Dev.setFlip_mode (d : Dev) (c : Nat) (v : BitVec 13) : (d.setFlip c v).mode = d.mode := rfl
@[simp] theorem Dev.setFlip_out (d : Dev) (c : Nat) (v : BitVec 13) : (d.setFlip c v).out = d.out := rfl
@[simp] theorem Dev.setFlip_free (d : Dev) (c : Nat) (v : BitVec 13) : (d.setFlip c v).free = d.free := rfl
@[simp] theorem Dev.setFlip_rd (d : Dev) (c : Nat) (v : BitVec 13) (j : Nat) : (d.setFlip c v).rd j = d.rd j := rfl
@[simp] theorem Dev.setFlip_fld (d : Dev) (c : Nat) (v : BitVec 13) (h : Fld) : (d.setFlip c v).fld h = d.fld h := rfl
@[simp] theorem Dev.setFlip_flag (d : Dev) (c : Nat) (v : BitVec 13) (h : Fld) : (d.setFlip c v).flag h = d.flag h := rfl
@[simp] theorem Dev.setFlip_ax (d : Dev) (c : Nat) (v : BitVec 13) (j : Nat) : (d.setFlip c v).ax j = d.ax j := rfl
@[simp] theorem Dev.setFlip_dec (d : Dev) (c : Nat) (v : BitVec 13) (j : Nat) : (d.setFlip c v).dec j = d.dec j := rfl
@[simp] theorem Dev.setFlip_prf (d : Dev) (c : Nat) (v : BitVec 13) (j : Nat) : (d.setFlip c v).prf j = d.prf j := rfl
@[simp] theorem Dev.setFlip_cmp (d : Dev) (c : Nat) (v : BitVec 13) (j : Nat) : (d.setFlip c v).cmp j = d.cmp j := rfl
@[simp] theorem Dev.setFlip_loop (d : Dev) (c : Nat) (v : BitVec 13) (j : Nat) : (d.setFlip c v).loop j = d.loop j := rfl
@[simp] theorem Dev.setFlip_grp (d : Dev) (c : Nat) (v : BitVec 13) (j : Nat) : (d.setFlip c v).grp j = d.grp j := rfl
@[simp] theorem Dev.setFlip_recipe (d : Dev) (c : Nat) (v : BitVec 13) (j : Nat) : (d.setFlip c v).recipe j = d.recipe j := rfl
@[simp] theorem Dev.setFlip_edge (d : Dev) (c : Nat) (v : BitVec 13) (j : Nat) : (d.setFlip c v).edge j = d.edge j := rfl
@[simp] theorem Dev.setFlip_zone (d : Dev) (c : Nat) (v : BitVec 13) (j : Nat) : (d.setFlip c v).zone j = d.zone j := rfl
@[simp] theorem Dev.setFlip_conn (d : Dev) (c : Nat) (v : BitVec 13) (j : Nat) : (d.setFlip c v).conn j = d.conn j := rfl
@[simp] theorem Dev.setFlip_line (d : Dev) (c : Nat) (v : BitVec 13) (j : Nat) : (d.setFlip c v).line j = d.line j := rfl
@[simp] theorem Dev.setFlip_head (d : Dev) (c : Nat) (v : BitVec 13) (j : Nat) : (d.setFlip c v).head j = d.head j := rfl
@[simp] theorem Dev.setFlip_sk (d : Dev) (c : Nat) (v : BitVec 13) (j : Nat) : (d.setFlip c v).sk j = d.sk j := rfl
@[simp] theorem Dev.setFlip_eng (d : Dev) (c : Nat) (v : BitVec 13) (j : Nat) : (d.setFlip c v).eng j = d.eng j := rfl

@[simp] theorem Dev.healthMark_regs (d : Dev) (k : Nat) : (d.healthMark k).regs = d.regs := rfl
@[simp] theorem Dev.healthMark_regsT (d : Dev) (k : Nat) : (d.healthMark k).regsT = d.regsT := rfl
@[simp] theorem Dev.healthMark_mem (d : Dev) (k : Nat) : (d.healthMark k).mem = d.mem := rfl
@[simp] theorem Dev.healthMark_time (d : Dev) (k : Nat) : (d.healthMark k).time = d.time := rfl
@[simp] theorem Dev.healthMark_net (d : Dev) (k : Nat) : (d.healthMark k).net = d.net := rfl
@[simp] theorem Dev.healthMark_easel (d : Dev) (k : Nat) : (d.healthMark k).easel = d.easel := rfl
@[simp] theorem Dev.healthMark_engs (d : Dev) (k : Nat) : (d.healthMark k).engs = d.engs := rfl
@[simp] theorem Dev.healthMark_axes (d : Dev) (k : Nat) : (d.healthMark k).axes = d.axes := rfl
@[simp] theorem Dev.healthMark_decs (d : Dev) (k : Nat) : (d.healthMark k).decs = d.decs := rfl
@[simp] theorem Dev.healthMark_prfs (d : Dev) (k : Nat) : (d.healthMark k).prfs = d.prfs := rfl
@[simp] theorem Dev.healthMark_cmps (d : Dev) (k : Nat) : (d.healthMark k).cmps = d.cmps := rfl
@[simp] theorem Dev.healthMark_loops (d : Dev) (k : Nat) : (d.healthMark k).loops = d.loops := rfl
@[simp] theorem Dev.healthMark_grps (d : Dev) (k : Nat) : (d.healthMark k).grps = d.grps := rfl
@[simp] theorem Dev.healthMark_rcp (d : Dev) (k : Nat) : (d.healthMark k).rcp = d.rcp := rfl
@[simp] theorem Dev.healthMark_saf (d : Dev) (k : Nat) : (d.healthMark k).saf = d.saf := rfl
@[simp] theorem Dev.healthMark_vn (d : Dev) (k : Nat) : (d.healthMark k).vn = d.vn := rfl
@[simp] theorem Dev.healthMark_sks (d : Dev) (k : Nat) : (d.healthMark k).sks = d.sks := rfl
@[simp] theorem Dev.healthMark_evts (d : Dev) (k : Nat) : (d.healthMark k).evts = d.evts := rfl
@[simp] theorem Dev.healthMark_ecc (d : Dev) (k : Nat) : (d.healthMark k).ecc = d.ecc := rfl
@[simp] theorem Dev.healthMark_host (d : Dev) (k : Nat) : (d.healthMark k).host = d.host := rfl
@[simp] theorem Dev.healthMark_nv (d : Dev) (k : Nat) : (d.healthMark k).nv = d.nv := rfl
@[simp] theorem Dev.healthMark_store (d : Dev) (k : Nat) : (d.healthMark k).store = d.store := rfl
@[simp] theorem Dev.healthMark_balls (d : Dev) (k : Nat) : (d.healthMark k).balls = d.balls := rfl
@[simp] theorem Dev.healthMark_mode (d : Dev) (k : Nat) : (d.healthMark k).mode = d.mode := rfl
@[simp] theorem Dev.healthMark_out (d : Dev) (k : Nat) : (d.healthMark k).out = d.out := rfl
@[simp] theorem Dev.healthMark_free (d : Dev) (k : Nat) : (d.healthMark k).free = d.free := rfl
@[simp] theorem Dev.healthMark_rd (d : Dev) (k : Nat) (j : Nat) : (d.healthMark k).rd j = d.rd j := rfl
@[simp] theorem Dev.healthMark_fld (d : Dev) (k : Nat) (h : Fld) : (d.healthMark k).fld h = d.fld h := rfl
@[simp] theorem Dev.healthMark_flag (d : Dev) (k : Nat) (h : Fld) : (d.healthMark k).flag h = d.flag h := rfl
@[simp] theorem Dev.healthMark_ax (d : Dev) (k : Nat) (j : Nat) : (d.healthMark k).ax j = d.ax j := rfl
@[simp] theorem Dev.healthMark_dec (d : Dev) (k : Nat) (j : Nat) : (d.healthMark k).dec j = d.dec j := rfl
@[simp] theorem Dev.healthMark_prf (d : Dev) (k : Nat) (j : Nat) : (d.healthMark k).prf j = d.prf j := rfl
@[simp] theorem Dev.healthMark_cmp (d : Dev) (k : Nat) (j : Nat) : (d.healthMark k).cmp j = d.cmp j := rfl
@[simp] theorem Dev.healthMark_loop (d : Dev) (k : Nat) (j : Nat) : (d.healthMark k).loop j = d.loop j := rfl
@[simp] theorem Dev.healthMark_grp (d : Dev) (k : Nat) (j : Nat) : (d.healthMark k).grp j = d.grp j := rfl
@[simp] theorem Dev.healthMark_recipe (d : Dev) (k : Nat) (j : Nat) : (d.healthMark k).recipe j = d.recipe j := rfl
@[simp] theorem Dev.healthMark_edge (d : Dev) (k : Nat) (j : Nat) : (d.healthMark k).edge j = d.edge j := rfl
@[simp] theorem Dev.healthMark_zone (d : Dev) (k : Nat) (j : Nat) : (d.healthMark k).zone j = d.zone j := rfl
@[simp] theorem Dev.healthMark_conn (d : Dev) (k : Nat) (j : Nat) : (d.healthMark k).conn j = d.conn j := rfl
@[simp] theorem Dev.healthMark_line (d : Dev) (k : Nat) (j : Nat) : (d.healthMark k).line j = d.line j := rfl
@[simp] theorem Dev.healthMark_head (d : Dev) (k : Nat) (j : Nat) : (d.healthMark k).head j = d.head j := rfl
@[simp] theorem Dev.healthMark_sk (d : Dev) (k : Nat) (j : Nat) : (d.healthMark k).sk j = d.sk j := rfl
@[simp] theorem Dev.healthMark_eng (d : Dev) (k : Nat) (j : Nat) : (d.healthMark k).eng j = d.eng j := rfl

@[simp] theorem Dev.updAx_regs (d : Dev) (k : Nat) (g : AxSt → AxSt) : (d.updAx k g).regs = d.regs := rfl
@[simp] theorem Dev.updAx_regsT (d : Dev) (k : Nat) (g : AxSt → AxSt) : (d.updAx k g).regsT = d.regsT := rfl
@[simp] theorem Dev.updAx_mem (d : Dev) (k : Nat) (g : AxSt → AxSt) : (d.updAx k g).mem = d.mem := rfl
@[simp] theorem Dev.updAx_time (d : Dev) (k : Nat) (g : AxSt → AxSt) : (d.updAx k g).time = d.time := rfl
@[simp] theorem Dev.updAx_net (d : Dev) (k : Nat) (g : AxSt → AxSt) : (d.updAx k g).net = d.net := rfl
@[simp] theorem Dev.updAx_easel (d : Dev) (k : Nat) (g : AxSt → AxSt) : (d.updAx k g).easel = d.easel := rfl
@[simp] theorem Dev.updAx_engs (d : Dev) (k : Nat) (g : AxSt → AxSt) : (d.updAx k g).engs = d.engs := rfl
@[simp] theorem Dev.updAx_decs (d : Dev) (k : Nat) (g : AxSt → AxSt) : (d.updAx k g).decs = d.decs := rfl
@[simp] theorem Dev.updAx_prfs (d : Dev) (k : Nat) (g : AxSt → AxSt) : (d.updAx k g).prfs = d.prfs := rfl
@[simp] theorem Dev.updAx_cmps (d : Dev) (k : Nat) (g : AxSt → AxSt) : (d.updAx k g).cmps = d.cmps := rfl
@[simp] theorem Dev.updAx_loops (d : Dev) (k : Nat) (g : AxSt → AxSt) : (d.updAx k g).loops = d.loops := rfl
@[simp] theorem Dev.updAx_grps (d : Dev) (k : Nat) (g : AxSt → AxSt) : (d.updAx k g).grps = d.grps := rfl
@[simp] theorem Dev.updAx_rcp (d : Dev) (k : Nat) (g : AxSt → AxSt) : (d.updAx k g).rcp = d.rcp := rfl
@[simp] theorem Dev.updAx_saf (d : Dev) (k : Nat) (g : AxSt → AxSt) : (d.updAx k g).saf = d.saf := rfl
@[simp] theorem Dev.updAx_twin (d : Dev) (k : Nat) (g : AxSt → AxSt) : (d.updAx k g).twin = d.twin := rfl
@[simp] theorem Dev.updAx_vn (d : Dev) (k : Nat) (g : AxSt → AxSt) : (d.updAx k g).vn = d.vn := rfl
@[simp] theorem Dev.updAx_sks (d : Dev) (k : Nat) (g : AxSt → AxSt) : (d.updAx k g).sks = d.sks := rfl
@[simp] theorem Dev.updAx_evts (d : Dev) (k : Nat) (g : AxSt → AxSt) : (d.updAx k g).evts = d.evts := rfl
@[simp] theorem Dev.updAx_ecc (d : Dev) (k : Nat) (g : AxSt → AxSt) : (d.updAx k g).ecc = d.ecc := rfl
@[simp] theorem Dev.updAx_host (d : Dev) (k : Nat) (g : AxSt → AxSt) : (d.updAx k g).host = d.host := rfl
@[simp] theorem Dev.updAx_nv (d : Dev) (k : Nat) (g : AxSt → AxSt) : (d.updAx k g).nv = d.nv := rfl
@[simp] theorem Dev.updAx_store (d : Dev) (k : Nat) (g : AxSt → AxSt) : (d.updAx k g).store = d.store := rfl
@[simp] theorem Dev.updAx_balls (d : Dev) (k : Nat) (g : AxSt → AxSt) : (d.updAx k g).balls = d.balls := rfl
@[simp] theorem Dev.updAx_mode (d : Dev) (k : Nat) (g : AxSt → AxSt) : (d.updAx k g).mode = d.mode := rfl
@[simp] theorem Dev.updAx_out (d : Dev) (k : Nat) (g : AxSt → AxSt) : (d.updAx k g).out = d.out := rfl
@[simp] theorem Dev.updAx_free (d : Dev) (k : Nat) (g : AxSt → AxSt) : (d.updAx k g).free = d.free := rfl
@[simp] theorem Dev.updAx_rd (d : Dev) (k : Nat) (g : AxSt → AxSt) (j : Nat) : (d.updAx k g).rd j = d.rd j := rfl
@[simp] theorem Dev.updAx_fld (d : Dev) (k : Nat) (g : AxSt → AxSt) (h : Fld) : (d.updAx k g).fld h = d.fld h := rfl
@[simp] theorem Dev.updAx_flag (d : Dev) (k : Nat) (g : AxSt → AxSt) (h : Fld) : (d.updAx k g).flag h = d.flag h := rfl
@[simp] theorem Dev.updAx_dec (d : Dev) (k : Nat) (g : AxSt → AxSt) (j : Nat) : (d.updAx k g).dec j = d.dec j := rfl
@[simp] theorem Dev.updAx_prf (d : Dev) (k : Nat) (g : AxSt → AxSt) (j : Nat) : (d.updAx k g).prf j = d.prf j := rfl
@[simp] theorem Dev.updAx_cmp (d : Dev) (k : Nat) (g : AxSt → AxSt) (j : Nat) : (d.updAx k g).cmp j = d.cmp j := rfl
@[simp] theorem Dev.updAx_loop (d : Dev) (k : Nat) (g : AxSt → AxSt) (j : Nat) : (d.updAx k g).loop j = d.loop j := rfl
@[simp] theorem Dev.updAx_grp (d : Dev) (k : Nat) (g : AxSt → AxSt) (j : Nat) : (d.updAx k g).grp j = d.grp j := rfl
@[simp] theorem Dev.updAx_recipe (d : Dev) (k : Nat) (g : AxSt → AxSt) (j : Nat) : (d.updAx k g).recipe j = d.recipe j := rfl
@[simp] theorem Dev.updAx_edge (d : Dev) (k : Nat) (g : AxSt → AxSt) (j : Nat) : (d.updAx k g).edge j = d.edge j := rfl
@[simp] theorem Dev.updAx_zone (d : Dev) (k : Nat) (g : AxSt → AxSt) (j : Nat) : (d.updAx k g).zone j = d.zone j := rfl
@[simp] theorem Dev.updAx_conn (d : Dev) (k : Nat) (g : AxSt → AxSt) (j : Nat) : (d.updAx k g).conn j = d.conn j := rfl
@[simp] theorem Dev.updAx_line (d : Dev) (k : Nat) (g : AxSt → AxSt) (j : Nat) : (d.updAx k g).line j = d.line j := rfl
@[simp] theorem Dev.updAx_head (d : Dev) (k : Nat) (g : AxSt → AxSt) (j : Nat) : (d.updAx k g).head j = d.head j := rfl
@[simp] theorem Dev.updAx_sk (d : Dev) (k : Nat) (g : AxSt → AxSt) (j : Nat) : (d.updAx k g).sk j = d.sk j := rfl
@[simp] theorem Dev.updAx_eng (d : Dev) (k : Nat) (g : AxSt → AxSt) (j : Nat) : (d.updAx k g).eng j = d.eng j := rfl

@[simp] theorem Dev.updDec_regs (d : Dev) (k : Nat) (g : DecSt → DecSt) : (d.updDec k g).regs = d.regs := rfl
@[simp] theorem Dev.updDec_regsT (d : Dev) (k : Nat) (g : DecSt → DecSt) : (d.updDec k g).regsT = d.regsT := rfl
@[simp] theorem Dev.updDec_mem (d : Dev) (k : Nat) (g : DecSt → DecSt) : (d.updDec k g).mem = d.mem := rfl
@[simp] theorem Dev.updDec_time (d : Dev) (k : Nat) (g : DecSt → DecSt) : (d.updDec k g).time = d.time := rfl
@[simp] theorem Dev.updDec_net (d : Dev) (k : Nat) (g : DecSt → DecSt) : (d.updDec k g).net = d.net := rfl
@[simp] theorem Dev.updDec_easel (d : Dev) (k : Nat) (g : DecSt → DecSt) : (d.updDec k g).easel = d.easel := rfl
@[simp] theorem Dev.updDec_engs (d : Dev) (k : Nat) (g : DecSt → DecSt) : (d.updDec k g).engs = d.engs := rfl
@[simp] theorem Dev.updDec_axes (d : Dev) (k : Nat) (g : DecSt → DecSt) : (d.updDec k g).axes = d.axes := rfl
@[simp] theorem Dev.updDec_prfs (d : Dev) (k : Nat) (g : DecSt → DecSt) : (d.updDec k g).prfs = d.prfs := rfl
@[simp] theorem Dev.updDec_cmps (d : Dev) (k : Nat) (g : DecSt → DecSt) : (d.updDec k g).cmps = d.cmps := rfl
@[simp] theorem Dev.updDec_loops (d : Dev) (k : Nat) (g : DecSt → DecSt) : (d.updDec k g).loops = d.loops := rfl
@[simp] theorem Dev.updDec_grps (d : Dev) (k : Nat) (g : DecSt → DecSt) : (d.updDec k g).grps = d.grps := rfl
@[simp] theorem Dev.updDec_rcp (d : Dev) (k : Nat) (g : DecSt → DecSt) : (d.updDec k g).rcp = d.rcp := rfl
@[simp] theorem Dev.updDec_saf (d : Dev) (k : Nat) (g : DecSt → DecSt) : (d.updDec k g).saf = d.saf := rfl
@[simp] theorem Dev.updDec_twin (d : Dev) (k : Nat) (g : DecSt → DecSt) : (d.updDec k g).twin = d.twin := rfl
@[simp] theorem Dev.updDec_vn (d : Dev) (k : Nat) (g : DecSt → DecSt) : (d.updDec k g).vn = d.vn := rfl
@[simp] theorem Dev.updDec_sks (d : Dev) (k : Nat) (g : DecSt → DecSt) : (d.updDec k g).sks = d.sks := rfl
@[simp] theorem Dev.updDec_evts (d : Dev) (k : Nat) (g : DecSt → DecSt) : (d.updDec k g).evts = d.evts := rfl
@[simp] theorem Dev.updDec_ecc (d : Dev) (k : Nat) (g : DecSt → DecSt) : (d.updDec k g).ecc = d.ecc := rfl
@[simp] theorem Dev.updDec_host (d : Dev) (k : Nat) (g : DecSt → DecSt) : (d.updDec k g).host = d.host := rfl
@[simp] theorem Dev.updDec_nv (d : Dev) (k : Nat) (g : DecSt → DecSt) : (d.updDec k g).nv = d.nv := rfl
@[simp] theorem Dev.updDec_store (d : Dev) (k : Nat) (g : DecSt → DecSt) : (d.updDec k g).store = d.store := rfl
@[simp] theorem Dev.updDec_balls (d : Dev) (k : Nat) (g : DecSt → DecSt) : (d.updDec k g).balls = d.balls := rfl
@[simp] theorem Dev.updDec_mode (d : Dev) (k : Nat) (g : DecSt → DecSt) : (d.updDec k g).mode = d.mode := rfl
@[simp] theorem Dev.updDec_out (d : Dev) (k : Nat) (g : DecSt → DecSt) : (d.updDec k g).out = d.out := rfl
@[simp] theorem Dev.updDec_free (d : Dev) (k : Nat) (g : DecSt → DecSt) : (d.updDec k g).free = d.free := rfl
@[simp] theorem Dev.updDec_rd (d : Dev) (k : Nat) (g : DecSt → DecSt) (j : Nat) : (d.updDec k g).rd j = d.rd j := rfl
@[simp] theorem Dev.updDec_fld (d : Dev) (k : Nat) (g : DecSt → DecSt) (h : Fld) : (d.updDec k g).fld h = d.fld h := rfl
@[simp] theorem Dev.updDec_flag (d : Dev) (k : Nat) (g : DecSt → DecSt) (h : Fld) : (d.updDec k g).flag h = d.flag h := rfl
@[simp] theorem Dev.updDec_ax (d : Dev) (k : Nat) (g : DecSt → DecSt) (j : Nat) : (d.updDec k g).ax j = d.ax j := rfl
@[simp] theorem Dev.updDec_prf (d : Dev) (k : Nat) (g : DecSt → DecSt) (j : Nat) : (d.updDec k g).prf j = d.prf j := rfl
@[simp] theorem Dev.updDec_cmp (d : Dev) (k : Nat) (g : DecSt → DecSt) (j : Nat) : (d.updDec k g).cmp j = d.cmp j := rfl
@[simp] theorem Dev.updDec_loop (d : Dev) (k : Nat) (g : DecSt → DecSt) (j : Nat) : (d.updDec k g).loop j = d.loop j := rfl
@[simp] theorem Dev.updDec_grp (d : Dev) (k : Nat) (g : DecSt → DecSt) (j : Nat) : (d.updDec k g).grp j = d.grp j := rfl
@[simp] theorem Dev.updDec_recipe (d : Dev) (k : Nat) (g : DecSt → DecSt) (j : Nat) : (d.updDec k g).recipe j = d.recipe j := rfl
@[simp] theorem Dev.updDec_edge (d : Dev) (k : Nat) (g : DecSt → DecSt) (j : Nat) : (d.updDec k g).edge j = d.edge j := rfl
@[simp] theorem Dev.updDec_zone (d : Dev) (k : Nat) (g : DecSt → DecSt) (j : Nat) : (d.updDec k g).zone j = d.zone j := rfl
@[simp] theorem Dev.updDec_conn (d : Dev) (k : Nat) (g : DecSt → DecSt) (j : Nat) : (d.updDec k g).conn j = d.conn j := rfl
@[simp] theorem Dev.updDec_line (d : Dev) (k : Nat) (g : DecSt → DecSt) (j : Nat) : (d.updDec k g).line j = d.line j := rfl
@[simp] theorem Dev.updDec_head (d : Dev) (k : Nat) (g : DecSt → DecSt) (j : Nat) : (d.updDec k g).head j = d.head j := rfl
@[simp] theorem Dev.updDec_sk (d : Dev) (k : Nat) (g : DecSt → DecSt) (j : Nat) : (d.updDec k g).sk j = d.sk j := rfl
@[simp] theorem Dev.updDec_eng (d : Dev) (k : Nat) (g : DecSt → DecSt) (j : Nat) : (d.updDec k g).eng j = d.eng j := rfl

@[simp] theorem Dev.updPrf_regs (d : Dev) (k : Nat) (g : PrfSt → PrfSt) : (d.updPrf k g).regs = d.regs := rfl
@[simp] theorem Dev.updPrf_regsT (d : Dev) (k : Nat) (g : PrfSt → PrfSt) : (d.updPrf k g).regsT = d.regsT := rfl
@[simp] theorem Dev.updPrf_mem (d : Dev) (k : Nat) (g : PrfSt → PrfSt) : (d.updPrf k g).mem = d.mem := rfl
@[simp] theorem Dev.updPrf_time (d : Dev) (k : Nat) (g : PrfSt → PrfSt) : (d.updPrf k g).time = d.time := rfl
@[simp] theorem Dev.updPrf_net (d : Dev) (k : Nat) (g : PrfSt → PrfSt) : (d.updPrf k g).net = d.net := rfl
@[simp] theorem Dev.updPrf_easel (d : Dev) (k : Nat) (g : PrfSt → PrfSt) : (d.updPrf k g).easel = d.easel := rfl
@[simp] theorem Dev.updPrf_engs (d : Dev) (k : Nat) (g : PrfSt → PrfSt) : (d.updPrf k g).engs = d.engs := rfl
@[simp] theorem Dev.updPrf_axes (d : Dev) (k : Nat) (g : PrfSt → PrfSt) : (d.updPrf k g).axes = d.axes := rfl
@[simp] theorem Dev.updPrf_decs (d : Dev) (k : Nat) (g : PrfSt → PrfSt) : (d.updPrf k g).decs = d.decs := rfl
@[simp] theorem Dev.updPrf_cmps (d : Dev) (k : Nat) (g : PrfSt → PrfSt) : (d.updPrf k g).cmps = d.cmps := rfl
@[simp] theorem Dev.updPrf_loops (d : Dev) (k : Nat) (g : PrfSt → PrfSt) : (d.updPrf k g).loops = d.loops := rfl
@[simp] theorem Dev.updPrf_grps (d : Dev) (k : Nat) (g : PrfSt → PrfSt) : (d.updPrf k g).grps = d.grps := rfl
@[simp] theorem Dev.updPrf_rcp (d : Dev) (k : Nat) (g : PrfSt → PrfSt) : (d.updPrf k g).rcp = d.rcp := rfl
@[simp] theorem Dev.updPrf_saf (d : Dev) (k : Nat) (g : PrfSt → PrfSt) : (d.updPrf k g).saf = d.saf := rfl
@[simp] theorem Dev.updPrf_twin (d : Dev) (k : Nat) (g : PrfSt → PrfSt) : (d.updPrf k g).twin = d.twin := rfl
@[simp] theorem Dev.updPrf_vn (d : Dev) (k : Nat) (g : PrfSt → PrfSt) : (d.updPrf k g).vn = d.vn := rfl
@[simp] theorem Dev.updPrf_sks (d : Dev) (k : Nat) (g : PrfSt → PrfSt) : (d.updPrf k g).sks = d.sks := rfl
@[simp] theorem Dev.updPrf_evts (d : Dev) (k : Nat) (g : PrfSt → PrfSt) : (d.updPrf k g).evts = d.evts := rfl
@[simp] theorem Dev.updPrf_ecc (d : Dev) (k : Nat) (g : PrfSt → PrfSt) : (d.updPrf k g).ecc = d.ecc := rfl
@[simp] theorem Dev.updPrf_host (d : Dev) (k : Nat) (g : PrfSt → PrfSt) : (d.updPrf k g).host = d.host := rfl
@[simp] theorem Dev.updPrf_nv (d : Dev) (k : Nat) (g : PrfSt → PrfSt) : (d.updPrf k g).nv = d.nv := rfl
@[simp] theorem Dev.updPrf_store (d : Dev) (k : Nat) (g : PrfSt → PrfSt) : (d.updPrf k g).store = d.store := rfl
@[simp] theorem Dev.updPrf_balls (d : Dev) (k : Nat) (g : PrfSt → PrfSt) : (d.updPrf k g).balls = d.balls := rfl
@[simp] theorem Dev.updPrf_mode (d : Dev) (k : Nat) (g : PrfSt → PrfSt) : (d.updPrf k g).mode = d.mode := rfl
@[simp] theorem Dev.updPrf_out (d : Dev) (k : Nat) (g : PrfSt → PrfSt) : (d.updPrf k g).out = d.out := rfl
@[simp] theorem Dev.updPrf_free (d : Dev) (k : Nat) (g : PrfSt → PrfSt) : (d.updPrf k g).free = d.free := rfl
@[simp] theorem Dev.updPrf_rd (d : Dev) (k : Nat) (g : PrfSt → PrfSt) (j : Nat) : (d.updPrf k g).rd j = d.rd j := rfl
@[simp] theorem Dev.updPrf_fld (d : Dev) (k : Nat) (g : PrfSt → PrfSt) (h : Fld) : (d.updPrf k g).fld h = d.fld h := rfl
@[simp] theorem Dev.updPrf_flag (d : Dev) (k : Nat) (g : PrfSt → PrfSt) (h : Fld) : (d.updPrf k g).flag h = d.flag h := rfl
@[simp] theorem Dev.updPrf_ax (d : Dev) (k : Nat) (g : PrfSt → PrfSt) (j : Nat) : (d.updPrf k g).ax j = d.ax j := rfl
@[simp] theorem Dev.updPrf_dec (d : Dev) (k : Nat) (g : PrfSt → PrfSt) (j : Nat) : (d.updPrf k g).dec j = d.dec j := rfl
@[simp] theorem Dev.updPrf_cmp (d : Dev) (k : Nat) (g : PrfSt → PrfSt) (j : Nat) : (d.updPrf k g).cmp j = d.cmp j := rfl
@[simp] theorem Dev.updPrf_loop (d : Dev) (k : Nat) (g : PrfSt → PrfSt) (j : Nat) : (d.updPrf k g).loop j = d.loop j := rfl
@[simp] theorem Dev.updPrf_grp (d : Dev) (k : Nat) (g : PrfSt → PrfSt) (j : Nat) : (d.updPrf k g).grp j = d.grp j := rfl
@[simp] theorem Dev.updPrf_recipe (d : Dev) (k : Nat) (g : PrfSt → PrfSt) (j : Nat) : (d.updPrf k g).recipe j = d.recipe j := rfl
@[simp] theorem Dev.updPrf_edge (d : Dev) (k : Nat) (g : PrfSt → PrfSt) (j : Nat) : (d.updPrf k g).edge j = d.edge j := rfl
@[simp] theorem Dev.updPrf_zone (d : Dev) (k : Nat) (g : PrfSt → PrfSt) (j : Nat) : (d.updPrf k g).zone j = d.zone j := rfl
@[simp] theorem Dev.updPrf_conn (d : Dev) (k : Nat) (g : PrfSt → PrfSt) (j : Nat) : (d.updPrf k g).conn j = d.conn j := rfl
@[simp] theorem Dev.updPrf_line (d : Dev) (k : Nat) (g : PrfSt → PrfSt) (j : Nat) : (d.updPrf k g).line j = d.line j := rfl
@[simp] theorem Dev.updPrf_head (d : Dev) (k : Nat) (g : PrfSt → PrfSt) (j : Nat) : (d.updPrf k g).head j = d.head j := rfl
@[simp] theorem Dev.updPrf_sk (d : Dev) (k : Nat) (g : PrfSt → PrfSt) (j : Nat) : (d.updPrf k g).sk j = d.sk j := rfl
@[simp] theorem Dev.updPrf_eng (d : Dev) (k : Nat) (g : PrfSt → PrfSt) (j : Nat) : (d.updPrf k g).eng j = d.eng j := rfl

@[simp] theorem Dev.updCmp_regs (d : Dev) (k : Nat) (g : CmpSt → CmpSt) : (d.updCmp k g).regs = d.regs := rfl
@[simp] theorem Dev.updCmp_regsT (d : Dev) (k : Nat) (g : CmpSt → CmpSt) : (d.updCmp k g).regsT = d.regsT := rfl
@[simp] theorem Dev.updCmp_mem (d : Dev) (k : Nat) (g : CmpSt → CmpSt) : (d.updCmp k g).mem = d.mem := rfl
@[simp] theorem Dev.updCmp_time (d : Dev) (k : Nat) (g : CmpSt → CmpSt) : (d.updCmp k g).time = d.time := rfl
@[simp] theorem Dev.updCmp_net (d : Dev) (k : Nat) (g : CmpSt → CmpSt) : (d.updCmp k g).net = d.net := rfl
@[simp] theorem Dev.updCmp_easel (d : Dev) (k : Nat) (g : CmpSt → CmpSt) : (d.updCmp k g).easel = d.easel := rfl
@[simp] theorem Dev.updCmp_engs (d : Dev) (k : Nat) (g : CmpSt → CmpSt) : (d.updCmp k g).engs = d.engs := rfl
@[simp] theorem Dev.updCmp_axes (d : Dev) (k : Nat) (g : CmpSt → CmpSt) : (d.updCmp k g).axes = d.axes := rfl
@[simp] theorem Dev.updCmp_decs (d : Dev) (k : Nat) (g : CmpSt → CmpSt) : (d.updCmp k g).decs = d.decs := rfl
@[simp] theorem Dev.updCmp_prfs (d : Dev) (k : Nat) (g : CmpSt → CmpSt) : (d.updCmp k g).prfs = d.prfs := rfl
@[simp] theorem Dev.updCmp_loops (d : Dev) (k : Nat) (g : CmpSt → CmpSt) : (d.updCmp k g).loops = d.loops := rfl
@[simp] theorem Dev.updCmp_grps (d : Dev) (k : Nat) (g : CmpSt → CmpSt) : (d.updCmp k g).grps = d.grps := rfl
@[simp] theorem Dev.updCmp_rcp (d : Dev) (k : Nat) (g : CmpSt → CmpSt) : (d.updCmp k g).rcp = d.rcp := rfl
@[simp] theorem Dev.updCmp_saf (d : Dev) (k : Nat) (g : CmpSt → CmpSt) : (d.updCmp k g).saf = d.saf := rfl
@[simp] theorem Dev.updCmp_twin (d : Dev) (k : Nat) (g : CmpSt → CmpSt) : (d.updCmp k g).twin = d.twin := rfl
@[simp] theorem Dev.updCmp_vn (d : Dev) (k : Nat) (g : CmpSt → CmpSt) : (d.updCmp k g).vn = d.vn := rfl
@[simp] theorem Dev.updCmp_sks (d : Dev) (k : Nat) (g : CmpSt → CmpSt) : (d.updCmp k g).sks = d.sks := rfl
@[simp] theorem Dev.updCmp_evts (d : Dev) (k : Nat) (g : CmpSt → CmpSt) : (d.updCmp k g).evts = d.evts := rfl
@[simp] theorem Dev.updCmp_ecc (d : Dev) (k : Nat) (g : CmpSt → CmpSt) : (d.updCmp k g).ecc = d.ecc := rfl
@[simp] theorem Dev.updCmp_host (d : Dev) (k : Nat) (g : CmpSt → CmpSt) : (d.updCmp k g).host = d.host := rfl
@[simp] theorem Dev.updCmp_nv (d : Dev) (k : Nat) (g : CmpSt → CmpSt) : (d.updCmp k g).nv = d.nv := rfl
@[simp] theorem Dev.updCmp_store (d : Dev) (k : Nat) (g : CmpSt → CmpSt) : (d.updCmp k g).store = d.store := rfl
@[simp] theorem Dev.updCmp_balls (d : Dev) (k : Nat) (g : CmpSt → CmpSt) : (d.updCmp k g).balls = d.balls := rfl
@[simp] theorem Dev.updCmp_mode (d : Dev) (k : Nat) (g : CmpSt → CmpSt) : (d.updCmp k g).mode = d.mode := rfl
@[simp] theorem Dev.updCmp_out (d : Dev) (k : Nat) (g : CmpSt → CmpSt) : (d.updCmp k g).out = d.out := rfl
@[simp] theorem Dev.updCmp_free (d : Dev) (k : Nat) (g : CmpSt → CmpSt) : (d.updCmp k g).free = d.free := rfl
@[simp] theorem Dev.updCmp_rd (d : Dev) (k : Nat) (g : CmpSt → CmpSt) (j : Nat) : (d.updCmp k g).rd j = d.rd j := rfl
@[simp] theorem Dev.updCmp_fld (d : Dev) (k : Nat) (g : CmpSt → CmpSt) (h : Fld) : (d.updCmp k g).fld h = d.fld h := rfl
@[simp] theorem Dev.updCmp_flag (d : Dev) (k : Nat) (g : CmpSt → CmpSt) (h : Fld) : (d.updCmp k g).flag h = d.flag h := rfl
@[simp] theorem Dev.updCmp_ax (d : Dev) (k : Nat) (g : CmpSt → CmpSt) (j : Nat) : (d.updCmp k g).ax j = d.ax j := rfl
@[simp] theorem Dev.updCmp_dec (d : Dev) (k : Nat) (g : CmpSt → CmpSt) (j : Nat) : (d.updCmp k g).dec j = d.dec j := rfl
@[simp] theorem Dev.updCmp_prf (d : Dev) (k : Nat) (g : CmpSt → CmpSt) (j : Nat) : (d.updCmp k g).prf j = d.prf j := rfl
@[simp] theorem Dev.updCmp_loop (d : Dev) (k : Nat) (g : CmpSt → CmpSt) (j : Nat) : (d.updCmp k g).loop j = d.loop j := rfl
@[simp] theorem Dev.updCmp_grp (d : Dev) (k : Nat) (g : CmpSt → CmpSt) (j : Nat) : (d.updCmp k g).grp j = d.grp j := rfl
@[simp] theorem Dev.updCmp_recipe (d : Dev) (k : Nat) (g : CmpSt → CmpSt) (j : Nat) : (d.updCmp k g).recipe j = d.recipe j := rfl
@[simp] theorem Dev.updCmp_edge (d : Dev) (k : Nat) (g : CmpSt → CmpSt) (j : Nat) : (d.updCmp k g).edge j = d.edge j := rfl
@[simp] theorem Dev.updCmp_zone (d : Dev) (k : Nat) (g : CmpSt → CmpSt) (j : Nat) : (d.updCmp k g).zone j = d.zone j := rfl
@[simp] theorem Dev.updCmp_conn (d : Dev) (k : Nat) (g : CmpSt → CmpSt) (j : Nat) : (d.updCmp k g).conn j = d.conn j := rfl
@[simp] theorem Dev.updCmp_line (d : Dev) (k : Nat) (g : CmpSt → CmpSt) (j : Nat) : (d.updCmp k g).line j = d.line j := rfl
@[simp] theorem Dev.updCmp_head (d : Dev) (k : Nat) (g : CmpSt → CmpSt) (j : Nat) : (d.updCmp k g).head j = d.head j := rfl
@[simp] theorem Dev.updCmp_sk (d : Dev) (k : Nat) (g : CmpSt → CmpSt) (j : Nat) : (d.updCmp k g).sk j = d.sk j := rfl
@[simp] theorem Dev.updCmp_eng (d : Dev) (k : Nat) (g : CmpSt → CmpSt) (j : Nat) : (d.updCmp k g).eng j = d.eng j := rfl

@[simp] theorem Dev.updLoop_regs (d : Dev) (k : Nat) (g : LoopSt → LoopSt) : (d.updLoop k g).regs = d.regs := rfl
@[simp] theorem Dev.updLoop_regsT (d : Dev) (k : Nat) (g : LoopSt → LoopSt) : (d.updLoop k g).regsT = d.regsT := rfl
@[simp] theorem Dev.updLoop_mem (d : Dev) (k : Nat) (g : LoopSt → LoopSt) : (d.updLoop k g).mem = d.mem := rfl
@[simp] theorem Dev.updLoop_time (d : Dev) (k : Nat) (g : LoopSt → LoopSt) : (d.updLoop k g).time = d.time := rfl
@[simp] theorem Dev.updLoop_net (d : Dev) (k : Nat) (g : LoopSt → LoopSt) : (d.updLoop k g).net = d.net := rfl
@[simp] theorem Dev.updLoop_easel (d : Dev) (k : Nat) (g : LoopSt → LoopSt) : (d.updLoop k g).easel = d.easel := rfl
@[simp] theorem Dev.updLoop_engs (d : Dev) (k : Nat) (g : LoopSt → LoopSt) : (d.updLoop k g).engs = d.engs := rfl
@[simp] theorem Dev.updLoop_axes (d : Dev) (k : Nat) (g : LoopSt → LoopSt) : (d.updLoop k g).axes = d.axes := rfl
@[simp] theorem Dev.updLoop_decs (d : Dev) (k : Nat) (g : LoopSt → LoopSt) : (d.updLoop k g).decs = d.decs := rfl
@[simp] theorem Dev.updLoop_prfs (d : Dev) (k : Nat) (g : LoopSt → LoopSt) : (d.updLoop k g).prfs = d.prfs := rfl
@[simp] theorem Dev.updLoop_cmps (d : Dev) (k : Nat) (g : LoopSt → LoopSt) : (d.updLoop k g).cmps = d.cmps := rfl
@[simp] theorem Dev.updLoop_grps (d : Dev) (k : Nat) (g : LoopSt → LoopSt) : (d.updLoop k g).grps = d.grps := rfl
@[simp] theorem Dev.updLoop_rcp (d : Dev) (k : Nat) (g : LoopSt → LoopSt) : (d.updLoop k g).rcp = d.rcp := rfl
@[simp] theorem Dev.updLoop_saf (d : Dev) (k : Nat) (g : LoopSt → LoopSt) : (d.updLoop k g).saf = d.saf := rfl
@[simp] theorem Dev.updLoop_twin (d : Dev) (k : Nat) (g : LoopSt → LoopSt) : (d.updLoop k g).twin = d.twin := rfl
@[simp] theorem Dev.updLoop_vn (d : Dev) (k : Nat) (g : LoopSt → LoopSt) : (d.updLoop k g).vn = d.vn := rfl
@[simp] theorem Dev.updLoop_sks (d : Dev) (k : Nat) (g : LoopSt → LoopSt) : (d.updLoop k g).sks = d.sks := rfl
@[simp] theorem Dev.updLoop_evts (d : Dev) (k : Nat) (g : LoopSt → LoopSt) : (d.updLoop k g).evts = d.evts := rfl
@[simp] theorem Dev.updLoop_ecc (d : Dev) (k : Nat) (g : LoopSt → LoopSt) : (d.updLoop k g).ecc = d.ecc := rfl
@[simp] theorem Dev.updLoop_host (d : Dev) (k : Nat) (g : LoopSt → LoopSt) : (d.updLoop k g).host = d.host := rfl
@[simp] theorem Dev.updLoop_nv (d : Dev) (k : Nat) (g : LoopSt → LoopSt) : (d.updLoop k g).nv = d.nv := rfl
@[simp] theorem Dev.updLoop_store (d : Dev) (k : Nat) (g : LoopSt → LoopSt) : (d.updLoop k g).store = d.store := rfl
@[simp] theorem Dev.updLoop_balls (d : Dev) (k : Nat) (g : LoopSt → LoopSt) : (d.updLoop k g).balls = d.balls := rfl
@[simp] theorem Dev.updLoop_mode (d : Dev) (k : Nat) (g : LoopSt → LoopSt) : (d.updLoop k g).mode = d.mode := rfl
@[simp] theorem Dev.updLoop_out (d : Dev) (k : Nat) (g : LoopSt → LoopSt) : (d.updLoop k g).out = d.out := rfl
@[simp] theorem Dev.updLoop_free (d : Dev) (k : Nat) (g : LoopSt → LoopSt) : (d.updLoop k g).free = d.free := rfl
@[simp] theorem Dev.updLoop_rd (d : Dev) (k : Nat) (g : LoopSt → LoopSt) (j : Nat) : (d.updLoop k g).rd j = d.rd j := rfl
@[simp] theorem Dev.updLoop_fld (d : Dev) (k : Nat) (g : LoopSt → LoopSt) (h : Fld) : (d.updLoop k g).fld h = d.fld h := rfl
@[simp] theorem Dev.updLoop_flag (d : Dev) (k : Nat) (g : LoopSt → LoopSt) (h : Fld) : (d.updLoop k g).flag h = d.flag h := rfl
@[simp] theorem Dev.updLoop_ax (d : Dev) (k : Nat) (g : LoopSt → LoopSt) (j : Nat) : (d.updLoop k g).ax j = d.ax j := rfl
@[simp] theorem Dev.updLoop_dec (d : Dev) (k : Nat) (g : LoopSt → LoopSt) (j : Nat) : (d.updLoop k g).dec j = d.dec j := rfl
@[simp] theorem Dev.updLoop_prf (d : Dev) (k : Nat) (g : LoopSt → LoopSt) (j : Nat) : (d.updLoop k g).prf j = d.prf j := rfl
@[simp] theorem Dev.updLoop_cmp (d : Dev) (k : Nat) (g : LoopSt → LoopSt) (j : Nat) : (d.updLoop k g).cmp j = d.cmp j := rfl
@[simp] theorem Dev.updLoop_grp (d : Dev) (k : Nat) (g : LoopSt → LoopSt) (j : Nat) : (d.updLoop k g).grp j = d.grp j := rfl
@[simp] theorem Dev.updLoop_recipe (d : Dev) (k : Nat) (g : LoopSt → LoopSt) (j : Nat) : (d.updLoop k g).recipe j = d.recipe j := rfl
@[simp] theorem Dev.updLoop_edge (d : Dev) (k : Nat) (g : LoopSt → LoopSt) (j : Nat) : (d.updLoop k g).edge j = d.edge j := rfl
@[simp] theorem Dev.updLoop_zone (d : Dev) (k : Nat) (g : LoopSt → LoopSt) (j : Nat) : (d.updLoop k g).zone j = d.zone j := rfl
@[simp] theorem Dev.updLoop_conn (d : Dev) (k : Nat) (g : LoopSt → LoopSt) (j : Nat) : (d.updLoop k g).conn j = d.conn j := rfl
@[simp] theorem Dev.updLoop_line (d : Dev) (k : Nat) (g : LoopSt → LoopSt) (j : Nat) : (d.updLoop k g).line j = d.line j := rfl
@[simp] theorem Dev.updLoop_head (d : Dev) (k : Nat) (g : LoopSt → LoopSt) (j : Nat) : (d.updLoop k g).head j = d.head j := rfl
@[simp] theorem Dev.updLoop_sk (d : Dev) (k : Nat) (g : LoopSt → LoopSt) (j : Nat) : (d.updLoop k g).sk j = d.sk j := rfl
@[simp] theorem Dev.updLoop_eng (d : Dev) (k : Nat) (g : LoopSt → LoopSt) (j : Nat) : (d.updLoop k g).eng j = d.eng j := rfl

@[simp] theorem Dev.updGrp_regs (d : Dev) (k : Nat) (g : GrpSt → GrpSt) : (d.updGrp k g).regs = d.regs := rfl
@[simp] theorem Dev.updGrp_regsT (d : Dev) (k : Nat) (g : GrpSt → GrpSt) : (d.updGrp k g).regsT = d.regsT := rfl
@[simp] theorem Dev.updGrp_mem (d : Dev) (k : Nat) (g : GrpSt → GrpSt) : (d.updGrp k g).mem = d.mem := rfl
@[simp] theorem Dev.updGrp_time (d : Dev) (k : Nat) (g : GrpSt → GrpSt) : (d.updGrp k g).time = d.time := rfl
@[simp] theorem Dev.updGrp_net (d : Dev) (k : Nat) (g : GrpSt → GrpSt) : (d.updGrp k g).net = d.net := rfl
@[simp] theorem Dev.updGrp_easel (d : Dev) (k : Nat) (g : GrpSt → GrpSt) : (d.updGrp k g).easel = d.easel := rfl
@[simp] theorem Dev.updGrp_engs (d : Dev) (k : Nat) (g : GrpSt → GrpSt) : (d.updGrp k g).engs = d.engs := rfl
@[simp] theorem Dev.updGrp_axes (d : Dev) (k : Nat) (g : GrpSt → GrpSt) : (d.updGrp k g).axes = d.axes := rfl
@[simp] theorem Dev.updGrp_decs (d : Dev) (k : Nat) (g : GrpSt → GrpSt) : (d.updGrp k g).decs = d.decs := rfl
@[simp] theorem Dev.updGrp_prfs (d : Dev) (k : Nat) (g : GrpSt → GrpSt) : (d.updGrp k g).prfs = d.prfs := rfl
@[simp] theorem Dev.updGrp_cmps (d : Dev) (k : Nat) (g : GrpSt → GrpSt) : (d.updGrp k g).cmps = d.cmps := rfl
@[simp] theorem Dev.updGrp_loops (d : Dev) (k : Nat) (g : GrpSt → GrpSt) : (d.updGrp k g).loops = d.loops := rfl
@[simp] theorem Dev.updGrp_rcp (d : Dev) (k : Nat) (g : GrpSt → GrpSt) : (d.updGrp k g).rcp = d.rcp := rfl
@[simp] theorem Dev.updGrp_saf (d : Dev) (k : Nat) (g : GrpSt → GrpSt) : (d.updGrp k g).saf = d.saf := rfl
@[simp] theorem Dev.updGrp_twin (d : Dev) (k : Nat) (g : GrpSt → GrpSt) : (d.updGrp k g).twin = d.twin := rfl
@[simp] theorem Dev.updGrp_vn (d : Dev) (k : Nat) (g : GrpSt → GrpSt) : (d.updGrp k g).vn = d.vn := rfl
@[simp] theorem Dev.updGrp_sks (d : Dev) (k : Nat) (g : GrpSt → GrpSt) : (d.updGrp k g).sks = d.sks := rfl
@[simp] theorem Dev.updGrp_evts (d : Dev) (k : Nat) (g : GrpSt → GrpSt) : (d.updGrp k g).evts = d.evts := rfl
@[simp] theorem Dev.updGrp_ecc (d : Dev) (k : Nat) (g : GrpSt → GrpSt) : (d.updGrp k g).ecc = d.ecc := rfl
@[simp] theorem Dev.updGrp_host (d : Dev) (k : Nat) (g : GrpSt → GrpSt) : (d.updGrp k g).host = d.host := rfl
@[simp] theorem Dev.updGrp_nv (d : Dev) (k : Nat) (g : GrpSt → GrpSt) : (d.updGrp k g).nv = d.nv := rfl
@[simp] theorem Dev.updGrp_store (d : Dev) (k : Nat) (g : GrpSt → GrpSt) : (d.updGrp k g).store = d.store := rfl
@[simp] theorem Dev.updGrp_balls (d : Dev) (k : Nat) (g : GrpSt → GrpSt) : (d.updGrp k g).balls = d.balls := rfl
@[simp] theorem Dev.updGrp_mode (d : Dev) (k : Nat) (g : GrpSt → GrpSt) : (d.updGrp k g).mode = d.mode := rfl
@[simp] theorem Dev.updGrp_out (d : Dev) (k : Nat) (g : GrpSt → GrpSt) : (d.updGrp k g).out = d.out := rfl
@[simp] theorem Dev.updGrp_free (d : Dev) (k : Nat) (g : GrpSt → GrpSt) : (d.updGrp k g).free = d.free := rfl
@[simp] theorem Dev.updGrp_rd (d : Dev) (k : Nat) (g : GrpSt → GrpSt) (j : Nat) : (d.updGrp k g).rd j = d.rd j := rfl
@[simp] theorem Dev.updGrp_fld (d : Dev) (k : Nat) (g : GrpSt → GrpSt) (h : Fld) : (d.updGrp k g).fld h = d.fld h := rfl
@[simp] theorem Dev.updGrp_flag (d : Dev) (k : Nat) (g : GrpSt → GrpSt) (h : Fld) : (d.updGrp k g).flag h = d.flag h := rfl
@[simp] theorem Dev.updGrp_ax (d : Dev) (k : Nat) (g : GrpSt → GrpSt) (j : Nat) : (d.updGrp k g).ax j = d.ax j := rfl
@[simp] theorem Dev.updGrp_dec (d : Dev) (k : Nat) (g : GrpSt → GrpSt) (j : Nat) : (d.updGrp k g).dec j = d.dec j := rfl
@[simp] theorem Dev.updGrp_prf (d : Dev) (k : Nat) (g : GrpSt → GrpSt) (j : Nat) : (d.updGrp k g).prf j = d.prf j := rfl
@[simp] theorem Dev.updGrp_cmp (d : Dev) (k : Nat) (g : GrpSt → GrpSt) (j : Nat) : (d.updGrp k g).cmp j = d.cmp j := rfl
@[simp] theorem Dev.updGrp_loop (d : Dev) (k : Nat) (g : GrpSt → GrpSt) (j : Nat) : (d.updGrp k g).loop j = d.loop j := rfl
@[simp] theorem Dev.updGrp_recipe (d : Dev) (k : Nat) (g : GrpSt → GrpSt) (j : Nat) : (d.updGrp k g).recipe j = d.recipe j := rfl
@[simp] theorem Dev.updGrp_edge (d : Dev) (k : Nat) (g : GrpSt → GrpSt) (j : Nat) : (d.updGrp k g).edge j = d.edge j := rfl
@[simp] theorem Dev.updGrp_zone (d : Dev) (k : Nat) (g : GrpSt → GrpSt) (j : Nat) : (d.updGrp k g).zone j = d.zone j := rfl
@[simp] theorem Dev.updGrp_conn (d : Dev) (k : Nat) (g : GrpSt → GrpSt) (j : Nat) : (d.updGrp k g).conn j = d.conn j := rfl
@[simp] theorem Dev.updGrp_line (d : Dev) (k : Nat) (g : GrpSt → GrpSt) (j : Nat) : (d.updGrp k g).line j = d.line j := rfl
@[simp] theorem Dev.updGrp_head (d : Dev) (k : Nat) (g : GrpSt → GrpSt) (j : Nat) : (d.updGrp k g).head j = d.head j := rfl
@[simp] theorem Dev.updGrp_sk (d : Dev) (k : Nat) (g : GrpSt → GrpSt) (j : Nat) : (d.updGrp k g).sk j = d.sk j := rfl
@[simp] theorem Dev.updGrp_eng (d : Dev) (k : Nat) (g : GrpSt → GrpSt) (j : Nat) : (d.updGrp k g).eng j = d.eng j := rfl

@[simp] theorem Dev.updRecipe_regs (d : Dev) (k : Nat) (g : RcpSt → RcpSt) : (d.updRecipe k g).regs = d.regs := rfl
@[simp] theorem Dev.updRecipe_regsT (d : Dev) (k : Nat) (g : RcpSt → RcpSt) : (d.updRecipe k g).regsT = d.regsT := rfl
@[simp] theorem Dev.updRecipe_mem (d : Dev) (k : Nat) (g : RcpSt → RcpSt) : (d.updRecipe k g).mem = d.mem := rfl
@[simp] theorem Dev.updRecipe_time (d : Dev) (k : Nat) (g : RcpSt → RcpSt) : (d.updRecipe k g).time = d.time := rfl
@[simp] theorem Dev.updRecipe_net (d : Dev) (k : Nat) (g : RcpSt → RcpSt) : (d.updRecipe k g).net = d.net := rfl
@[simp] theorem Dev.updRecipe_easel (d : Dev) (k : Nat) (g : RcpSt → RcpSt) : (d.updRecipe k g).easel = d.easel := rfl
@[simp] theorem Dev.updRecipe_engs (d : Dev) (k : Nat) (g : RcpSt → RcpSt) : (d.updRecipe k g).engs = d.engs := rfl
@[simp] theorem Dev.updRecipe_axes (d : Dev) (k : Nat) (g : RcpSt → RcpSt) : (d.updRecipe k g).axes = d.axes := rfl
@[simp] theorem Dev.updRecipe_decs (d : Dev) (k : Nat) (g : RcpSt → RcpSt) : (d.updRecipe k g).decs = d.decs := rfl
@[simp] theorem Dev.updRecipe_prfs (d : Dev) (k : Nat) (g : RcpSt → RcpSt) : (d.updRecipe k g).prfs = d.prfs := rfl
@[simp] theorem Dev.updRecipe_cmps (d : Dev) (k : Nat) (g : RcpSt → RcpSt) : (d.updRecipe k g).cmps = d.cmps := rfl
@[simp] theorem Dev.updRecipe_loops (d : Dev) (k : Nat) (g : RcpSt → RcpSt) : (d.updRecipe k g).loops = d.loops := rfl
@[simp] theorem Dev.updRecipe_grps (d : Dev) (k : Nat) (g : RcpSt → RcpSt) : (d.updRecipe k g).grps = d.grps := rfl
@[simp] theorem Dev.updRecipe_saf (d : Dev) (k : Nat) (g : RcpSt → RcpSt) : (d.updRecipe k g).saf = d.saf := rfl
@[simp] theorem Dev.updRecipe_twin (d : Dev) (k : Nat) (g : RcpSt → RcpSt) : (d.updRecipe k g).twin = d.twin := rfl
@[simp] theorem Dev.updRecipe_vn (d : Dev) (k : Nat) (g : RcpSt → RcpSt) : (d.updRecipe k g).vn = d.vn := rfl
@[simp] theorem Dev.updRecipe_sks (d : Dev) (k : Nat) (g : RcpSt → RcpSt) : (d.updRecipe k g).sks = d.sks := rfl
@[simp] theorem Dev.updRecipe_evts (d : Dev) (k : Nat) (g : RcpSt → RcpSt) : (d.updRecipe k g).evts = d.evts := rfl
@[simp] theorem Dev.updRecipe_ecc (d : Dev) (k : Nat) (g : RcpSt → RcpSt) : (d.updRecipe k g).ecc = d.ecc := rfl
@[simp] theorem Dev.updRecipe_host (d : Dev) (k : Nat) (g : RcpSt → RcpSt) : (d.updRecipe k g).host = d.host := rfl
@[simp] theorem Dev.updRecipe_nv (d : Dev) (k : Nat) (g : RcpSt → RcpSt) : (d.updRecipe k g).nv = d.nv := rfl
@[simp] theorem Dev.updRecipe_store (d : Dev) (k : Nat) (g : RcpSt → RcpSt) : (d.updRecipe k g).store = d.store := rfl
@[simp] theorem Dev.updRecipe_balls (d : Dev) (k : Nat) (g : RcpSt → RcpSt) : (d.updRecipe k g).balls = d.balls := rfl
@[simp] theorem Dev.updRecipe_mode (d : Dev) (k : Nat) (g : RcpSt → RcpSt) : (d.updRecipe k g).mode = d.mode := rfl
@[simp] theorem Dev.updRecipe_out (d : Dev) (k : Nat) (g : RcpSt → RcpSt) : (d.updRecipe k g).out = d.out := rfl
@[simp] theorem Dev.updRecipe_free (d : Dev) (k : Nat) (g : RcpSt → RcpSt) : (d.updRecipe k g).free = d.free := rfl
@[simp] theorem Dev.updRecipe_rd (d : Dev) (k : Nat) (g : RcpSt → RcpSt) (j : Nat) : (d.updRecipe k g).rd j = d.rd j := rfl
@[simp] theorem Dev.updRecipe_fld (d : Dev) (k : Nat) (g : RcpSt → RcpSt) (h : Fld) : (d.updRecipe k g).fld h = d.fld h := rfl
@[simp] theorem Dev.updRecipe_flag (d : Dev) (k : Nat) (g : RcpSt → RcpSt) (h : Fld) : (d.updRecipe k g).flag h = d.flag h := rfl
@[simp] theorem Dev.updRecipe_ax (d : Dev) (k : Nat) (g : RcpSt → RcpSt) (j : Nat) : (d.updRecipe k g).ax j = d.ax j := rfl
@[simp] theorem Dev.updRecipe_dec (d : Dev) (k : Nat) (g : RcpSt → RcpSt) (j : Nat) : (d.updRecipe k g).dec j = d.dec j := rfl
@[simp] theorem Dev.updRecipe_prf (d : Dev) (k : Nat) (g : RcpSt → RcpSt) (j : Nat) : (d.updRecipe k g).prf j = d.prf j := rfl
@[simp] theorem Dev.updRecipe_cmp (d : Dev) (k : Nat) (g : RcpSt → RcpSt) (j : Nat) : (d.updRecipe k g).cmp j = d.cmp j := rfl
@[simp] theorem Dev.updRecipe_loop (d : Dev) (k : Nat) (g : RcpSt → RcpSt) (j : Nat) : (d.updRecipe k g).loop j = d.loop j := rfl
@[simp] theorem Dev.updRecipe_grp (d : Dev) (k : Nat) (g : RcpSt → RcpSt) (j : Nat) : (d.updRecipe k g).grp j = d.grp j := rfl
@[simp] theorem Dev.updRecipe_zone (d : Dev) (k : Nat) (g : RcpSt → RcpSt) (j : Nat) : (d.updRecipe k g).zone j = d.zone j := rfl
@[simp] theorem Dev.updRecipe_conn (d : Dev) (k : Nat) (g : RcpSt → RcpSt) (j : Nat) : (d.updRecipe k g).conn j = d.conn j := rfl
@[simp] theorem Dev.updRecipe_line (d : Dev) (k : Nat) (g : RcpSt → RcpSt) (j : Nat) : (d.updRecipe k g).line j = d.line j := rfl
@[simp] theorem Dev.updRecipe_head (d : Dev) (k : Nat) (g : RcpSt → RcpSt) (j : Nat) : (d.updRecipe k g).head j = d.head j := rfl
@[simp] theorem Dev.updRecipe_sk (d : Dev) (k : Nat) (g : RcpSt → RcpSt) (j : Nat) : (d.updRecipe k g).sk j = d.sk j := rfl
@[simp] theorem Dev.updRecipe_eng (d : Dev) (k : Nat) (g : RcpSt → RcpSt) (j : Nat) : (d.updRecipe k g).eng j = d.eng j := rfl

@[simp] theorem Dev.updEdge_regs (d : Dev) (k : Nat) (g : EdgeSt → EdgeSt) : (d.updEdge k g).regs = d.regs := rfl
@[simp] theorem Dev.updEdge_regsT (d : Dev) (k : Nat) (g : EdgeSt → EdgeSt) : (d.updEdge k g).regsT = d.regsT := rfl
@[simp] theorem Dev.updEdge_mem (d : Dev) (k : Nat) (g : EdgeSt → EdgeSt) : (d.updEdge k g).mem = d.mem := rfl
@[simp] theorem Dev.updEdge_time (d : Dev) (k : Nat) (g : EdgeSt → EdgeSt) : (d.updEdge k g).time = d.time := rfl
@[simp] theorem Dev.updEdge_net (d : Dev) (k : Nat) (g : EdgeSt → EdgeSt) : (d.updEdge k g).net = d.net := rfl
@[simp] theorem Dev.updEdge_easel (d : Dev) (k : Nat) (g : EdgeSt → EdgeSt) : (d.updEdge k g).easel = d.easel := rfl
@[simp] theorem Dev.updEdge_engs (d : Dev) (k : Nat) (g : EdgeSt → EdgeSt) : (d.updEdge k g).engs = d.engs := rfl
@[simp] theorem Dev.updEdge_axes (d : Dev) (k : Nat) (g : EdgeSt → EdgeSt) : (d.updEdge k g).axes = d.axes := rfl
@[simp] theorem Dev.updEdge_decs (d : Dev) (k : Nat) (g : EdgeSt → EdgeSt) : (d.updEdge k g).decs = d.decs := rfl
@[simp] theorem Dev.updEdge_prfs (d : Dev) (k : Nat) (g : EdgeSt → EdgeSt) : (d.updEdge k g).prfs = d.prfs := rfl
@[simp] theorem Dev.updEdge_cmps (d : Dev) (k : Nat) (g : EdgeSt → EdgeSt) : (d.updEdge k g).cmps = d.cmps := rfl
@[simp] theorem Dev.updEdge_loops (d : Dev) (k : Nat) (g : EdgeSt → EdgeSt) : (d.updEdge k g).loops = d.loops := rfl
@[simp] theorem Dev.updEdge_grps (d : Dev) (k : Nat) (g : EdgeSt → EdgeSt) : (d.updEdge k g).grps = d.grps := rfl
@[simp] theorem Dev.updEdge_saf (d : Dev) (k : Nat) (g : EdgeSt → EdgeSt) : (d.updEdge k g).saf = d.saf := rfl
@[simp] theorem Dev.updEdge_twin (d : Dev) (k : Nat) (g : EdgeSt → EdgeSt) : (d.updEdge k g).twin = d.twin := rfl
@[simp] theorem Dev.updEdge_vn (d : Dev) (k : Nat) (g : EdgeSt → EdgeSt) : (d.updEdge k g).vn = d.vn := rfl
@[simp] theorem Dev.updEdge_sks (d : Dev) (k : Nat) (g : EdgeSt → EdgeSt) : (d.updEdge k g).sks = d.sks := rfl
@[simp] theorem Dev.updEdge_evts (d : Dev) (k : Nat) (g : EdgeSt → EdgeSt) : (d.updEdge k g).evts = d.evts := rfl
@[simp] theorem Dev.updEdge_ecc (d : Dev) (k : Nat) (g : EdgeSt → EdgeSt) : (d.updEdge k g).ecc = d.ecc := rfl
@[simp] theorem Dev.updEdge_host (d : Dev) (k : Nat) (g : EdgeSt → EdgeSt) : (d.updEdge k g).host = d.host := rfl
@[simp] theorem Dev.updEdge_nv (d : Dev) (k : Nat) (g : EdgeSt → EdgeSt) : (d.updEdge k g).nv = d.nv := rfl
@[simp] theorem Dev.updEdge_store (d : Dev) (k : Nat) (g : EdgeSt → EdgeSt) : (d.updEdge k g).store = d.store := rfl
@[simp] theorem Dev.updEdge_balls (d : Dev) (k : Nat) (g : EdgeSt → EdgeSt) : (d.updEdge k g).balls = d.balls := rfl
@[simp] theorem Dev.updEdge_mode (d : Dev) (k : Nat) (g : EdgeSt → EdgeSt) : (d.updEdge k g).mode = d.mode := rfl
@[simp] theorem Dev.updEdge_out (d : Dev) (k : Nat) (g : EdgeSt → EdgeSt) : (d.updEdge k g).out = d.out := rfl
@[simp] theorem Dev.updEdge_free (d : Dev) (k : Nat) (g : EdgeSt → EdgeSt) : (d.updEdge k g).free = d.free := rfl
@[simp] theorem Dev.updEdge_rd (d : Dev) (k : Nat) (g : EdgeSt → EdgeSt) (j : Nat) : (d.updEdge k g).rd j = d.rd j := rfl
@[simp] theorem Dev.updEdge_fld (d : Dev) (k : Nat) (g : EdgeSt → EdgeSt) (h : Fld) : (d.updEdge k g).fld h = d.fld h := rfl
@[simp] theorem Dev.updEdge_flag (d : Dev) (k : Nat) (g : EdgeSt → EdgeSt) (h : Fld) : (d.updEdge k g).flag h = d.flag h := rfl
@[simp] theorem Dev.updEdge_ax (d : Dev) (k : Nat) (g : EdgeSt → EdgeSt) (j : Nat) : (d.updEdge k g).ax j = d.ax j := rfl
@[simp] theorem Dev.updEdge_dec (d : Dev) (k : Nat) (g : EdgeSt → EdgeSt) (j : Nat) : (d.updEdge k g).dec j = d.dec j := rfl
@[simp] theorem Dev.updEdge_prf (d : Dev) (k : Nat) (g : EdgeSt → EdgeSt) (j : Nat) : (d.updEdge k g).prf j = d.prf j := rfl
@[simp] theorem Dev.updEdge_cmp (d : Dev) (k : Nat) (g : EdgeSt → EdgeSt) (j : Nat) : (d.updEdge k g).cmp j = d.cmp j := rfl
@[simp] theorem Dev.updEdge_loop (d : Dev) (k : Nat) (g : EdgeSt → EdgeSt) (j : Nat) : (d.updEdge k g).loop j = d.loop j := rfl
@[simp] theorem Dev.updEdge_grp (d : Dev) (k : Nat) (g : EdgeSt → EdgeSt) (j : Nat) : (d.updEdge k g).grp j = d.grp j := rfl
@[simp] theorem Dev.updEdge_zone (d : Dev) (k : Nat) (g : EdgeSt → EdgeSt) (j : Nat) : (d.updEdge k g).zone j = d.zone j := rfl
@[simp] theorem Dev.updEdge_conn (d : Dev) (k : Nat) (g : EdgeSt → EdgeSt) (j : Nat) : (d.updEdge k g).conn j = d.conn j := rfl
@[simp] theorem Dev.updEdge_line (d : Dev) (k : Nat) (g : EdgeSt → EdgeSt) (j : Nat) : (d.updEdge k g).line j = d.line j := rfl
@[simp] theorem Dev.updEdge_head (d : Dev) (k : Nat) (g : EdgeSt → EdgeSt) (j : Nat) : (d.updEdge k g).head j = d.head j := rfl
@[simp] theorem Dev.updEdge_sk (d : Dev) (k : Nat) (g : EdgeSt → EdgeSt) (j : Nat) : (d.updEdge k g).sk j = d.sk j := rfl
@[simp] theorem Dev.updEdge_eng (d : Dev) (k : Nat) (g : EdgeSt → EdgeSt) (j : Nat) : (d.updEdge k g).eng j = d.eng j := rfl

@[simp] theorem Dev.updZone_regs (d : Dev) (k : Nat) (g : ZoneSt → ZoneSt) : (d.updZone k g).regs = d.regs := rfl
@[simp] theorem Dev.updZone_regsT (d : Dev) (k : Nat) (g : ZoneSt → ZoneSt) : (d.updZone k g).regsT = d.regsT := rfl
@[simp] theorem Dev.updZone_mem (d : Dev) (k : Nat) (g : ZoneSt → ZoneSt) : (d.updZone k g).mem = d.mem := rfl
@[simp] theorem Dev.updZone_time (d : Dev) (k : Nat) (g : ZoneSt → ZoneSt) : (d.updZone k g).time = d.time := rfl
@[simp] theorem Dev.updZone_net (d : Dev) (k : Nat) (g : ZoneSt → ZoneSt) : (d.updZone k g).net = d.net := rfl
@[simp] theorem Dev.updZone_easel (d : Dev) (k : Nat) (g : ZoneSt → ZoneSt) : (d.updZone k g).easel = d.easel := rfl
@[simp] theorem Dev.updZone_engs (d : Dev) (k : Nat) (g : ZoneSt → ZoneSt) : (d.updZone k g).engs = d.engs := rfl
@[simp] theorem Dev.updZone_axes (d : Dev) (k : Nat) (g : ZoneSt → ZoneSt) : (d.updZone k g).axes = d.axes := rfl
@[simp] theorem Dev.updZone_decs (d : Dev) (k : Nat) (g : ZoneSt → ZoneSt) : (d.updZone k g).decs = d.decs := rfl
@[simp] theorem Dev.updZone_prfs (d : Dev) (k : Nat) (g : ZoneSt → ZoneSt) : (d.updZone k g).prfs = d.prfs := rfl
@[simp] theorem Dev.updZone_cmps (d : Dev) (k : Nat) (g : ZoneSt → ZoneSt) : (d.updZone k g).cmps = d.cmps := rfl
@[simp] theorem Dev.updZone_loops (d : Dev) (k : Nat) (g : ZoneSt → ZoneSt) : (d.updZone k g).loops = d.loops := rfl
@[simp] theorem Dev.updZone_grps (d : Dev) (k : Nat) (g : ZoneSt → ZoneSt) : (d.updZone k g).grps = d.grps := rfl
@[simp] theorem Dev.updZone_rcp (d : Dev) (k : Nat) (g : ZoneSt → ZoneSt) : (d.updZone k g).rcp = d.rcp := rfl
@[simp] theorem Dev.updZone_twin (d : Dev) (k : Nat) (g : ZoneSt → ZoneSt) : (d.updZone k g).twin = d.twin := rfl
@[simp] theorem Dev.updZone_vn (d : Dev) (k : Nat) (g : ZoneSt → ZoneSt) : (d.updZone k g).vn = d.vn := rfl
@[simp] theorem Dev.updZone_sks (d : Dev) (k : Nat) (g : ZoneSt → ZoneSt) : (d.updZone k g).sks = d.sks := rfl
@[simp] theorem Dev.updZone_evts (d : Dev) (k : Nat) (g : ZoneSt → ZoneSt) : (d.updZone k g).evts = d.evts := rfl
@[simp] theorem Dev.updZone_ecc (d : Dev) (k : Nat) (g : ZoneSt → ZoneSt) : (d.updZone k g).ecc = d.ecc := rfl
@[simp] theorem Dev.updZone_host (d : Dev) (k : Nat) (g : ZoneSt → ZoneSt) : (d.updZone k g).host = d.host := rfl
@[simp] theorem Dev.updZone_nv (d : Dev) (k : Nat) (g : ZoneSt → ZoneSt) : (d.updZone k g).nv = d.nv := rfl
@[simp] theorem Dev.updZone_store (d : Dev) (k : Nat) (g : ZoneSt → ZoneSt) : (d.updZone k g).store = d.store := rfl
@[simp] theorem Dev.updZone_balls (d : Dev) (k : Nat) (g : ZoneSt → ZoneSt) : (d.updZone k g).balls = d.balls := rfl
@[simp] theorem Dev.updZone_mode (d : Dev) (k : Nat) (g : ZoneSt → ZoneSt) : (d.updZone k g).mode = d.mode := rfl
@[simp] theorem Dev.updZone_out (d : Dev) (k : Nat) (g : ZoneSt → ZoneSt) : (d.updZone k g).out = d.out := rfl
@[simp] theorem Dev.updZone_free (d : Dev) (k : Nat) (g : ZoneSt → ZoneSt) : (d.updZone k g).free = d.free := rfl
@[simp] theorem Dev.updZone_rd (d : Dev) (k : Nat) (g : ZoneSt → ZoneSt) (j : Nat) : (d.updZone k g).rd j = d.rd j := rfl
@[simp] theorem Dev.updZone_fld (d : Dev) (k : Nat) (g : ZoneSt → ZoneSt) (h : Fld) : (d.updZone k g).fld h = d.fld h := rfl
@[simp] theorem Dev.updZone_flag (d : Dev) (k : Nat) (g : ZoneSt → ZoneSt) (h : Fld) : (d.updZone k g).flag h = d.flag h := rfl
@[simp] theorem Dev.updZone_ax (d : Dev) (k : Nat) (g : ZoneSt → ZoneSt) (j : Nat) : (d.updZone k g).ax j = d.ax j := rfl
@[simp] theorem Dev.updZone_dec (d : Dev) (k : Nat) (g : ZoneSt → ZoneSt) (j : Nat) : (d.updZone k g).dec j = d.dec j := rfl
@[simp] theorem Dev.updZone_prf (d : Dev) (k : Nat) (g : ZoneSt → ZoneSt) (j : Nat) : (d.updZone k g).prf j = d.prf j := rfl
@[simp] theorem Dev.updZone_cmp (d : Dev) (k : Nat) (g : ZoneSt → ZoneSt) (j : Nat) : (d.updZone k g).cmp j = d.cmp j := rfl
@[simp] theorem Dev.updZone_loop (d : Dev) (k : Nat) (g : ZoneSt → ZoneSt) (j : Nat) : (d.updZone k g).loop j = d.loop j := rfl
@[simp] theorem Dev.updZone_grp (d : Dev) (k : Nat) (g : ZoneSt → ZoneSt) (j : Nat) : (d.updZone k g).grp j = d.grp j := rfl
@[simp] theorem Dev.updZone_recipe (d : Dev) (k : Nat) (g : ZoneSt → ZoneSt) (j : Nat) : (d.updZone k g).recipe j = d.recipe j := rfl
@[simp] theorem Dev.updZone_edge (d : Dev) (k : Nat) (g : ZoneSt → ZoneSt) (j : Nat) : (d.updZone k g).edge j = d.edge j := rfl
@[simp] theorem Dev.updZone_line (d : Dev) (k : Nat) (g : ZoneSt → ZoneSt) (j : Nat) : (d.updZone k g).line j = d.line j := rfl
@[simp] theorem Dev.updZone_head (d : Dev) (k : Nat) (g : ZoneSt → ZoneSt) (j : Nat) : (d.updZone k g).head j = d.head j := rfl
@[simp] theorem Dev.updZone_sk (d : Dev) (k : Nat) (g : ZoneSt → ZoneSt) (j : Nat) : (d.updZone k g).sk j = d.sk j := rfl
@[simp] theorem Dev.updZone_eng (d : Dev) (k : Nat) (g : ZoneSt → ZoneSt) (j : Nat) : (d.updZone k g).eng j = d.eng j := rfl

@[simp] theorem Dev.updConn_regs (d : Dev) (k : Nat) (g : ConnSt → ConnSt) : (d.updConn k g).regs = d.regs := rfl
@[simp] theorem Dev.updConn_regsT (d : Dev) (k : Nat) (g : ConnSt → ConnSt) : (d.updConn k g).regsT = d.regsT := rfl
@[simp] theorem Dev.updConn_mem (d : Dev) (k : Nat) (g : ConnSt → ConnSt) : (d.updConn k g).mem = d.mem := rfl
@[simp] theorem Dev.updConn_time (d : Dev) (k : Nat) (g : ConnSt → ConnSt) : (d.updConn k g).time = d.time := rfl
@[simp] theorem Dev.updConn_net (d : Dev) (k : Nat) (g : ConnSt → ConnSt) : (d.updConn k g).net = d.net := rfl
@[simp] theorem Dev.updConn_easel (d : Dev) (k : Nat) (g : ConnSt → ConnSt) : (d.updConn k g).easel = d.easel := rfl
@[simp] theorem Dev.updConn_engs (d : Dev) (k : Nat) (g : ConnSt → ConnSt) : (d.updConn k g).engs = d.engs := rfl
@[simp] theorem Dev.updConn_axes (d : Dev) (k : Nat) (g : ConnSt → ConnSt) : (d.updConn k g).axes = d.axes := rfl
@[simp] theorem Dev.updConn_decs (d : Dev) (k : Nat) (g : ConnSt → ConnSt) : (d.updConn k g).decs = d.decs := rfl
@[simp] theorem Dev.updConn_prfs (d : Dev) (k : Nat) (g : ConnSt → ConnSt) : (d.updConn k g).prfs = d.prfs := rfl
@[simp] theorem Dev.updConn_cmps (d : Dev) (k : Nat) (g : ConnSt → ConnSt) : (d.updConn k g).cmps = d.cmps := rfl
@[simp] theorem Dev.updConn_loops (d : Dev) (k : Nat) (g : ConnSt → ConnSt) : (d.updConn k g).loops = d.loops := rfl
@[simp] theorem Dev.updConn_grps (d : Dev) (k : Nat) (g : ConnSt → ConnSt) : (d.updConn k g).grps = d.grps := rfl
@[simp] theorem Dev.updConn_rcp (d : Dev) (k : Nat) (g : ConnSt → ConnSt) : (d.updConn k g).rcp = d.rcp := rfl
@[simp] theorem Dev.updConn_twin (d : Dev) (k : Nat) (g : ConnSt → ConnSt) : (d.updConn k g).twin = d.twin := rfl
@[simp] theorem Dev.updConn_vn (d : Dev) (k : Nat) (g : ConnSt → ConnSt) : (d.updConn k g).vn = d.vn := rfl
@[simp] theorem Dev.updConn_sks (d : Dev) (k : Nat) (g : ConnSt → ConnSt) : (d.updConn k g).sks = d.sks := rfl
@[simp] theorem Dev.updConn_evts (d : Dev) (k : Nat) (g : ConnSt → ConnSt) : (d.updConn k g).evts = d.evts := rfl
@[simp] theorem Dev.updConn_ecc (d : Dev) (k : Nat) (g : ConnSt → ConnSt) : (d.updConn k g).ecc = d.ecc := rfl
@[simp] theorem Dev.updConn_host (d : Dev) (k : Nat) (g : ConnSt → ConnSt) : (d.updConn k g).host = d.host := rfl
@[simp] theorem Dev.updConn_nv (d : Dev) (k : Nat) (g : ConnSt → ConnSt) : (d.updConn k g).nv = d.nv := rfl
@[simp] theorem Dev.updConn_store (d : Dev) (k : Nat) (g : ConnSt → ConnSt) : (d.updConn k g).store = d.store := rfl
@[simp] theorem Dev.updConn_balls (d : Dev) (k : Nat) (g : ConnSt → ConnSt) : (d.updConn k g).balls = d.balls := rfl
@[simp] theorem Dev.updConn_mode (d : Dev) (k : Nat) (g : ConnSt → ConnSt) : (d.updConn k g).mode = d.mode := rfl
@[simp] theorem Dev.updConn_out (d : Dev) (k : Nat) (g : ConnSt → ConnSt) : (d.updConn k g).out = d.out := rfl
@[simp] theorem Dev.updConn_free (d : Dev) (k : Nat) (g : ConnSt → ConnSt) : (d.updConn k g).free = d.free := rfl
@[simp] theorem Dev.updConn_rd (d : Dev) (k : Nat) (g : ConnSt → ConnSt) (j : Nat) : (d.updConn k g).rd j = d.rd j := rfl
@[simp] theorem Dev.updConn_fld (d : Dev) (k : Nat) (g : ConnSt → ConnSt) (h : Fld) : (d.updConn k g).fld h = d.fld h := rfl
@[simp] theorem Dev.updConn_flag (d : Dev) (k : Nat) (g : ConnSt → ConnSt) (h : Fld) : (d.updConn k g).flag h = d.flag h := rfl
@[simp] theorem Dev.updConn_ax (d : Dev) (k : Nat) (g : ConnSt → ConnSt) (j : Nat) : (d.updConn k g).ax j = d.ax j := rfl
@[simp] theorem Dev.updConn_dec (d : Dev) (k : Nat) (g : ConnSt → ConnSt) (j : Nat) : (d.updConn k g).dec j = d.dec j := rfl
@[simp] theorem Dev.updConn_prf (d : Dev) (k : Nat) (g : ConnSt → ConnSt) (j : Nat) : (d.updConn k g).prf j = d.prf j := rfl
@[simp] theorem Dev.updConn_cmp (d : Dev) (k : Nat) (g : ConnSt → ConnSt) (j : Nat) : (d.updConn k g).cmp j = d.cmp j := rfl
@[simp] theorem Dev.updConn_loop (d : Dev) (k : Nat) (g : ConnSt → ConnSt) (j : Nat) : (d.updConn k g).loop j = d.loop j := rfl
@[simp] theorem Dev.updConn_grp (d : Dev) (k : Nat) (g : ConnSt → ConnSt) (j : Nat) : (d.updConn k g).grp j = d.grp j := rfl
@[simp] theorem Dev.updConn_recipe (d : Dev) (k : Nat) (g : ConnSt → ConnSt) (j : Nat) : (d.updConn k g).recipe j = d.recipe j := rfl
@[simp] theorem Dev.updConn_edge (d : Dev) (k : Nat) (g : ConnSt → ConnSt) (j : Nat) : (d.updConn k g).edge j = d.edge j := rfl
@[simp] theorem Dev.updConn_line (d : Dev) (k : Nat) (g : ConnSt → ConnSt) (j : Nat) : (d.updConn k g).line j = d.line j := rfl
@[simp] theorem Dev.updConn_head (d : Dev) (k : Nat) (g : ConnSt → ConnSt) (j : Nat) : (d.updConn k g).head j = d.head j := rfl
@[simp] theorem Dev.updConn_sk (d : Dev) (k : Nat) (g : ConnSt → ConnSt) (j : Nat) : (d.updConn k g).sk j = d.sk j := rfl
@[simp] theorem Dev.updConn_eng (d : Dev) (k : Nat) (g : ConnSt → ConnSt) (j : Nat) : (d.updConn k g).eng j = d.eng j := rfl

@[simp] theorem Dev.updLine_regs (d : Dev) (k : Nat) (g : LineSt → LineSt) : (d.updLine k g).regs = d.regs := rfl
@[simp] theorem Dev.updLine_regsT (d : Dev) (k : Nat) (g : LineSt → LineSt) : (d.updLine k g).regsT = d.regsT := rfl
@[simp] theorem Dev.updLine_mem (d : Dev) (k : Nat) (g : LineSt → LineSt) : (d.updLine k g).mem = d.mem := rfl
@[simp] theorem Dev.updLine_time (d : Dev) (k : Nat) (g : LineSt → LineSt) : (d.updLine k g).time = d.time := rfl
@[simp] theorem Dev.updLine_easel (d : Dev) (k : Nat) (g : LineSt → LineSt) : (d.updLine k g).easel = d.easel := rfl
@[simp] theorem Dev.updLine_engs (d : Dev) (k : Nat) (g : LineSt → LineSt) : (d.updLine k g).engs = d.engs := rfl
@[simp] theorem Dev.updLine_axes (d : Dev) (k : Nat) (g : LineSt → LineSt) : (d.updLine k g).axes = d.axes := rfl
@[simp] theorem Dev.updLine_decs (d : Dev) (k : Nat) (g : LineSt → LineSt) : (d.updLine k g).decs = d.decs := rfl
@[simp] theorem Dev.updLine_prfs (d : Dev) (k : Nat) (g : LineSt → LineSt) : (d.updLine k g).prfs = d.prfs := rfl
@[simp] theorem Dev.updLine_cmps (d : Dev) (k : Nat) (g : LineSt → LineSt) : (d.updLine k g).cmps = d.cmps := rfl
@[simp] theorem Dev.updLine_loops (d : Dev) (k : Nat) (g : LineSt → LineSt) : (d.updLine k g).loops = d.loops := rfl
@[simp] theorem Dev.updLine_grps (d : Dev) (k : Nat) (g : LineSt → LineSt) : (d.updLine k g).grps = d.grps := rfl
@[simp] theorem Dev.updLine_rcp (d : Dev) (k : Nat) (g : LineSt → LineSt) : (d.updLine k g).rcp = d.rcp := rfl
@[simp] theorem Dev.updLine_saf (d : Dev) (k : Nat) (g : LineSt → LineSt) : (d.updLine k g).saf = d.saf := rfl
@[simp] theorem Dev.updLine_twin (d : Dev) (k : Nat) (g : LineSt → LineSt) : (d.updLine k g).twin = d.twin := rfl
@[simp] theorem Dev.updLine_vn (d : Dev) (k : Nat) (g : LineSt → LineSt) : (d.updLine k g).vn = d.vn := rfl
@[simp] theorem Dev.updLine_sks (d : Dev) (k : Nat) (g : LineSt → LineSt) : (d.updLine k g).sks = d.sks := rfl
@[simp] theorem Dev.updLine_evts (d : Dev) (k : Nat) (g : LineSt → LineSt) : (d.updLine k g).evts = d.evts := rfl
@[simp] theorem Dev.updLine_ecc (d : Dev) (k : Nat) (g : LineSt → LineSt) : (d.updLine k g).ecc = d.ecc := rfl
@[simp] theorem Dev.updLine_host (d : Dev) (k : Nat) (g : LineSt → LineSt) : (d.updLine k g).host = d.host := rfl
@[simp] theorem Dev.updLine_nv (d : Dev) (k : Nat) (g : LineSt → LineSt) : (d.updLine k g).nv = d.nv := rfl
@[simp] theorem Dev.updLine_store (d : Dev) (k : Nat) (g : LineSt → LineSt) : (d.updLine k g).store = d.store := rfl
@[simp] theorem Dev.updLine_balls (d : Dev) (k : Nat) (g : LineSt → LineSt) : (d.updLine k g).balls = d.balls := rfl
@[simp] theorem Dev.updLine_mode (d : Dev) (k : Nat) (g : LineSt → LineSt) : (d.updLine k g).mode = d.mode := rfl
@[simp] theorem Dev.updLine_out (d : Dev) (k : Nat) (g : LineSt → LineSt) : (d.updLine k g).out = d.out := rfl
@[simp] theorem Dev.updLine_free (d : Dev) (k : Nat) (g : LineSt → LineSt) : (d.updLine k g).free = d.free := rfl
@[simp] theorem Dev.updLine_rd (d : Dev) (k : Nat) (g : LineSt → LineSt) (j : Nat) : (d.updLine k g).rd j = d.rd j := rfl
@[simp] theorem Dev.updLine_fld (d : Dev) (k : Nat) (g : LineSt → LineSt) (h : Fld) : (d.updLine k g).fld h = d.fld h := rfl
@[simp] theorem Dev.updLine_flag (d : Dev) (k : Nat) (g : LineSt → LineSt) (h : Fld) : (d.updLine k g).flag h = d.flag h := rfl
@[simp] theorem Dev.updLine_ax (d : Dev) (k : Nat) (g : LineSt → LineSt) (j : Nat) : (d.updLine k g).ax j = d.ax j := rfl
@[simp] theorem Dev.updLine_dec (d : Dev) (k : Nat) (g : LineSt → LineSt) (j : Nat) : (d.updLine k g).dec j = d.dec j := rfl
@[simp] theorem Dev.updLine_prf (d : Dev) (k : Nat) (g : LineSt → LineSt) (j : Nat) : (d.updLine k g).prf j = d.prf j := rfl
@[simp] theorem Dev.updLine_cmp (d : Dev) (k : Nat) (g : LineSt → LineSt) (j : Nat) : (d.updLine k g).cmp j = d.cmp j := rfl
@[simp] theorem Dev.updLine_loop (d : Dev) (k : Nat) (g : LineSt → LineSt) (j : Nat) : (d.updLine k g).loop j = d.loop j := rfl
@[simp] theorem Dev.updLine_grp (d : Dev) (k : Nat) (g : LineSt → LineSt) (j : Nat) : (d.updLine k g).grp j = d.grp j := rfl
@[simp] theorem Dev.updLine_recipe (d : Dev) (k : Nat) (g : LineSt → LineSt) (j : Nat) : (d.updLine k g).recipe j = d.recipe j := rfl
@[simp] theorem Dev.updLine_edge (d : Dev) (k : Nat) (g : LineSt → LineSt) (j : Nat) : (d.updLine k g).edge j = d.edge j := rfl
@[simp] theorem Dev.updLine_zone (d : Dev) (k : Nat) (g : LineSt → LineSt) (j : Nat) : (d.updLine k g).zone j = d.zone j := rfl
@[simp] theorem Dev.updLine_conn (d : Dev) (k : Nat) (g : LineSt → LineSt) (j : Nat) : (d.updLine k g).conn j = d.conn j := rfl
@[simp] theorem Dev.updLine_sk (d : Dev) (k : Nat) (g : LineSt → LineSt) (j : Nat) : (d.updLine k g).sk j = d.sk j := rfl
@[simp] theorem Dev.updLine_eng (d : Dev) (k : Nat) (g : LineSt → LineSt) (j : Nat) : (d.updLine k g).eng j = d.eng j := rfl

@[simp] theorem Dev.updHead_regs (d : Dev) (k : Nat) (g : HeadSt → HeadSt) : (d.updHead k g).regs = d.regs := rfl
@[simp] theorem Dev.updHead_regsT (d : Dev) (k : Nat) (g : HeadSt → HeadSt) : (d.updHead k g).regsT = d.regsT := rfl
@[simp] theorem Dev.updHead_mem (d : Dev) (k : Nat) (g : HeadSt → HeadSt) : (d.updHead k g).mem = d.mem := rfl
@[simp] theorem Dev.updHead_time (d : Dev) (k : Nat) (g : HeadSt → HeadSt) : (d.updHead k g).time = d.time := rfl
@[simp] theorem Dev.updHead_easel (d : Dev) (k : Nat) (g : HeadSt → HeadSt) : (d.updHead k g).easel = d.easel := rfl
@[simp] theorem Dev.updHead_engs (d : Dev) (k : Nat) (g : HeadSt → HeadSt) : (d.updHead k g).engs = d.engs := rfl
@[simp] theorem Dev.updHead_axes (d : Dev) (k : Nat) (g : HeadSt → HeadSt) : (d.updHead k g).axes = d.axes := rfl
@[simp] theorem Dev.updHead_decs (d : Dev) (k : Nat) (g : HeadSt → HeadSt) : (d.updHead k g).decs = d.decs := rfl
@[simp] theorem Dev.updHead_prfs (d : Dev) (k : Nat) (g : HeadSt → HeadSt) : (d.updHead k g).prfs = d.prfs := rfl
@[simp] theorem Dev.updHead_cmps (d : Dev) (k : Nat) (g : HeadSt → HeadSt) : (d.updHead k g).cmps = d.cmps := rfl
@[simp] theorem Dev.updHead_loops (d : Dev) (k : Nat) (g : HeadSt → HeadSt) : (d.updHead k g).loops = d.loops := rfl
@[simp] theorem Dev.updHead_grps (d : Dev) (k : Nat) (g : HeadSt → HeadSt) : (d.updHead k g).grps = d.grps := rfl
@[simp] theorem Dev.updHead_rcp (d : Dev) (k : Nat) (g : HeadSt → HeadSt) : (d.updHead k g).rcp = d.rcp := rfl
@[simp] theorem Dev.updHead_saf (d : Dev) (k : Nat) (g : HeadSt → HeadSt) : (d.updHead k g).saf = d.saf := rfl
@[simp] theorem Dev.updHead_twin (d : Dev) (k : Nat) (g : HeadSt → HeadSt) : (d.updHead k g).twin = d.twin := rfl
@[simp] theorem Dev.updHead_vn (d : Dev) (k : Nat) (g : HeadSt → HeadSt) : (d.updHead k g).vn = d.vn := rfl
@[simp] theorem Dev.updHead_sks (d : Dev) (k : Nat) (g : HeadSt → HeadSt) : (d.updHead k g).sks = d.sks := rfl
@[simp] theorem Dev.updHead_evts (d : Dev) (k : Nat) (g : HeadSt → HeadSt) : (d.updHead k g).evts = d.evts := rfl
@[simp] theorem Dev.updHead_ecc (d : Dev) (k : Nat) (g : HeadSt → HeadSt) : (d.updHead k g).ecc = d.ecc := rfl
@[simp] theorem Dev.updHead_host (d : Dev) (k : Nat) (g : HeadSt → HeadSt) : (d.updHead k g).host = d.host := rfl
@[simp] theorem Dev.updHead_nv (d : Dev) (k : Nat) (g : HeadSt → HeadSt) : (d.updHead k g).nv = d.nv := rfl
@[simp] theorem Dev.updHead_store (d : Dev) (k : Nat) (g : HeadSt → HeadSt) : (d.updHead k g).store = d.store := rfl
@[simp] theorem Dev.updHead_balls (d : Dev) (k : Nat) (g : HeadSt → HeadSt) : (d.updHead k g).balls = d.balls := rfl
@[simp] theorem Dev.updHead_mode (d : Dev) (k : Nat) (g : HeadSt → HeadSt) : (d.updHead k g).mode = d.mode := rfl
@[simp] theorem Dev.updHead_out (d : Dev) (k : Nat) (g : HeadSt → HeadSt) : (d.updHead k g).out = d.out := rfl
@[simp] theorem Dev.updHead_free (d : Dev) (k : Nat) (g : HeadSt → HeadSt) : (d.updHead k g).free = d.free := rfl
@[simp] theorem Dev.updHead_rd (d : Dev) (k : Nat) (g : HeadSt → HeadSt) (j : Nat) : (d.updHead k g).rd j = d.rd j := rfl
@[simp] theorem Dev.updHead_fld (d : Dev) (k : Nat) (g : HeadSt → HeadSt) (h : Fld) : (d.updHead k g).fld h = d.fld h := rfl
@[simp] theorem Dev.updHead_flag (d : Dev) (k : Nat) (g : HeadSt → HeadSt) (h : Fld) : (d.updHead k g).flag h = d.flag h := rfl
@[simp] theorem Dev.updHead_ax (d : Dev) (k : Nat) (g : HeadSt → HeadSt) (j : Nat) : (d.updHead k g).ax j = d.ax j := rfl
@[simp] theorem Dev.updHead_dec (d : Dev) (k : Nat) (g : HeadSt → HeadSt) (j : Nat) : (d.updHead k g).dec j = d.dec j := rfl
@[simp] theorem Dev.updHead_prf (d : Dev) (k : Nat) (g : HeadSt → HeadSt) (j : Nat) : (d.updHead k g).prf j = d.prf j := rfl
@[simp] theorem Dev.updHead_cmp (d : Dev) (k : Nat) (g : HeadSt → HeadSt) (j : Nat) : (d.updHead k g).cmp j = d.cmp j := rfl
@[simp] theorem Dev.updHead_loop (d : Dev) (k : Nat) (g : HeadSt → HeadSt) (j : Nat) : (d.updHead k g).loop j = d.loop j := rfl
@[simp] theorem Dev.updHead_grp (d : Dev) (k : Nat) (g : HeadSt → HeadSt) (j : Nat) : (d.updHead k g).grp j = d.grp j := rfl
@[simp] theorem Dev.updHead_recipe (d : Dev) (k : Nat) (g : HeadSt → HeadSt) (j : Nat) : (d.updHead k g).recipe j = d.recipe j := rfl
@[simp] theorem Dev.updHead_edge (d : Dev) (k : Nat) (g : HeadSt → HeadSt) (j : Nat) : (d.updHead k g).edge j = d.edge j := rfl
@[simp] theorem Dev.updHead_zone (d : Dev) (k : Nat) (g : HeadSt → HeadSt) (j : Nat) : (d.updHead k g).zone j = d.zone j := rfl
@[simp] theorem Dev.updHead_conn (d : Dev) (k : Nat) (g : HeadSt → HeadSt) (j : Nat) : (d.updHead k g).conn j = d.conn j := rfl
@[simp] theorem Dev.updHead_sk (d : Dev) (k : Nat) (g : HeadSt → HeadSt) (j : Nat) : (d.updHead k g).sk j = d.sk j := rfl
@[simp] theorem Dev.updHead_eng (d : Dev) (k : Nat) (g : HeadSt → HeadSt) (j : Nat) : (d.updHead k g).eng j = d.eng j := rfl

@[simp] theorem Dev.updSk_regs (d : Dev) (k : Nat) (g : SkSt → SkSt) : (d.updSk k g).regs = d.regs := rfl
@[simp] theorem Dev.updSk_regsT (d : Dev) (k : Nat) (g : SkSt → SkSt) : (d.updSk k g).regsT = d.regsT := rfl
@[simp] theorem Dev.updSk_mem (d : Dev) (k : Nat) (g : SkSt → SkSt) : (d.updSk k g).mem = d.mem := rfl
@[simp] theorem Dev.updSk_time (d : Dev) (k : Nat) (g : SkSt → SkSt) : (d.updSk k g).time = d.time := rfl
@[simp] theorem Dev.updSk_net (d : Dev) (k : Nat) (g : SkSt → SkSt) : (d.updSk k g).net = d.net := rfl
@[simp] theorem Dev.updSk_easel (d : Dev) (k : Nat) (g : SkSt → SkSt) : (d.updSk k g).easel = d.easel := rfl
@[simp] theorem Dev.updSk_engs (d : Dev) (k : Nat) (g : SkSt → SkSt) : (d.updSk k g).engs = d.engs := rfl
@[simp] theorem Dev.updSk_axes (d : Dev) (k : Nat) (g : SkSt → SkSt) : (d.updSk k g).axes = d.axes := rfl
@[simp] theorem Dev.updSk_decs (d : Dev) (k : Nat) (g : SkSt → SkSt) : (d.updSk k g).decs = d.decs := rfl
@[simp] theorem Dev.updSk_prfs (d : Dev) (k : Nat) (g : SkSt → SkSt) : (d.updSk k g).prfs = d.prfs := rfl
@[simp] theorem Dev.updSk_cmps (d : Dev) (k : Nat) (g : SkSt → SkSt) : (d.updSk k g).cmps = d.cmps := rfl
@[simp] theorem Dev.updSk_loops (d : Dev) (k : Nat) (g : SkSt → SkSt) : (d.updSk k g).loops = d.loops := rfl
@[simp] theorem Dev.updSk_grps (d : Dev) (k : Nat) (g : SkSt → SkSt) : (d.updSk k g).grps = d.grps := rfl
@[simp] theorem Dev.updSk_rcp (d : Dev) (k : Nat) (g : SkSt → SkSt) : (d.updSk k g).rcp = d.rcp := rfl
@[simp] theorem Dev.updSk_saf (d : Dev) (k : Nat) (g : SkSt → SkSt) : (d.updSk k g).saf = d.saf := rfl
@[simp] theorem Dev.updSk_twin (d : Dev) (k : Nat) (g : SkSt → SkSt) : (d.updSk k g).twin = d.twin := rfl
@[simp] theorem Dev.updSk_vn (d : Dev) (k : Nat) (g : SkSt → SkSt) : (d.updSk k g).vn = d.vn := rfl
@[simp] theorem Dev.updSk_evts (d : Dev) (k : Nat) (g : SkSt → SkSt) : (d.updSk k g).evts = d.evts := rfl
@[simp] theorem Dev.updSk_ecc (d : Dev) (k : Nat) (g : SkSt → SkSt) : (d.updSk k g).ecc = d.ecc := rfl
@[simp] theorem Dev.updSk_host (d : Dev) (k : Nat) (g : SkSt → SkSt) : (d.updSk k g).host = d.host := rfl
@[simp] theorem Dev.updSk_nv (d : Dev) (k : Nat) (g : SkSt → SkSt) : (d.updSk k g).nv = d.nv := rfl
@[simp] theorem Dev.updSk_store (d : Dev) (k : Nat) (g : SkSt → SkSt) : (d.updSk k g).store = d.store := rfl
@[simp] theorem Dev.updSk_balls (d : Dev) (k : Nat) (g : SkSt → SkSt) : (d.updSk k g).balls = d.balls := rfl
@[simp] theorem Dev.updSk_mode (d : Dev) (k : Nat) (g : SkSt → SkSt) : (d.updSk k g).mode = d.mode := rfl
@[simp] theorem Dev.updSk_out (d : Dev) (k : Nat) (g : SkSt → SkSt) : (d.updSk k g).out = d.out := rfl
@[simp] theorem Dev.updSk_free (d : Dev) (k : Nat) (g : SkSt → SkSt) : (d.updSk k g).free = d.free := rfl
@[simp] theorem Dev.updSk_rd (d : Dev) (k : Nat) (g : SkSt → SkSt) (j : Nat) : (d.updSk k g).rd j = d.rd j := rfl
@[simp] theorem Dev.updSk_fld (d : Dev) (k : Nat) (g : SkSt → SkSt) (h : Fld) : (d.updSk k g).fld h = d.fld h := rfl
@[simp] theorem Dev.updSk_flag (d : Dev) (k : Nat) (g : SkSt → SkSt) (h : Fld) : (d.updSk k g).flag h = d.flag h := rfl
@[simp] theorem Dev.updSk_ax (d : Dev) (k : Nat) (g : SkSt → SkSt) (j : Nat) : (d.updSk k g).ax j = d.ax j := rfl
@[simp] theorem Dev.updSk_dec (d : Dev) (k : Nat) (g : SkSt → SkSt) (j : Nat) : (d.updSk k g).dec j = d.dec j := rfl
@[simp] theorem Dev.updSk_prf (d : Dev) (k : Nat) (g : SkSt → SkSt) (j : Nat) : (d.updSk k g).prf j = d.prf j := rfl
@[simp] theorem Dev.updSk_cmp (d : Dev) (k : Nat) (g : SkSt → SkSt) (j : Nat) : (d.updSk k g).cmp j = d.cmp j := rfl
@[simp] theorem Dev.updSk_loop (d : Dev) (k : Nat) (g : SkSt → SkSt) (j : Nat) : (d.updSk k g).loop j = d.loop j := rfl
@[simp] theorem Dev.updSk_grp (d : Dev) (k : Nat) (g : SkSt → SkSt) (j : Nat) : (d.updSk k g).grp j = d.grp j := rfl
@[simp] theorem Dev.updSk_recipe (d : Dev) (k : Nat) (g : SkSt → SkSt) (j : Nat) : (d.updSk k g).recipe j = d.recipe j := rfl
@[simp] theorem Dev.updSk_edge (d : Dev) (k : Nat) (g : SkSt → SkSt) (j : Nat) : (d.updSk k g).edge j = d.edge j := rfl
@[simp] theorem Dev.updSk_zone (d : Dev) (k : Nat) (g : SkSt → SkSt) (j : Nat) : (d.updSk k g).zone j = d.zone j := rfl
@[simp] theorem Dev.updSk_conn (d : Dev) (k : Nat) (g : SkSt → SkSt) (j : Nat) : (d.updSk k g).conn j = d.conn j := rfl
@[simp] theorem Dev.updSk_line (d : Dev) (k : Nat) (g : SkSt → SkSt) (j : Nat) : (d.updSk k g).line j = d.line j := rfl
@[simp] theorem Dev.updSk_head (d : Dev) (k : Nat) (g : SkSt → SkSt) (j : Nat) : (d.updSk k g).head j = d.head j := rfl
@[simp] theorem Dev.updSk_eng (d : Dev) (k : Nat) (g : SkSt → SkSt) (j : Nat) : (d.updSk k g).eng j = d.eng j := rfl

@[simp] theorem Dev.updEng_regs (d : Dev) (k : Nat) (g : BrEng → BrEng) : (d.updEng k g).regs = d.regs := rfl
@[simp] theorem Dev.updEng_regsT (d : Dev) (k : Nat) (g : BrEng → BrEng) : (d.updEng k g).regsT = d.regsT := rfl
@[simp] theorem Dev.updEng_mem (d : Dev) (k : Nat) (g : BrEng → BrEng) : (d.updEng k g).mem = d.mem := rfl
@[simp] theorem Dev.updEng_time (d : Dev) (k : Nat) (g : BrEng → BrEng) : (d.updEng k g).time = d.time := rfl
@[simp] theorem Dev.updEng_net (d : Dev) (k : Nat) (g : BrEng → BrEng) : (d.updEng k g).net = d.net := rfl
@[simp] theorem Dev.updEng_easel (d : Dev) (k : Nat) (g : BrEng → BrEng) : (d.updEng k g).easel = d.easel := rfl
@[simp] theorem Dev.updEng_axes (d : Dev) (k : Nat) (g : BrEng → BrEng) : (d.updEng k g).axes = d.axes := rfl
@[simp] theorem Dev.updEng_decs (d : Dev) (k : Nat) (g : BrEng → BrEng) : (d.updEng k g).decs = d.decs := rfl
@[simp] theorem Dev.updEng_prfs (d : Dev) (k : Nat) (g : BrEng → BrEng) : (d.updEng k g).prfs = d.prfs := rfl
@[simp] theorem Dev.updEng_cmps (d : Dev) (k : Nat) (g : BrEng → BrEng) : (d.updEng k g).cmps = d.cmps := rfl
@[simp] theorem Dev.updEng_loops (d : Dev) (k : Nat) (g : BrEng → BrEng) : (d.updEng k g).loops = d.loops := rfl
@[simp] theorem Dev.updEng_grps (d : Dev) (k : Nat) (g : BrEng → BrEng) : (d.updEng k g).grps = d.grps := rfl
@[simp] theorem Dev.updEng_rcp (d : Dev) (k : Nat) (g : BrEng → BrEng) : (d.updEng k g).rcp = d.rcp := rfl
@[simp] theorem Dev.updEng_saf (d : Dev) (k : Nat) (g : BrEng → BrEng) : (d.updEng k g).saf = d.saf := rfl
@[simp] theorem Dev.updEng_twin (d : Dev) (k : Nat) (g : BrEng → BrEng) : (d.updEng k g).twin = d.twin := rfl
@[simp] theorem Dev.updEng_vn (d : Dev) (k : Nat) (g : BrEng → BrEng) : (d.updEng k g).vn = d.vn := rfl
@[simp] theorem Dev.updEng_sks (d : Dev) (k : Nat) (g : BrEng → BrEng) : (d.updEng k g).sks = d.sks := rfl
@[simp] theorem Dev.updEng_evts (d : Dev) (k : Nat) (g : BrEng → BrEng) : (d.updEng k g).evts = d.evts := rfl
@[simp] theorem Dev.updEng_ecc (d : Dev) (k : Nat) (g : BrEng → BrEng) : (d.updEng k g).ecc = d.ecc := rfl
@[simp] theorem Dev.updEng_host (d : Dev) (k : Nat) (g : BrEng → BrEng) : (d.updEng k g).host = d.host := rfl
@[simp] theorem Dev.updEng_nv (d : Dev) (k : Nat) (g : BrEng → BrEng) : (d.updEng k g).nv = d.nv := rfl
@[simp] theorem Dev.updEng_store (d : Dev) (k : Nat) (g : BrEng → BrEng) : (d.updEng k g).store = d.store := rfl
@[simp] theorem Dev.updEng_balls (d : Dev) (k : Nat) (g : BrEng → BrEng) : (d.updEng k g).balls = d.balls := rfl
@[simp] theorem Dev.updEng_mode (d : Dev) (k : Nat) (g : BrEng → BrEng) : (d.updEng k g).mode = d.mode := rfl
@[simp] theorem Dev.updEng_out (d : Dev) (k : Nat) (g : BrEng → BrEng) : (d.updEng k g).out = d.out := rfl
@[simp] theorem Dev.updEng_free (d : Dev) (k : Nat) (g : BrEng → BrEng) : (d.updEng k g).free = d.free := rfl
@[simp] theorem Dev.updEng_rd (d : Dev) (k : Nat) (g : BrEng → BrEng) (j : Nat) : (d.updEng k g).rd j = d.rd j := rfl
@[simp] theorem Dev.updEng_fld (d : Dev) (k : Nat) (g : BrEng → BrEng) (h : Fld) : (d.updEng k g).fld h = d.fld h := rfl
@[simp] theorem Dev.updEng_flag (d : Dev) (k : Nat) (g : BrEng → BrEng) (h : Fld) : (d.updEng k g).flag h = d.flag h := rfl
@[simp] theorem Dev.updEng_ax (d : Dev) (k : Nat) (g : BrEng → BrEng) (j : Nat) : (d.updEng k g).ax j = d.ax j := rfl
@[simp] theorem Dev.updEng_dec (d : Dev) (k : Nat) (g : BrEng → BrEng) (j : Nat) : (d.updEng k g).dec j = d.dec j := rfl
@[simp] theorem Dev.updEng_prf (d : Dev) (k : Nat) (g : BrEng → BrEng) (j : Nat) : (d.updEng k g).prf j = d.prf j := rfl
@[simp] theorem Dev.updEng_cmp (d : Dev) (k : Nat) (g : BrEng → BrEng) (j : Nat) : (d.updEng k g).cmp j = d.cmp j := rfl
@[simp] theorem Dev.updEng_loop (d : Dev) (k : Nat) (g : BrEng → BrEng) (j : Nat) : (d.updEng k g).loop j = d.loop j := rfl
@[simp] theorem Dev.updEng_grp (d : Dev) (k : Nat) (g : BrEng → BrEng) (j : Nat) : (d.updEng k g).grp j = d.grp j := rfl
@[simp] theorem Dev.updEng_recipe (d : Dev) (k : Nat) (g : BrEng → BrEng) (j : Nat) : (d.updEng k g).recipe j = d.recipe j := rfl
@[simp] theorem Dev.updEng_edge (d : Dev) (k : Nat) (g : BrEng → BrEng) (j : Nat) : (d.updEng k g).edge j = d.edge j := rfl
@[simp] theorem Dev.updEng_zone (d : Dev) (k : Nat) (g : BrEng → BrEng) (j : Nat) : (d.updEng k g).zone j = d.zone j := rfl
@[simp] theorem Dev.updEng_conn (d : Dev) (k : Nat) (g : BrEng → BrEng) (j : Nat) : (d.updEng k g).conn j = d.conn j := rfl
@[simp] theorem Dev.updEng_line (d : Dev) (k : Nat) (g : BrEng → BrEng) (j : Nat) : (d.updEng k g).line j = d.line j := rfl
@[simp] theorem Dev.updEng_head (d : Dev) (k : Nat) (g : BrEng → BrEng) (j : Nat) : (d.updEng k g).head j = d.head j := rfl
@[simp] theorem Dev.updEng_sk (d : Dev) (k : Nat) (g : BrEng → BrEng) (j : Nat) : (d.updEng k g).sk j = d.sk j := rfl

@[simp] theorem Dev.updTime_regs (d : Dev) (g : TimeSt → TimeSt) : (d.updTime g).regs = d.regs := rfl
@[simp] theorem Dev.updTime_regsT (d : Dev) (g : TimeSt → TimeSt) : (d.updTime g).regsT = d.regsT := rfl
@[simp] theorem Dev.updTime_mem (d : Dev) (g : TimeSt → TimeSt) : (d.updTime g).mem = d.mem := rfl
@[simp] theorem Dev.updTime_net (d : Dev) (g : TimeSt → TimeSt) : (d.updTime g).net = d.net := rfl
@[simp] theorem Dev.updTime_easel (d : Dev) (g : TimeSt → TimeSt) : (d.updTime g).easel = d.easel := rfl
@[simp] theorem Dev.updTime_engs (d : Dev) (g : TimeSt → TimeSt) : (d.updTime g).engs = d.engs := rfl
@[simp] theorem Dev.updTime_axes (d : Dev) (g : TimeSt → TimeSt) : (d.updTime g).axes = d.axes := rfl
@[simp] theorem Dev.updTime_decs (d : Dev) (g : TimeSt → TimeSt) : (d.updTime g).decs = d.decs := rfl
@[simp] theorem Dev.updTime_prfs (d : Dev) (g : TimeSt → TimeSt) : (d.updTime g).prfs = d.prfs := rfl
@[simp] theorem Dev.updTime_cmps (d : Dev) (g : TimeSt → TimeSt) : (d.updTime g).cmps = d.cmps := rfl
@[simp] theorem Dev.updTime_loops (d : Dev) (g : TimeSt → TimeSt) : (d.updTime g).loops = d.loops := rfl
@[simp] theorem Dev.updTime_grps (d : Dev) (g : TimeSt → TimeSt) : (d.updTime g).grps = d.grps := rfl
@[simp] theorem Dev.updTime_rcp (d : Dev) (g : TimeSt → TimeSt) : (d.updTime g).rcp = d.rcp := rfl
@[simp] theorem Dev.updTime_saf (d : Dev) (g : TimeSt → TimeSt) : (d.updTime g).saf = d.saf := rfl
@[simp] theorem Dev.updTime_twin (d : Dev) (g : TimeSt → TimeSt) : (d.updTime g).twin = d.twin := rfl
@[simp] theorem Dev.updTime_vn (d : Dev) (g : TimeSt → TimeSt) : (d.updTime g).vn = d.vn := rfl
@[simp] theorem Dev.updTime_sks (d : Dev) (g : TimeSt → TimeSt) : (d.updTime g).sks = d.sks := rfl
@[simp] theorem Dev.updTime_evts (d : Dev) (g : TimeSt → TimeSt) : (d.updTime g).evts = d.evts := rfl
@[simp] theorem Dev.updTime_ecc (d : Dev) (g : TimeSt → TimeSt) : (d.updTime g).ecc = d.ecc := rfl
@[simp] theorem Dev.updTime_host (d : Dev) (g : TimeSt → TimeSt) : (d.updTime g).host = d.host := rfl
@[simp] theorem Dev.updTime_nv (d : Dev) (g : TimeSt → TimeSt) : (d.updTime g).nv = d.nv := rfl
@[simp] theorem Dev.updTime_store (d : Dev) (g : TimeSt → TimeSt) : (d.updTime g).store = d.store := rfl
@[simp] theorem Dev.updTime_balls (d : Dev) (g : TimeSt → TimeSt) : (d.updTime g).balls = d.balls := rfl
@[simp] theorem Dev.updTime_mode (d : Dev) (g : TimeSt → TimeSt) : (d.updTime g).mode = d.mode := rfl
@[simp] theorem Dev.updTime_out (d : Dev) (g : TimeSt → TimeSt) : (d.updTime g).out = d.out := rfl
@[simp] theorem Dev.updTime_free (d : Dev) (g : TimeSt → TimeSt) : (d.updTime g).free = d.free := rfl
@[simp] theorem Dev.updTime_rd (d : Dev) (g : TimeSt → TimeSt) (j : Nat) : (d.updTime g).rd j = d.rd j := rfl
@[simp] theorem Dev.updTime_fld (d : Dev) (g : TimeSt → TimeSt) (h : Fld) : (d.updTime g).fld h = d.fld h := rfl
@[simp] theorem Dev.updTime_flag (d : Dev) (g : TimeSt → TimeSt) (h : Fld) : (d.updTime g).flag h = d.flag h := rfl
@[simp] theorem Dev.updTime_ax (d : Dev) (g : TimeSt → TimeSt) (j : Nat) : (d.updTime g).ax j = d.ax j := rfl
@[simp] theorem Dev.updTime_dec (d : Dev) (g : TimeSt → TimeSt) (j : Nat) : (d.updTime g).dec j = d.dec j := rfl
@[simp] theorem Dev.updTime_prf (d : Dev) (g : TimeSt → TimeSt) (j : Nat) : (d.updTime g).prf j = d.prf j := rfl
@[simp] theorem Dev.updTime_cmp (d : Dev) (g : TimeSt → TimeSt) (j : Nat) : (d.updTime g).cmp j = d.cmp j := rfl
@[simp] theorem Dev.updTime_loop (d : Dev) (g : TimeSt → TimeSt) (j : Nat) : (d.updTime g).loop j = d.loop j := rfl
@[simp] theorem Dev.updTime_grp (d : Dev) (g : TimeSt → TimeSt) (j : Nat) : (d.updTime g).grp j = d.grp j := rfl
@[simp] theorem Dev.updTime_recipe (d : Dev) (g : TimeSt → TimeSt) (j : Nat) : (d.updTime g).recipe j = d.recipe j := rfl
@[simp] theorem Dev.updTime_edge (d : Dev) (g : TimeSt → TimeSt) (j : Nat) : (d.updTime g).edge j = d.edge j := rfl
@[simp] theorem Dev.updTime_zone (d : Dev) (g : TimeSt → TimeSt) (j : Nat) : (d.updTime g).zone j = d.zone j := rfl
@[simp] theorem Dev.updTime_conn (d : Dev) (g : TimeSt → TimeSt) (j : Nat) : (d.updTime g).conn j = d.conn j := rfl
@[simp] theorem Dev.updTime_line (d : Dev) (g : TimeSt → TimeSt) (j : Nat) : (d.updTime g).line j = d.line j := rfl
@[simp] theorem Dev.updTime_head (d : Dev) (g : TimeSt → TimeSt) (j : Nat) : (d.updTime g).head j = d.head j := rfl
@[simp] theorem Dev.updTime_sk (d : Dev) (g : TimeSt → TimeSt) (j : Nat) : (d.updTime g).sk j = d.sk j := rfl
@[simp] theorem Dev.updTime_eng (d : Dev) (g : TimeSt → TimeSt) (j : Nat) : (d.updTime g).eng j = d.eng j := rfl

@[simp] theorem Dev.updNet_regs (d : Dev) (g : NetSt → NetSt) : (d.updNet g).regs = d.regs := rfl
@[simp] theorem Dev.updNet_regsT (d : Dev) (g : NetSt → NetSt) : (d.updNet g).regsT = d.regsT := rfl
@[simp] theorem Dev.updNet_mem (d : Dev) (g : NetSt → NetSt) : (d.updNet g).mem = d.mem := rfl
@[simp] theorem Dev.updNet_time (d : Dev) (g : NetSt → NetSt) : (d.updNet g).time = d.time := rfl
@[simp] theorem Dev.updNet_easel (d : Dev) (g : NetSt → NetSt) : (d.updNet g).easel = d.easel := rfl
@[simp] theorem Dev.updNet_engs (d : Dev) (g : NetSt → NetSt) : (d.updNet g).engs = d.engs := rfl
@[simp] theorem Dev.updNet_axes (d : Dev) (g : NetSt → NetSt) : (d.updNet g).axes = d.axes := rfl
@[simp] theorem Dev.updNet_decs (d : Dev) (g : NetSt → NetSt) : (d.updNet g).decs = d.decs := rfl
@[simp] theorem Dev.updNet_prfs (d : Dev) (g : NetSt → NetSt) : (d.updNet g).prfs = d.prfs := rfl
@[simp] theorem Dev.updNet_cmps (d : Dev) (g : NetSt → NetSt) : (d.updNet g).cmps = d.cmps := rfl
@[simp] theorem Dev.updNet_loops (d : Dev) (g : NetSt → NetSt) : (d.updNet g).loops = d.loops := rfl
@[simp] theorem Dev.updNet_grps (d : Dev) (g : NetSt → NetSt) : (d.updNet g).grps = d.grps := rfl
@[simp] theorem Dev.updNet_rcp (d : Dev) (g : NetSt → NetSt) : (d.updNet g).rcp = d.rcp := rfl
@[simp] theorem Dev.updNet_saf (d : Dev) (g : NetSt → NetSt) : (d.updNet g).saf = d.saf := rfl
@[simp] theorem Dev.updNet_twin (d : Dev) (g : NetSt → NetSt) : (d.updNet g).twin = d.twin := rfl
@[simp] theorem Dev.updNet_vn (d : Dev) (g : NetSt → NetSt) : (d.updNet g).vn = d.vn := rfl
@[simp] theorem Dev.updNet_sks (d : Dev) (g : NetSt → NetSt) : (d.updNet g).sks = d.sks := rfl
@[simp] theorem Dev.updNet_evts (d : Dev) (g : NetSt → NetSt) : (d.updNet g).evts = d.evts := rfl
@[simp] theorem Dev.updNet_ecc (d : Dev) (g : NetSt → NetSt) : (d.updNet g).ecc = d.ecc := rfl
@[simp] theorem Dev.updNet_host (d : Dev) (g : NetSt → NetSt) : (d.updNet g).host = d.host := rfl
@[simp] theorem Dev.updNet_nv (d : Dev) (g : NetSt → NetSt) : (d.updNet g).nv = d.nv := rfl
@[simp] theorem Dev.updNet_store (d : Dev) (g : NetSt → NetSt) : (d.updNet g).store = d.store := rfl
@[simp] theorem Dev.updNet_balls (d : Dev) (g : NetSt → NetSt) : (d.updNet g).balls = d.balls := rfl
@[simp] theorem Dev.updNet_mode (d : Dev) (g : NetSt → NetSt) : (d.updNet g).mode = d.mode := rfl
@[simp] theorem Dev.updNet_out (d : Dev) (g : NetSt → NetSt) : (d.updNet g).out = d.out := rfl
@[simp] theorem Dev.updNet_free (d : Dev) (g : NetSt → NetSt) : (d.updNet g).free = d.free := rfl
@[simp] theorem Dev.updNet_rd (d : Dev) (g : NetSt → NetSt) (j : Nat) : (d.updNet g).rd j = d.rd j := rfl
@[simp] theorem Dev.updNet_fld (d : Dev) (g : NetSt → NetSt) (h : Fld) : (d.updNet g).fld h = d.fld h := rfl
@[simp] theorem Dev.updNet_flag (d : Dev) (g : NetSt → NetSt) (h : Fld) : (d.updNet g).flag h = d.flag h := rfl
@[simp] theorem Dev.updNet_ax (d : Dev) (g : NetSt → NetSt) (j : Nat) : (d.updNet g).ax j = d.ax j := rfl
@[simp] theorem Dev.updNet_dec (d : Dev) (g : NetSt → NetSt) (j : Nat) : (d.updNet g).dec j = d.dec j := rfl
@[simp] theorem Dev.updNet_prf (d : Dev) (g : NetSt → NetSt) (j : Nat) : (d.updNet g).prf j = d.prf j := rfl
@[simp] theorem Dev.updNet_cmp (d : Dev) (g : NetSt → NetSt) (j : Nat) : (d.updNet g).cmp j = d.cmp j := rfl
@[simp] theorem Dev.updNet_loop (d : Dev) (g : NetSt → NetSt) (j : Nat) : (d.updNet g).loop j = d.loop j := rfl
@[simp] theorem Dev.updNet_grp (d : Dev) (g : NetSt → NetSt) (j : Nat) : (d.updNet g).grp j = d.grp j := rfl
@[simp] theorem Dev.updNet_recipe (d : Dev) (g : NetSt → NetSt) (j : Nat) : (d.updNet g).recipe j = d.recipe j := rfl
@[simp] theorem Dev.updNet_edge (d : Dev) (g : NetSt → NetSt) (j : Nat) : (d.updNet g).edge j = d.edge j := rfl
@[simp] theorem Dev.updNet_zone (d : Dev) (g : NetSt → NetSt) (j : Nat) : (d.updNet g).zone j = d.zone j := rfl
@[simp] theorem Dev.updNet_conn (d : Dev) (g : NetSt → NetSt) (j : Nat) : (d.updNet g).conn j = d.conn j := rfl
@[simp] theorem Dev.updNet_sk (d : Dev) (g : NetSt → NetSt) (j : Nat) : (d.updNet g).sk j = d.sk j := rfl
@[simp] theorem Dev.updNet_eng (d : Dev) (g : NetSt → NetSt) (j : Nat) : (d.updNet g).eng j = d.eng j := rfl

@[simp] theorem Dev.updEasel_regs (d : Dev) (g : EaselSt → EaselSt) : (d.updEasel g).regs = d.regs := rfl
@[simp] theorem Dev.updEasel_regsT (d : Dev) (g : EaselSt → EaselSt) : (d.updEasel g).regsT = d.regsT := rfl
@[simp] theorem Dev.updEasel_mem (d : Dev) (g : EaselSt → EaselSt) : (d.updEasel g).mem = d.mem := rfl
@[simp] theorem Dev.updEasel_time (d : Dev) (g : EaselSt → EaselSt) : (d.updEasel g).time = d.time := rfl
@[simp] theorem Dev.updEasel_net (d : Dev) (g : EaselSt → EaselSt) : (d.updEasel g).net = d.net := rfl
@[simp] theorem Dev.updEasel_engs (d : Dev) (g : EaselSt → EaselSt) : (d.updEasel g).engs = d.engs := rfl
@[simp] theorem Dev.updEasel_axes (d : Dev) (g : EaselSt → EaselSt) : (d.updEasel g).axes = d.axes := rfl
@[simp] theorem Dev.updEasel_decs (d : Dev) (g : EaselSt → EaselSt) : (d.updEasel g).decs = d.decs := rfl
@[simp] theorem Dev.updEasel_prfs (d : Dev) (g : EaselSt → EaselSt) : (d.updEasel g).prfs = d.prfs := rfl
@[simp] theorem Dev.updEasel_cmps (d : Dev) (g : EaselSt → EaselSt) : (d.updEasel g).cmps = d.cmps := rfl
@[simp] theorem Dev.updEasel_loops (d : Dev) (g : EaselSt → EaselSt) : (d.updEasel g).loops = d.loops := rfl
@[simp] theorem Dev.updEasel_grps (d : Dev) (g : EaselSt → EaselSt) : (d.updEasel g).grps = d.grps := rfl
@[simp] theorem Dev.updEasel_rcp (d : Dev) (g : EaselSt → EaselSt) : (d.updEasel g).rcp = d.rcp := rfl
@[simp] theorem Dev.updEasel_saf (d : Dev) (g : EaselSt → EaselSt) : (d.updEasel g).saf = d.saf := rfl
@[simp] theorem Dev.updEasel_twin (d : Dev) (g : EaselSt → EaselSt) : (d.updEasel g).twin = d.twin := rfl
@[simp] theorem Dev.updEasel_vn (d : Dev) (g : EaselSt → EaselSt) : (d.updEasel g).vn = d.vn := rfl
@[simp] theorem Dev.updEasel_sks (d : Dev) (g : EaselSt → EaselSt) : (d.updEasel g).sks = d.sks := rfl
@[simp] theorem Dev.updEasel_evts (d : Dev) (g : EaselSt → EaselSt) : (d.updEasel g).evts = d.evts := rfl
@[simp] theorem Dev.updEasel_ecc (d : Dev) (g : EaselSt → EaselSt) : (d.updEasel g).ecc = d.ecc := rfl
@[simp] theorem Dev.updEasel_host (d : Dev) (g : EaselSt → EaselSt) : (d.updEasel g).host = d.host := rfl
@[simp] theorem Dev.updEasel_nv (d : Dev) (g : EaselSt → EaselSt) : (d.updEasel g).nv = d.nv := rfl
@[simp] theorem Dev.updEasel_store (d : Dev) (g : EaselSt → EaselSt) : (d.updEasel g).store = d.store := rfl
@[simp] theorem Dev.updEasel_balls (d : Dev) (g : EaselSt → EaselSt) : (d.updEasel g).balls = d.balls := rfl
@[simp] theorem Dev.updEasel_mode (d : Dev) (g : EaselSt → EaselSt) : (d.updEasel g).mode = d.mode := rfl
@[simp] theorem Dev.updEasel_out (d : Dev) (g : EaselSt → EaselSt) : (d.updEasel g).out = d.out := rfl
@[simp] theorem Dev.updEasel_free (d : Dev) (g : EaselSt → EaselSt) : (d.updEasel g).free = d.free := rfl
@[simp] theorem Dev.updEasel_rd (d : Dev) (g : EaselSt → EaselSt) (j : Nat) : (d.updEasel g).rd j = d.rd j := rfl
@[simp] theorem Dev.updEasel_fld (d : Dev) (g : EaselSt → EaselSt) (h : Fld) : (d.updEasel g).fld h = d.fld h := rfl
@[simp] theorem Dev.updEasel_flag (d : Dev) (g : EaselSt → EaselSt) (h : Fld) : (d.updEasel g).flag h = d.flag h := rfl
@[simp] theorem Dev.updEasel_ax (d : Dev) (g : EaselSt → EaselSt) (j : Nat) : (d.updEasel g).ax j = d.ax j := rfl
@[simp] theorem Dev.updEasel_dec (d : Dev) (g : EaselSt → EaselSt) (j : Nat) : (d.updEasel g).dec j = d.dec j := rfl
@[simp] theorem Dev.updEasel_prf (d : Dev) (g : EaselSt → EaselSt) (j : Nat) : (d.updEasel g).prf j = d.prf j := rfl
@[simp] theorem Dev.updEasel_cmp (d : Dev) (g : EaselSt → EaselSt) (j : Nat) : (d.updEasel g).cmp j = d.cmp j := rfl
@[simp] theorem Dev.updEasel_loop (d : Dev) (g : EaselSt → EaselSt) (j : Nat) : (d.updEasel g).loop j = d.loop j := rfl
@[simp] theorem Dev.updEasel_grp (d : Dev) (g : EaselSt → EaselSt) (j : Nat) : (d.updEasel g).grp j = d.grp j := rfl
@[simp] theorem Dev.updEasel_recipe (d : Dev) (g : EaselSt → EaselSt) (j : Nat) : (d.updEasel g).recipe j = d.recipe j := rfl
@[simp] theorem Dev.updEasel_edge (d : Dev) (g : EaselSt → EaselSt) (j : Nat) : (d.updEasel g).edge j = d.edge j := rfl
@[simp] theorem Dev.updEasel_zone (d : Dev) (g : EaselSt → EaselSt) (j : Nat) : (d.updEasel g).zone j = d.zone j := rfl
@[simp] theorem Dev.updEasel_conn (d : Dev) (g : EaselSt → EaselSt) (j : Nat) : (d.updEasel g).conn j = d.conn j := rfl
@[simp] theorem Dev.updEasel_line (d : Dev) (g : EaselSt → EaselSt) (j : Nat) : (d.updEasel g).line j = d.line j := rfl
@[simp] theorem Dev.updEasel_head (d : Dev) (g : EaselSt → EaselSt) (j : Nat) : (d.updEasel g).head j = d.head j := rfl
@[simp] theorem Dev.updEasel_sk (d : Dev) (g : EaselSt → EaselSt) (j : Nat) : (d.updEasel g).sk j = d.sk j := rfl
@[simp] theorem Dev.updEasel_eng (d : Dev) (g : EaselSt → EaselSt) (j : Nat) : (d.updEasel g).eng j = d.eng j := rfl

@[simp] theorem Dev.updMode_regs (d : Dev) (g : ModeSt → ModeSt) : (d.updMode g).regs = d.regs := rfl
@[simp] theorem Dev.updMode_regsT (d : Dev) (g : ModeSt → ModeSt) : (d.updMode g).regsT = d.regsT := rfl
@[simp] theorem Dev.updMode_mem (d : Dev) (g : ModeSt → ModeSt) : (d.updMode g).mem = d.mem := rfl
@[simp] theorem Dev.updMode_time (d : Dev) (g : ModeSt → ModeSt) : (d.updMode g).time = d.time := rfl
@[simp] theorem Dev.updMode_net (d : Dev) (g : ModeSt → ModeSt) : (d.updMode g).net = d.net := rfl
@[simp] theorem Dev.updMode_easel (d : Dev) (g : ModeSt → ModeSt) : (d.updMode g).easel = d.easel := rfl
@[simp] theorem Dev.updMode_engs (d : Dev) (g : ModeSt → ModeSt) : (d.updMode g).engs = d.engs := rfl
@[simp] theorem Dev.updMode_axes (d : Dev) (g : ModeSt → ModeSt) : (d.updMode g).axes = d.axes := rfl
@[simp] theorem Dev.updMode_decs (d : Dev) (g : ModeSt → ModeSt) : (d.updMode g).decs = d.decs := rfl
@[simp] theorem Dev.updMode_prfs (d : Dev) (g : ModeSt → ModeSt) : (d.updMode g).prfs = d.prfs := rfl
@[simp] theorem Dev.updMode_cmps (d : Dev) (g : ModeSt → ModeSt) : (d.updMode g).cmps = d.cmps := rfl
@[simp] theorem Dev.updMode_loops (d : Dev) (g : ModeSt → ModeSt) : (d.updMode g).loops = d.loops := rfl
@[simp] theorem Dev.updMode_grps (d : Dev) (g : ModeSt → ModeSt) : (d.updMode g).grps = d.grps := rfl
@[simp] theorem Dev.updMode_rcp (d : Dev) (g : ModeSt → ModeSt) : (d.updMode g).rcp = d.rcp := rfl
@[simp] theorem Dev.updMode_saf (d : Dev) (g : ModeSt → ModeSt) : (d.updMode g).saf = d.saf := rfl
@[simp] theorem Dev.updMode_twin (d : Dev) (g : ModeSt → ModeSt) : (d.updMode g).twin = d.twin := rfl
@[simp] theorem Dev.updMode_vn (d : Dev) (g : ModeSt → ModeSt) : (d.updMode g).vn = d.vn := rfl
@[simp] theorem Dev.updMode_sks (d : Dev) (g : ModeSt → ModeSt) : (d.updMode g).sks = d.sks := rfl
@[simp] theorem Dev.updMode_evts (d : Dev) (g : ModeSt → ModeSt) : (d.updMode g).evts = d.evts := rfl
@[simp] theorem Dev.updMode_ecc (d : Dev) (g : ModeSt → ModeSt) : (d.updMode g).ecc = d.ecc := rfl
@[simp] theorem Dev.updMode_host (d : Dev) (g : ModeSt → ModeSt) : (d.updMode g).host = d.host := rfl
@[simp] theorem Dev.updMode_nv (d : Dev) (g : ModeSt → ModeSt) : (d.updMode g).nv = d.nv := rfl
@[simp] theorem Dev.updMode_store (d : Dev) (g : ModeSt → ModeSt) : (d.updMode g).store = d.store := rfl
@[simp] theorem Dev.updMode_balls (d : Dev) (g : ModeSt → ModeSt) : (d.updMode g).balls = d.balls := rfl
@[simp] theorem Dev.updMode_out (d : Dev) (g : ModeSt → ModeSt) : (d.updMode g).out = d.out := rfl
@[simp] theorem Dev.updMode_free (d : Dev) (g : ModeSt → ModeSt) : (d.updMode g).free = d.free := rfl
@[simp] theorem Dev.updMode_rd (d : Dev) (g : ModeSt → ModeSt) (j : Nat) : (d.updMode g).rd j = d.rd j := rfl
@[simp] theorem Dev.updMode_fld (d : Dev) (g : ModeSt → ModeSt) (h : Fld) : (d.updMode g).fld h = d.fld h := rfl
@[simp] theorem Dev.updMode_flag (d : Dev) (g : ModeSt → ModeSt) (h : Fld) : (d.updMode g).flag h = d.flag h := rfl
@[simp] theorem Dev.updMode_ax (d : Dev) (g : ModeSt → ModeSt) (j : Nat) : (d.updMode g).ax j = d.ax j := rfl
@[simp] theorem Dev.updMode_dec (d : Dev) (g : ModeSt → ModeSt) (j : Nat) : (d.updMode g).dec j = d.dec j := rfl
@[simp] theorem Dev.updMode_prf (d : Dev) (g : ModeSt → ModeSt) (j : Nat) : (d.updMode g).prf j = d.prf j := rfl
@[simp] theorem Dev.updMode_cmp (d : Dev) (g : ModeSt → ModeSt) (j : Nat) : (d.updMode g).cmp j = d.cmp j := rfl
@[simp] theorem Dev.updMode_loop (d : Dev) (g : ModeSt → ModeSt) (j : Nat) : (d.updMode g).loop j = d.loop j := rfl
@[simp] theorem Dev.updMode_grp (d : Dev) (g : ModeSt → ModeSt) (j : Nat) : (d.updMode g).grp j = d.grp j := rfl
@[simp] theorem Dev.updMode_recipe (d : Dev) (g : ModeSt → ModeSt) (j : Nat) : (d.updMode g).recipe j = d.recipe j := rfl
@[simp] theorem Dev.updMode_edge (d : Dev) (g : ModeSt → ModeSt) (j : Nat) : (d.updMode g).edge j = d.edge j := rfl
@[simp] theorem Dev.updMode_zone (d : Dev) (g : ModeSt → ModeSt) (j : Nat) : (d.updMode g).zone j = d.zone j := rfl
@[simp] theorem Dev.updMode_conn (d : Dev) (g : ModeSt → ModeSt) (j : Nat) : (d.updMode g).conn j = d.conn j := rfl
@[simp] theorem Dev.updMode_line (d : Dev) (g : ModeSt → ModeSt) (j : Nat) : (d.updMode g).line j = d.line j := rfl
@[simp] theorem Dev.updMode_head (d : Dev) (g : ModeSt → ModeSt) (j : Nat) : (d.updMode g).head j = d.head j := rfl
@[simp] theorem Dev.updMode_sk (d : Dev) (g : ModeSt → ModeSt) (j : Nat) : (d.updMode g).sk j = d.sk j := rfl
@[simp] theorem Dev.updMode_eng (d : Dev) (g : ModeSt → ModeSt) (j : Nat) : (d.updMode g).eng j = d.eng j := rfl

@[simp] theorem Dev.updSaf_regs (d : Dev) (g : SafSt → SafSt) : (d.updSaf g).regs = d.regs := rfl
@[simp] theorem Dev.updSaf_regsT (d : Dev) (g : SafSt → SafSt) : (d.updSaf g).regsT = d.regsT := rfl
@[simp] theorem Dev.updSaf_mem (d : Dev) (g : SafSt → SafSt) : (d.updSaf g).mem = d.mem := rfl
@[simp] theorem Dev.updSaf_time (d : Dev) (g : SafSt → SafSt) : (d.updSaf g).time = d.time := rfl
@[simp] theorem Dev.updSaf_net (d : Dev) (g : SafSt → SafSt) : (d.updSaf g).net = d.net := rfl
@[simp] theorem Dev.updSaf_easel (d : Dev) (g : SafSt → SafSt) : (d.updSaf g).easel = d.easel := rfl
@[simp] theorem Dev.updSaf_engs (d : Dev) (g : SafSt → SafSt) : (d.updSaf g).engs = d.engs := rfl
@[simp] theorem Dev.updSaf_axes (d : Dev) (g : SafSt → SafSt) : (d.updSaf g).axes = d.axes := rfl
@[simp] theorem Dev.updSaf_decs (d : Dev) (g : SafSt → SafSt) : (d.updSaf g).decs = d.decs := rfl
@[simp] theorem Dev.updSaf_prfs (d : Dev) (g : SafSt → SafSt) : (d.updSaf g).prfs = d.prfs := rfl
@[simp] theorem Dev.updSaf_cmps (d : Dev) (g : SafSt → SafSt) : (d.updSaf g).cmps = d.cmps := rfl
@[simp] theorem Dev.updSaf_loops (d : Dev) (g : SafSt → SafSt) : (d.updSaf g).loops = d.loops := rfl
@[simp] theorem Dev.updSaf_grps (d : Dev) (g : SafSt → SafSt) : (d.updSaf g).grps = d.grps := rfl
@[simp] theorem Dev.updSaf_rcp (d : Dev) (g : SafSt → SafSt) : (d.updSaf g).rcp = d.rcp := rfl
@[simp] theorem Dev.updSaf_twin (d : Dev) (g : SafSt → SafSt) : (d.updSaf g).twin = d.twin := rfl
@[simp] theorem Dev.updSaf_vn (d : Dev) (g : SafSt → SafSt) : (d.updSaf g).vn = d.vn := rfl
@[simp] theorem Dev.updSaf_sks (d : Dev) (g : SafSt → SafSt) : (d.updSaf g).sks = d.sks := rfl
@[simp] theorem Dev.updSaf_evts (d : Dev) (g : SafSt → SafSt) : (d.updSaf g).evts = d.evts := rfl
@[simp] theorem Dev.updSaf_ecc (d : Dev) (g : SafSt → SafSt) : (d.updSaf g).ecc = d.ecc := rfl
@[simp] theorem Dev.updSaf_host (d : Dev) (g : SafSt → SafSt) : (d.updSaf g).host = d.host := rfl
@[simp] theorem Dev.updSaf_nv (d : Dev) (g : SafSt → SafSt) : (d.updSaf g).nv = d.nv := rfl
@[simp] theorem Dev.updSaf_store (d : Dev) (g : SafSt → SafSt) : (d.updSaf g).store = d.store := rfl
@[simp] theorem Dev.updSaf_balls (d : Dev) (g : SafSt → SafSt) : (d.updSaf g).balls = d.balls := rfl
@[simp] theorem Dev.updSaf_mode (d : Dev) (g : SafSt → SafSt) : (d.updSaf g).mode = d.mode := rfl
@[simp] theorem Dev.updSaf_out (d : Dev) (g : SafSt → SafSt) : (d.updSaf g).out = d.out := rfl
@[simp] theorem Dev.updSaf_free (d : Dev) (g : SafSt → SafSt) : (d.updSaf g).free = d.free := rfl
@[simp] theorem Dev.updSaf_rd (d : Dev) (g : SafSt → SafSt) (j : Nat) : (d.updSaf g).rd j = d.rd j := rfl
@[simp] theorem Dev.updSaf_fld (d : Dev) (g : SafSt → SafSt) (h : Fld) : (d.updSaf g).fld h = d.fld h := rfl
@[simp] theorem Dev.updSaf_flag (d : Dev) (g : SafSt → SafSt) (h : Fld) : (d.updSaf g).flag h = d.flag h := rfl
@[simp] theorem Dev.updSaf_ax (d : Dev) (g : SafSt → SafSt) (j : Nat) : (d.updSaf g).ax j = d.ax j := rfl
@[simp] theorem Dev.updSaf_dec (d : Dev) (g : SafSt → SafSt) (j : Nat) : (d.updSaf g).dec j = d.dec j := rfl
@[simp] theorem Dev.updSaf_prf (d : Dev) (g : SafSt → SafSt) (j : Nat) : (d.updSaf g).prf j = d.prf j := rfl
@[simp] theorem Dev.updSaf_cmp (d : Dev) (g : SafSt → SafSt) (j : Nat) : (d.updSaf g).cmp j = d.cmp j := rfl
@[simp] theorem Dev.updSaf_loop (d : Dev) (g : SafSt → SafSt) (j : Nat) : (d.updSaf g).loop j = d.loop j := rfl
@[simp] theorem Dev.updSaf_grp (d : Dev) (g : SafSt → SafSt) (j : Nat) : (d.updSaf g).grp j = d.grp j := rfl
@[simp] theorem Dev.updSaf_recipe (d : Dev) (g : SafSt → SafSt) (j : Nat) : (d.updSaf g).recipe j = d.recipe j := rfl
@[simp] theorem Dev.updSaf_edge (d : Dev) (g : SafSt → SafSt) (j : Nat) : (d.updSaf g).edge j = d.edge j := rfl
@[simp] theorem Dev.updSaf_line (d : Dev) (g : SafSt → SafSt) (j : Nat) : (d.updSaf g).line j = d.line j := rfl
@[simp] theorem Dev.updSaf_head (d : Dev) (g : SafSt → SafSt) (j : Nat) : (d.updSaf g).head j = d.head j := rfl
@[simp] theorem Dev.updSaf_sk (d : Dev) (g : SafSt → SafSt) (j : Nat) : (d.updSaf g).sk j = d.sk j := rfl
@[simp] theorem Dev.updSaf_eng (d : Dev) (g : SafSt → SafSt) (j : Nat) : (d.updSaf g).eng j = d.eng j := rfl

@[simp] theorem Dev.updTwin_regs (d : Dev) (g : TwinSt → TwinSt) : (d.updTwin g).regs = d.regs := rfl
@[simp] theorem Dev.updTwin_regsT (d : Dev) (g : TwinSt → TwinSt) : (d.updTwin g).regsT = d.regsT := rfl
@[simp] theorem Dev.updTwin_mem (d : Dev) (g : TwinSt → TwinSt) : (d.updTwin g).mem = d.mem := rfl
@[simp] theorem Dev.updTwin_time (d : Dev) (g : TwinSt → TwinSt) : (d.updTwin g).time = d.time := rfl
@[simp] theorem Dev.updTwin_net (d : Dev) (g : TwinSt → TwinSt) : (d.updTwin g).net = d.net := rfl
@[simp] theorem Dev.updTwin_easel (d : Dev) (g : TwinSt → TwinSt) : (d.updTwin g).easel = d.easel := rfl
@[simp] theorem Dev.updTwin_engs (d : Dev) (g : TwinSt → TwinSt) : (d.updTwin g).engs = d.engs := rfl
@[simp] theorem Dev.updTwin_axes (d : Dev) (g : TwinSt → TwinSt) : (d.updTwin g).axes = d.axes := rfl
@[simp] theorem Dev.updTwin_decs (d : Dev) (g : TwinSt → TwinSt) : (d.updTwin g).decs = d.decs := rfl
@[simp] theorem Dev.updTwin_prfs (d : Dev) (g : TwinSt → TwinSt) : (d.updTwin g).prfs = d.prfs := rfl
@[simp] theorem Dev.updTwin_cmps (d : Dev) (g : TwinSt → TwinSt) : (d.updTwin g).cmps = d.cmps := rfl
@[simp] theorem Dev.updTwin_loops (d : Dev) (g : TwinSt → TwinSt) : (d.updTwin g).loops = d.loops := rfl
@[simp] theorem Dev.updTwin_grps (d : Dev) (g : TwinSt → TwinSt) : (d.updTwin g).grps = d.grps := rfl
@[simp] theorem Dev.updTwin_rcp (d : Dev) (g : TwinSt → TwinSt) : (d.updTwin g).rcp = d.rcp := rfl
@[simp] theorem Dev.updTwin_saf (d : Dev) (g : TwinSt → TwinSt) : (d.updTwin g).saf = d.saf := rfl
@[simp] theorem Dev.updTwin_vn (d : Dev) (g : TwinSt → TwinSt) : (d.updTwin g).vn = d.vn := rfl
@[simp] theorem Dev.updTwin_sks (d : Dev) (g : TwinSt → TwinSt) : (d.updTwin g).sks = d.sks := rfl
@[simp] theorem Dev.updTwin_evts (d : Dev) (g : TwinSt → TwinSt) : (d.updTwin g).evts = d.evts := rfl
@[simp] theorem Dev.updTwin_ecc (d : Dev) (g : TwinSt → TwinSt) : (d.updTwin g).ecc = d.ecc := rfl
@[simp] theorem Dev.updTwin_host (d : Dev) (g : TwinSt → TwinSt) : (d.updTwin g).host = d.host := rfl
@[simp] theorem Dev.updTwin_nv (d : Dev) (g : TwinSt → TwinSt) : (d.updTwin g).nv = d.nv := rfl
@[simp] theorem Dev.updTwin_store (d : Dev) (g : TwinSt → TwinSt) : (d.updTwin g).store = d.store := rfl
@[simp] theorem Dev.updTwin_balls (d : Dev) (g : TwinSt → TwinSt) : (d.updTwin g).balls = d.balls := rfl
@[simp] theorem Dev.updTwin_mode (d : Dev) (g : TwinSt → TwinSt) : (d.updTwin g).mode = d.mode := rfl
@[simp] theorem Dev.updTwin_out (d : Dev) (g : TwinSt → TwinSt) : (d.updTwin g).out = d.out := rfl
@[simp] theorem Dev.updTwin_free (d : Dev) (g : TwinSt → TwinSt) : (d.updTwin g).free = d.free := rfl
@[simp] theorem Dev.updTwin_rd (d : Dev) (g : TwinSt → TwinSt) (j : Nat) : (d.updTwin g).rd j = d.rd j := rfl
@[simp] theorem Dev.updTwin_fld (d : Dev) (g : TwinSt → TwinSt) (h : Fld) : (d.updTwin g).fld h = d.fld h := rfl
@[simp] theorem Dev.updTwin_flag (d : Dev) (g : TwinSt → TwinSt) (h : Fld) : (d.updTwin g).flag h = d.flag h := rfl
@[simp] theorem Dev.updTwin_ax (d : Dev) (g : TwinSt → TwinSt) (j : Nat) : (d.updTwin g).ax j = d.ax j := rfl
@[simp] theorem Dev.updTwin_dec (d : Dev) (g : TwinSt → TwinSt) (j : Nat) : (d.updTwin g).dec j = d.dec j := rfl
@[simp] theorem Dev.updTwin_prf (d : Dev) (g : TwinSt → TwinSt) (j : Nat) : (d.updTwin g).prf j = d.prf j := rfl
@[simp] theorem Dev.updTwin_cmp (d : Dev) (g : TwinSt → TwinSt) (j : Nat) : (d.updTwin g).cmp j = d.cmp j := rfl
@[simp] theorem Dev.updTwin_loop (d : Dev) (g : TwinSt → TwinSt) (j : Nat) : (d.updTwin g).loop j = d.loop j := rfl
@[simp] theorem Dev.updTwin_grp (d : Dev) (g : TwinSt → TwinSt) (j : Nat) : (d.updTwin g).grp j = d.grp j := rfl
@[simp] theorem Dev.updTwin_recipe (d : Dev) (g : TwinSt → TwinSt) (j : Nat) : (d.updTwin g).recipe j = d.recipe j := rfl
@[simp] theorem Dev.updTwin_edge (d : Dev) (g : TwinSt → TwinSt) (j : Nat) : (d.updTwin g).edge j = d.edge j := rfl
@[simp] theorem Dev.updTwin_zone (d : Dev) (g : TwinSt → TwinSt) (j : Nat) : (d.updTwin g).zone j = d.zone j := rfl
@[simp] theorem Dev.updTwin_conn (d : Dev) (g : TwinSt → TwinSt) (j : Nat) : (d.updTwin g).conn j = d.conn j := rfl
@[simp] theorem Dev.updTwin_line (d : Dev) (g : TwinSt → TwinSt) (j : Nat) : (d.updTwin g).line j = d.line j := rfl
@[simp] theorem Dev.updTwin_head (d : Dev) (g : TwinSt → TwinSt) (j : Nat) : (d.updTwin g).head j = d.head j := rfl
@[simp] theorem Dev.updTwin_sk (d : Dev) (g : TwinSt → TwinSt) (j : Nat) : (d.updTwin g).sk j = d.sk j := rfl
@[simp] theorem Dev.updTwin_eng (d : Dev) (g : TwinSt → TwinSt) (j : Nat) : (d.updTwin g).eng j = d.eng j := rfl

@[simp] theorem Dev.updHost_regs (d : Dev) (g : HostSt → HostSt) : (d.updHost g).regs = d.regs := rfl
@[simp] theorem Dev.updHost_regsT (d : Dev) (g : HostSt → HostSt) : (d.updHost g).regsT = d.regsT := rfl
@[simp] theorem Dev.updHost_mem (d : Dev) (g : HostSt → HostSt) : (d.updHost g).mem = d.mem := rfl
@[simp] theorem Dev.updHost_time (d : Dev) (g : HostSt → HostSt) : (d.updHost g).time = d.time := rfl
@[simp] theorem Dev.updHost_net (d : Dev) (g : HostSt → HostSt) : (d.updHost g).net = d.net := rfl
@[simp] theorem Dev.updHost_easel (d : Dev) (g : HostSt → HostSt) : (d.updHost g).easel = d.easel := rfl
@[simp] theorem Dev.updHost_engs (d : Dev) (g : HostSt → HostSt) : (d.updHost g).engs = d.engs := rfl
@[simp] theorem Dev.updHost_axes (d : Dev) (g : HostSt → HostSt) : (d.updHost g).axes = d.axes := rfl
@[simp] theorem Dev.updHost_decs (d : Dev) (g : HostSt → HostSt) : (d.updHost g).decs = d.decs := rfl
@[simp] theorem Dev.updHost_prfs (d : Dev) (g : HostSt → HostSt) : (d.updHost g).prfs = d.prfs := rfl
@[simp] theorem Dev.updHost_cmps (d : Dev) (g : HostSt → HostSt) : (d.updHost g).cmps = d.cmps := rfl
@[simp] theorem Dev.updHost_loops (d : Dev) (g : HostSt → HostSt) : (d.updHost g).loops = d.loops := rfl
@[simp] theorem Dev.updHost_grps (d : Dev) (g : HostSt → HostSt) : (d.updHost g).grps = d.grps := rfl
@[simp] theorem Dev.updHost_rcp (d : Dev) (g : HostSt → HostSt) : (d.updHost g).rcp = d.rcp := rfl
@[simp] theorem Dev.updHost_saf (d : Dev) (g : HostSt → HostSt) : (d.updHost g).saf = d.saf := rfl
@[simp] theorem Dev.updHost_twin (d : Dev) (g : HostSt → HostSt) : (d.updHost g).twin = d.twin := rfl
@[simp] theorem Dev.updHost_vn (d : Dev) (g : HostSt → HostSt) : (d.updHost g).vn = d.vn := rfl
@[simp] theorem Dev.updHost_sks (d : Dev) (g : HostSt → HostSt) : (d.updHost g).sks = d.sks := rfl
@[simp] theorem Dev.updHost_evts (d : Dev) (g : HostSt → HostSt) : (d.updHost g).evts = d.evts := rfl
@[simp] theorem Dev.updHost_ecc (d : Dev) (g : HostSt → HostSt) : (d.updHost g).ecc = d.ecc := rfl
@[simp] theorem Dev.updHost_nv (d : Dev) (g : HostSt → HostSt) : (d.updHost g).nv = d.nv := rfl
@[simp] theorem Dev.updHost_store (d : Dev) (g : HostSt → HostSt) : (d.updHost g).store = d.store := rfl
@[simp] theorem Dev.updHost_balls (d : Dev) (g : HostSt → HostSt) : (d.updHost g).balls = d.balls := rfl
@[simp] theorem Dev.updHost_mode (d : Dev) (g : HostSt → HostSt) : (d.updHost g).mode = d.mode := rfl
@[simp] theorem Dev.updHost_out (d : Dev) (g : HostSt → HostSt) : (d.updHost g).out = d.out := rfl
@[simp] theorem Dev.updHost_free (d : Dev) (g : HostSt → HostSt) : (d.updHost g).free = d.free := rfl
@[simp] theorem Dev.updHost_rd (d : Dev) (g : HostSt → HostSt) (j : Nat) : (d.updHost g).rd j = d.rd j := rfl
@[simp] theorem Dev.updHost_fld (d : Dev) (g : HostSt → HostSt) (h : Fld) : (d.updHost g).fld h = d.fld h := rfl
@[simp] theorem Dev.updHost_flag (d : Dev) (g : HostSt → HostSt) (h : Fld) : (d.updHost g).flag h = d.flag h := rfl
@[simp] theorem Dev.updHost_ax (d : Dev) (g : HostSt → HostSt) (j : Nat) : (d.updHost g).ax j = d.ax j := rfl
@[simp] theorem Dev.updHost_dec (d : Dev) (g : HostSt → HostSt) (j : Nat) : (d.updHost g).dec j = d.dec j := rfl
@[simp] theorem Dev.updHost_prf (d : Dev) (g : HostSt → HostSt) (j : Nat) : (d.updHost g).prf j = d.prf j := rfl
@[simp] theorem Dev.updHost_cmp (d : Dev) (g : HostSt → HostSt) (j : Nat) : (d.updHost g).cmp j = d.cmp j := rfl
@[simp] theorem Dev.updHost_loop (d : Dev) (g : HostSt → HostSt) (j : Nat) : (d.updHost g).loop j = d.loop j := rfl
@[simp] theorem Dev.updHost_grp (d : Dev) (g : HostSt → HostSt) (j : Nat) : (d.updHost g).grp j = d.grp j := rfl
@[simp] theorem Dev.updHost_recipe (d : Dev) (g : HostSt → HostSt) (j : Nat) : (d.updHost g).recipe j = d.recipe j := rfl
@[simp] theorem Dev.updHost_edge (d : Dev) (g : HostSt → HostSt) (j : Nat) : (d.updHost g).edge j = d.edge j := rfl
@[simp] theorem Dev.updHost_zone (d : Dev) (g : HostSt → HostSt) (j : Nat) : (d.updHost g).zone j = d.zone j := rfl
@[simp] theorem Dev.updHost_conn (d : Dev) (g : HostSt → HostSt) (j : Nat) : (d.updHost g).conn j = d.conn j := rfl
@[simp] theorem Dev.updHost_line (d : Dev) (g : HostSt → HostSt) (j : Nat) : (d.updHost g).line j = d.line j := rfl
@[simp] theorem Dev.updHost_head (d : Dev) (g : HostSt → HostSt) (j : Nat) : (d.updHost g).head j = d.head j := rfl
@[simp] theorem Dev.updHost_sk (d : Dev) (g : HostSt → HostSt) (j : Nat) : (d.updHost g).sk j = d.sk j := rfl
@[simp] theorem Dev.updHost_eng (d : Dev) (g : HostSt → HostSt) (j : Nat) : (d.updHost g).eng j = d.eng j := rfl

@[simp] theorem Dev.updNv_regs (d : Dev) (g : NvSt → NvSt) : (d.updNv g).regs = d.regs := rfl
@[simp] theorem Dev.updNv_regsT (d : Dev) (g : NvSt → NvSt) : (d.updNv g).regsT = d.regsT := rfl
@[simp] theorem Dev.updNv_mem (d : Dev) (g : NvSt → NvSt) : (d.updNv g).mem = d.mem := rfl
@[simp] theorem Dev.updNv_time (d : Dev) (g : NvSt → NvSt) : (d.updNv g).time = d.time := rfl
@[simp] theorem Dev.updNv_net (d : Dev) (g : NvSt → NvSt) : (d.updNv g).net = d.net := rfl
@[simp] theorem Dev.updNv_easel (d : Dev) (g : NvSt → NvSt) : (d.updNv g).easel = d.easel := rfl
@[simp] theorem Dev.updNv_engs (d : Dev) (g : NvSt → NvSt) : (d.updNv g).engs = d.engs := rfl
@[simp] theorem Dev.updNv_axes (d : Dev) (g : NvSt → NvSt) : (d.updNv g).axes = d.axes := rfl
@[simp] theorem Dev.updNv_decs (d : Dev) (g : NvSt → NvSt) : (d.updNv g).decs = d.decs := rfl
@[simp] theorem Dev.updNv_prfs (d : Dev) (g : NvSt → NvSt) : (d.updNv g).prfs = d.prfs := rfl
@[simp] theorem Dev.updNv_cmps (d : Dev) (g : NvSt → NvSt) : (d.updNv g).cmps = d.cmps := rfl
@[simp] theorem Dev.updNv_loops (d : Dev) (g : NvSt → NvSt) : (d.updNv g).loops = d.loops := rfl
@[simp] theorem Dev.updNv_grps (d : Dev) (g : NvSt → NvSt) : (d.updNv g).grps = d.grps := rfl
@[simp] theorem Dev.updNv_rcp (d : Dev) (g : NvSt → NvSt) : (d.updNv g).rcp = d.rcp := rfl
@[simp] theorem Dev.updNv_saf (d : Dev) (g : NvSt → NvSt) : (d.updNv g).saf = d.saf := rfl
@[simp] theorem Dev.updNv_twin (d : Dev) (g : NvSt → NvSt) : (d.updNv g).twin = d.twin := rfl
@[simp] theorem Dev.updNv_vn (d : Dev) (g : NvSt → NvSt) : (d.updNv g).vn = d.vn := rfl
@[simp] theorem Dev.updNv_sks (d : Dev) (g : NvSt → NvSt) : (d.updNv g).sks = d.sks := rfl
@[simp] theorem Dev.updNv_evts (d : Dev) (g : NvSt → NvSt) : (d.updNv g).evts = d.evts := rfl
@[simp] theorem Dev.updNv_ecc (d : Dev) (g : NvSt → NvSt) : (d.updNv g).ecc = d.ecc := rfl
@[simp] theorem Dev.updNv_host (d : Dev) (g : NvSt → NvSt) : (d.updNv g).host = d.host := rfl
@[simp] theorem Dev.updNv_store (d : Dev) (g : NvSt → NvSt) : (d.updNv g).store = d.store := rfl
@[simp] theorem Dev.updNv_balls (d : Dev) (g : NvSt → NvSt) : (d.updNv g).balls = d.balls := rfl
@[simp] theorem Dev.updNv_mode (d : Dev) (g : NvSt → NvSt) : (d.updNv g).mode = d.mode := rfl
@[simp] theorem Dev.updNv_out (d : Dev) (g : NvSt → NvSt) : (d.updNv g).out = d.out := rfl
@[simp] theorem Dev.updNv_free (d : Dev) (g : NvSt → NvSt) : (d.updNv g).free = d.free := rfl
@[simp] theorem Dev.updNv_rd (d : Dev) (g : NvSt → NvSt) (j : Nat) : (d.updNv g).rd j = d.rd j := rfl
@[simp] theorem Dev.updNv_fld (d : Dev) (g : NvSt → NvSt) (h : Fld) : (d.updNv g).fld h = d.fld h := rfl
@[simp] theorem Dev.updNv_flag (d : Dev) (g : NvSt → NvSt) (h : Fld) : (d.updNv g).flag h = d.flag h := rfl
@[simp] theorem Dev.updNv_ax (d : Dev) (g : NvSt → NvSt) (j : Nat) : (d.updNv g).ax j = d.ax j := rfl
@[simp] theorem Dev.updNv_dec (d : Dev) (g : NvSt → NvSt) (j : Nat) : (d.updNv g).dec j = d.dec j := rfl
@[simp] theorem Dev.updNv_prf (d : Dev) (g : NvSt → NvSt) (j : Nat) : (d.updNv g).prf j = d.prf j := rfl
@[simp] theorem Dev.updNv_cmp (d : Dev) (g : NvSt → NvSt) (j : Nat) : (d.updNv g).cmp j = d.cmp j := rfl
@[simp] theorem Dev.updNv_loop (d : Dev) (g : NvSt → NvSt) (j : Nat) : (d.updNv g).loop j = d.loop j := rfl
@[simp] theorem Dev.updNv_grp (d : Dev) (g : NvSt → NvSt) (j : Nat) : (d.updNv g).grp j = d.grp j := rfl
@[simp] theorem Dev.updNv_recipe (d : Dev) (g : NvSt → NvSt) (j : Nat) : (d.updNv g).recipe j = d.recipe j := rfl
@[simp] theorem Dev.updNv_edge (d : Dev) (g : NvSt → NvSt) (j : Nat) : (d.updNv g).edge j = d.edge j := rfl
@[simp] theorem Dev.updNv_zone (d : Dev) (g : NvSt → NvSt) (j : Nat) : (d.updNv g).zone j = d.zone j := rfl
@[simp] theorem Dev.updNv_conn (d : Dev) (g : NvSt → NvSt) (j : Nat) : (d.updNv g).conn j = d.conn j := rfl
@[simp] theorem Dev.updNv_line (d : Dev) (g : NvSt → NvSt) (j : Nat) : (d.updNv g).line j = d.line j := rfl
@[simp] theorem Dev.updNv_head (d : Dev) (g : NvSt → NvSt) (j : Nat) : (d.updNv g).head j = d.head j := rfl
@[simp] theorem Dev.updNv_sk (d : Dev) (g : NvSt → NvSt) (j : Nat) : (d.updNv g).sk j = d.sk j := rfl
@[simp] theorem Dev.updNv_eng (d : Dev) (g : NvSt → NvSt) (j : Nat) : (d.updNv g).eng j = d.eng j := rfl

@[simp] theorem Dev.updStore_regs (d : Dev) (g : StoreSt → StoreSt) : (d.updStore g).regs = d.regs := rfl
@[simp] theorem Dev.updStore_regsT (d : Dev) (g : StoreSt → StoreSt) : (d.updStore g).regsT = d.regsT := rfl
@[simp] theorem Dev.updStore_mem (d : Dev) (g : StoreSt → StoreSt) : (d.updStore g).mem = d.mem := rfl
@[simp] theorem Dev.updStore_time (d : Dev) (g : StoreSt → StoreSt) : (d.updStore g).time = d.time := rfl
@[simp] theorem Dev.updStore_net (d : Dev) (g : StoreSt → StoreSt) : (d.updStore g).net = d.net := rfl
@[simp] theorem Dev.updStore_easel (d : Dev) (g : StoreSt → StoreSt) : (d.updStore g).easel = d.easel := rfl
@[simp] theorem Dev.updStore_engs (d : Dev) (g : StoreSt → StoreSt) : (d.updStore g).engs = d.engs := rfl
@[simp] theorem Dev.updStore_axes (d : Dev) (g : StoreSt → StoreSt) : (d.updStore g).axes = d.axes := rfl
@[simp] theorem Dev.updStore_decs (d : Dev) (g : StoreSt → StoreSt) : (d.updStore g).decs = d.decs := rfl
@[simp] theorem Dev.updStore_prfs (d : Dev) (g : StoreSt → StoreSt) : (d.updStore g).prfs = d.prfs := rfl
@[simp] theorem Dev.updStore_cmps (d : Dev) (g : StoreSt → StoreSt) : (d.updStore g).cmps = d.cmps := rfl
@[simp] theorem Dev.updStore_loops (d : Dev) (g : StoreSt → StoreSt) : (d.updStore g).loops = d.loops := rfl
@[simp] theorem Dev.updStore_grps (d : Dev) (g : StoreSt → StoreSt) : (d.updStore g).grps = d.grps := rfl
@[simp] theorem Dev.updStore_rcp (d : Dev) (g : StoreSt → StoreSt) : (d.updStore g).rcp = d.rcp := rfl
@[simp] theorem Dev.updStore_saf (d : Dev) (g : StoreSt → StoreSt) : (d.updStore g).saf = d.saf := rfl
@[simp] theorem Dev.updStore_twin (d : Dev) (g : StoreSt → StoreSt) : (d.updStore g).twin = d.twin := rfl
@[simp] theorem Dev.updStore_vn (d : Dev) (g : StoreSt → StoreSt) : (d.updStore g).vn = d.vn := rfl
@[simp] theorem Dev.updStore_sks (d : Dev) (g : StoreSt → StoreSt) : (d.updStore g).sks = d.sks := rfl
@[simp] theorem Dev.updStore_evts (d : Dev) (g : StoreSt → StoreSt) : (d.updStore g).evts = d.evts := rfl
@[simp] theorem Dev.updStore_ecc (d : Dev) (g : StoreSt → StoreSt) : (d.updStore g).ecc = d.ecc := rfl
@[simp] theorem Dev.updStore_host (d : Dev) (g : StoreSt → StoreSt) : (d.updStore g).host = d.host := rfl
@[simp] theorem Dev.updStore_nv (d : Dev) (g : StoreSt → StoreSt) : (d.updStore g).nv = d.nv := rfl
@[simp] theorem Dev.updStore_balls (d : Dev) (g : StoreSt → StoreSt) : (d.updStore g).balls = d.balls := rfl
@[simp] theorem Dev.updStore_mode (d : Dev) (g : StoreSt → StoreSt) : (d.updStore g).mode = d.mode := rfl
@[simp] theorem Dev.updStore_out (d : Dev) (g : StoreSt → StoreSt) : (d.updStore g).out = d.out := rfl
@[simp] theorem Dev.updStore_free (d : Dev) (g : StoreSt → StoreSt) : (d.updStore g).free = d.free := rfl
@[simp] theorem Dev.updStore_rd (d : Dev) (g : StoreSt → StoreSt) (j : Nat) : (d.updStore g).rd j = d.rd j := rfl
@[simp] theorem Dev.updStore_fld (d : Dev) (g : StoreSt → StoreSt) (h : Fld) : (d.updStore g).fld h = d.fld h := rfl
@[simp] theorem Dev.updStore_flag (d : Dev) (g : StoreSt → StoreSt) (h : Fld) : (d.updStore g).flag h = d.flag h := rfl
@[simp] theorem Dev.updStore_ax (d : Dev) (g : StoreSt → StoreSt) (j : Nat) : (d.updStore g).ax j = d.ax j := rfl
@[simp] theorem Dev.updStore_dec (d : Dev) (g : StoreSt → StoreSt) (j : Nat) : (d.updStore g).dec j = d.dec j := rfl
@[simp] theorem Dev.updStore_prf (d : Dev) (g : StoreSt → StoreSt) (j : Nat) : (d.updStore g).prf j = d.prf j := rfl
@[simp] theorem Dev.updStore_cmp (d : Dev) (g : StoreSt → StoreSt) (j : Nat) : (d.updStore g).cmp j = d.cmp j := rfl
@[simp] theorem Dev.updStore_loop (d : Dev) (g : StoreSt → StoreSt) (j : Nat) : (d.updStore g).loop j = d.loop j := rfl
@[simp] theorem Dev.updStore_grp (d : Dev) (g : StoreSt → StoreSt) (j : Nat) : (d.updStore g).grp j = d.grp j := rfl
@[simp] theorem Dev.updStore_recipe (d : Dev) (g : StoreSt → StoreSt) (j : Nat) : (d.updStore g).recipe j = d.recipe j := rfl
@[simp] theorem Dev.updStore_edge (d : Dev) (g : StoreSt → StoreSt) (j : Nat) : (d.updStore g).edge j = d.edge j := rfl
@[simp] theorem Dev.updStore_zone (d : Dev) (g : StoreSt → StoreSt) (j : Nat) : (d.updStore g).zone j = d.zone j := rfl
@[simp] theorem Dev.updStore_conn (d : Dev) (g : StoreSt → StoreSt) (j : Nat) : (d.updStore g).conn j = d.conn j := rfl
@[simp] theorem Dev.updStore_line (d : Dev) (g : StoreSt → StoreSt) (j : Nat) : (d.updStore g).line j = d.line j := rfl
@[simp] theorem Dev.updStore_head (d : Dev) (g : StoreSt → StoreSt) (j : Nat) : (d.updStore g).head j = d.head j := rfl
@[simp] theorem Dev.updStore_sk (d : Dev) (g : StoreSt → StoreSt) (j : Nat) : (d.updStore g).sk j = d.sk j := rfl
@[simp] theorem Dev.updStore_eng (d : Dev) (g : StoreSt → StoreSt) (j : Nat) : (d.updStore g).eng j = d.eng j := rfl

@[simp] theorem Dev.updBalls_regs (d : Dev) (g : Balls → Balls) : (d.updBalls g).regs = d.regs := rfl
@[simp] theorem Dev.updBalls_regsT (d : Dev) (g : Balls → Balls) : (d.updBalls g).regsT = d.regsT := rfl
@[simp] theorem Dev.updBalls_mem (d : Dev) (g : Balls → Balls) : (d.updBalls g).mem = d.mem := rfl
@[simp] theorem Dev.updBalls_time (d : Dev) (g : Balls → Balls) : (d.updBalls g).time = d.time := rfl
@[simp] theorem Dev.updBalls_net (d : Dev) (g : Balls → Balls) : (d.updBalls g).net = d.net := rfl
@[simp] theorem Dev.updBalls_easel (d : Dev) (g : Balls → Balls) : (d.updBalls g).easel = d.easel := rfl
@[simp] theorem Dev.updBalls_engs (d : Dev) (g : Balls → Balls) : (d.updBalls g).engs = d.engs := rfl
@[simp] theorem Dev.updBalls_axes (d : Dev) (g : Balls → Balls) : (d.updBalls g).axes = d.axes := rfl
@[simp] theorem Dev.updBalls_decs (d : Dev) (g : Balls → Balls) : (d.updBalls g).decs = d.decs := rfl
@[simp] theorem Dev.updBalls_prfs (d : Dev) (g : Balls → Balls) : (d.updBalls g).prfs = d.prfs := rfl
@[simp] theorem Dev.updBalls_cmps (d : Dev) (g : Balls → Balls) : (d.updBalls g).cmps = d.cmps := rfl
@[simp] theorem Dev.updBalls_loops (d : Dev) (g : Balls → Balls) : (d.updBalls g).loops = d.loops := rfl
@[simp] theorem Dev.updBalls_grps (d : Dev) (g : Balls → Balls) : (d.updBalls g).grps = d.grps := rfl
@[simp] theorem Dev.updBalls_rcp (d : Dev) (g : Balls → Balls) : (d.updBalls g).rcp = d.rcp := rfl
@[simp] theorem Dev.updBalls_saf (d : Dev) (g : Balls → Balls) : (d.updBalls g).saf = d.saf := rfl
@[simp] theorem Dev.updBalls_twin (d : Dev) (g : Balls → Balls) : (d.updBalls g).twin = d.twin := rfl
@[simp] theorem Dev.updBalls_vn (d : Dev) (g : Balls → Balls) : (d.updBalls g).vn = d.vn := rfl
@[simp] theorem Dev.updBalls_sks (d : Dev) (g : Balls → Balls) : (d.updBalls g).sks = d.sks := rfl
@[simp] theorem Dev.updBalls_evts (d : Dev) (g : Balls → Balls) : (d.updBalls g).evts = d.evts := rfl
@[simp] theorem Dev.updBalls_ecc (d : Dev) (g : Balls → Balls) : (d.updBalls g).ecc = d.ecc := rfl
@[simp] theorem Dev.updBalls_host (d : Dev) (g : Balls → Balls) : (d.updBalls g).host = d.host := rfl
@[simp] theorem Dev.updBalls_nv (d : Dev) (g : Balls → Balls) : (d.updBalls g).nv = d.nv := rfl
@[simp] theorem Dev.updBalls_store (d : Dev) (g : Balls → Balls) : (d.updBalls g).store = d.store := rfl
@[simp] theorem Dev.updBalls_mode (d : Dev) (g : Balls → Balls) : (d.updBalls g).mode = d.mode := rfl
@[simp] theorem Dev.updBalls_out (d : Dev) (g : Balls → Balls) : (d.updBalls g).out = d.out := rfl
@[simp] theorem Dev.updBalls_free (d : Dev) (g : Balls → Balls) : (d.updBalls g).free = d.free := rfl
@[simp] theorem Dev.updBalls_rd (d : Dev) (g : Balls → Balls) (j : Nat) : (d.updBalls g).rd j = d.rd j := rfl
@[simp] theorem Dev.updBalls_fld (d : Dev) (g : Balls → Balls) (h : Fld) : (d.updBalls g).fld h = d.fld h := rfl
@[simp] theorem Dev.updBalls_flag (d : Dev) (g : Balls → Balls) (h : Fld) : (d.updBalls g).flag h = d.flag h := rfl
@[simp] theorem Dev.updBalls_ax (d : Dev) (g : Balls → Balls) (j : Nat) : (d.updBalls g).ax j = d.ax j := rfl
@[simp] theorem Dev.updBalls_dec (d : Dev) (g : Balls → Balls) (j : Nat) : (d.updBalls g).dec j = d.dec j := rfl
@[simp] theorem Dev.updBalls_prf (d : Dev) (g : Balls → Balls) (j : Nat) : (d.updBalls g).prf j = d.prf j := rfl
@[simp] theorem Dev.updBalls_cmp (d : Dev) (g : Balls → Balls) (j : Nat) : (d.updBalls g).cmp j = d.cmp j := rfl
@[simp] theorem Dev.updBalls_loop (d : Dev) (g : Balls → Balls) (j : Nat) : (d.updBalls g).loop j = d.loop j := rfl
@[simp] theorem Dev.updBalls_grp (d : Dev) (g : Balls → Balls) (j : Nat) : (d.updBalls g).grp j = d.grp j := rfl
@[simp] theorem Dev.updBalls_recipe (d : Dev) (g : Balls → Balls) (j : Nat) : (d.updBalls g).recipe j = d.recipe j := rfl
@[simp] theorem Dev.updBalls_edge (d : Dev) (g : Balls → Balls) (j : Nat) : (d.updBalls g).edge j = d.edge j := rfl
@[simp] theorem Dev.updBalls_zone (d : Dev) (g : Balls → Balls) (j : Nat) : (d.updBalls g).zone j = d.zone j := rfl
@[simp] theorem Dev.updBalls_conn (d : Dev) (g : Balls → Balls) (j : Nat) : (d.updBalls g).conn j = d.conn j := rfl
@[simp] theorem Dev.updBalls_line (d : Dev) (g : Balls → Balls) (j : Nat) : (d.updBalls g).line j = d.line j := rfl
@[simp] theorem Dev.updBalls_head (d : Dev) (g : Balls → Balls) (j : Nat) : (d.updBalls g).head j = d.head j := rfl
@[simp] theorem Dev.updBalls_sk (d : Dev) (g : Balls → Balls) (j : Nat) : (d.updBalls g).sk j = d.sk j := rfl
@[simp] theorem Dev.updBalls_eng (d : Dev) (g : Balls → Balls) (j : Nat) : (d.updBalls g).eng j = d.eng j := rfl

@[simp] theorem Dev.draw_snd (d : Dev) : d.draw.2 = { d with free := d.free + 1 } := rfl
@[simp] theorem Dev.draw_fst (d : Dev) : d.draw.1 = Config.freeValue d.free := rfl

end Sys2Proof.Machine
end

