-- ==== Sys2Proof/Laws/Ops.lean ====
section
/-! SUPPORT. One lemma per shared operation: what registers, fields, numbered units and bytes read after
they were written, and that every memory operation keeps the canonical form. -/

namespace Sys2Proof.Machine

/-! ## Registers -/

theorem Dev.rd_wr (d : Dev) (a b : Nat) (w : Word) : (d.wr a w).rd b = if b = a then w else d.rd b :=
  Sparse.get_put ..

@[simp] theorem Dev.rd_wr_self (d : Dev) (a : Nat) (w : Word) : (d.wr a w).rd a = w :=
  Sparse.get_put_self ..

theorem Dev.rd_wr_ne (d : Dev) {a b : Nat} (w : Word) (h : b ≠ a) : (d.wr a w).rd b = d.rd b :=
  Sparse.get_put_ne _ _ _ h

/-- Writing a register the word that it reads changes nothing. -/
theorem Dev.wr_rd (d : Dev) (a : Nat) (h : Sparse.wf resetWord d.regs = true) : d.wr a (d.rd a) = d := by
  unfold Dev.wr Dev.rd
  rw [Sparse.put_get resetWord d.regs a h]

theorem Dev.rd_set (d : Dev) (f : Fld) (v b : Nat) :
    (d.set f v).rd b = if b = f.adr then f.put (d.rd f.adr) v else d.rd b := Dev.rd_wr ..

theorem Dev.rd_set_ne (d : Dev) (f : Fld) (v : Nat) {b : Nat} (h : b ≠ f.adr) :
    (d.set f v).rd b = d.rd b := by simp [Dev.rd_set, h]

/-- A field reads what was set, modulo its size. -/
theorem Dev.fld_set_self (d : Dev) (f : Fld) (v : Nat) (h : f.lo + f.width ≤ 32) :
    (d.set f v).fld f = v % 2 ^ f.width := by
  simp [Dev.fld, Dev.rd_set, Fld.get_put_self _ _ _ h]

/-- A field of another register, or one that shares no bit with the field set, reads as before. -/
theorem Dev.fld_set_other (d : Dev) (f g : Fld) (v : Nat)
    (h : g.adr ≠ f.adr ∨ (g.lo + g.width ≤ 32 ∧ (g.lo + g.width ≤ f.lo ∨ f.lo + f.width ≤ g.lo))) :
    (d.set f v).fld g = d.fld g := by
  unfold Dev.fld
  rw [Dev.rd_set]
  split
  · rename_i ha
    rcases h with h | ⟨h1, h2⟩
    · exact absurd ha h
    · rw [Fld.get_put_other _ _ _ _ h1 h2, ha]
  · rfl

theorem Dev.flag_setB_self (d : Dev) (f : Fld) (b : Bool) (h : f.lo + f.width ≤ 32) (h1 : f.width = 1) :
    (d.setB f b).flag f = b := by
  unfold Dev.flag Dev.setB
  rw [Dev.fld_set_self _ _ _ h, h1, b2n_mod_two, b2n_ne_zero]

theorem Dev.flag_set_other (d : Dev) (f g : Fld) (v : Nat)
    (h : g.adr ≠ f.adr ∨ (g.lo + g.width ≤ 32 ∧ (g.lo + g.width ≤ f.lo ∨ f.lo + f.width ≤ g.lo))) :
    (d.set f v).flag g = d.flag g := by
  unfold Dev.flag; rw [Dev.fld_set_other _ _ _ _ h]

theorem Dev.setB_eq_set (d : Dev) (f : Fld) (b : Bool) : d.setB f b = d.set f (b2n b) := rfl

theorem Dev.bump_eq_set (d : Dev) (f : Fld) (n : Nat) :
    d.bump f n = d.set f (satN f.width (d.fld f + n)) := rfl

/-- A count reads the sum, or its all-ones value where the sum does not fit. -/
theorem Dev.fld_bump_self (d : Dev) (f : Fld) (n : Nat) (h : f.lo + f.width ≤ 32) :
    (d.bump f n).fld f = satN f.width (d.fld f + n) := by
  rw [Dev.bump_eq_set, Dev.fld_set_self _ _ _ h, Nat.mod_eq_of_lt]
  have := satN_le f.width (d.fld f + n)
  have : 0 < 2 ^ f.width := Nat.two_pow_pos _
  omega

@[simp] theorem Dev.event_rd (d : Dev) (c : Nat) (f : Fld) (i : Nat) (l : List Word) (j : Nat) :
    (d.event c f i l).rd j = (d.setB f true).rd j := rfl

@[simp] theorem Dev.event_fld (d : Dev) (c : Nat) (f : Fld) (i : Nat) (l : List Word) (h : Fld) :
    (d.event c f i l).fld h = (d.setB f true).fld h := rfl

@[simp] theorem Dev.event_flag (d : Dev) (c : Nat) (f : Fld) (i : Nat) (l : List Word) (h : Fld) :
    (d.event c f i l).flag h = (d.setB f true).flag h := rfl

/-! ## The numbered units -/

theorem Dev.ax_updAx (d : Dev) (k j : Nat) (g : AxSt → AxSt) :
    (d.updAx k g).ax j = if j = k then g (d.ax k) else d.ax j := Sparse.get_put ..
@[simp] theorem Dev.ax_updAx_self (d : Dev) (k : Nat) (g : AxSt → AxSt) : (d.updAx k g).ax k = g (d.ax k) :=
  Sparse.get_put_self ..

theorem Dev.dec_updDec (d : Dev) (k j : Nat) (g : DecSt → DecSt) :
    (d.updDec k g).dec j = if j = k then g (d.dec k) else d.dec j := Sparse.get_put ..
@[simp] theorem Dev.dec_updDec_self (d : Dev) (k : Nat) (g : DecSt → DecSt) : (d.updDec k g).dec k = g (d.dec k) :=
  Sparse.get_put_self ..

theorem Dev.prf_updPrf (d : Dev) (k j : Nat) (g : PrfSt → PrfSt) :
    (d.updPrf k g).prf j = if j = k then g (d.prf k) else d.prf j := Sparse.get_put ..
@[simp] theorem Dev.prf_updPrf_self (d : Dev) (k : Nat) (g : PrfSt → PrfSt) : (d.updPrf k g).prf k = g (d.prf k) :=
  Sparse.get_put_self ..

theorem Dev.cmp_updCmp (d : Dev) (k j : Nat) (g : CmpSt → CmpSt) :
    (d.updCmp k g).cmp j = if j = k then g (d.cmp k) else d.cmp j := Sparse.get_put ..
@[simp] theorem Dev.cmp_updCmp_self (d : Dev) (k : Nat) (g : CmpSt → CmpSt) : (d.updCmp k g).cmp k = g (d.cmp k) :=
  Sparse.get_put_self ..

theorem Dev.loop_updLoop (d : Dev) (k j : Nat) (g : LoopSt → LoopSt) :
    (d.updLoop k g).loop j = if j = k then g (d.loop k) else d.loop j := Sparse.get_put ..
@[simp] theorem Dev.loop_updLoop_self (d : Dev) (k : Nat) (g : LoopSt → LoopSt) : (d.updLoop k g).loop k = g (d.loop k) :=
  Sparse.get_put_self ..

theorem Dev.grp_updGrp (d : Dev) (k j : Nat) (g : GrpSt → GrpSt) :
    (d.updGrp k g).grp j = if j = k then g (d.grp k) else d.grp j := Sparse.get_put ..
@[simp] theorem Dev.grp_updGrp_self (d : Dev) (k : Nat) (g : GrpSt → GrpSt) : (d.updGrp k g).grp k = g (d.grp k) :=
  Sparse.get_put_self ..

theorem Dev.recipe_updRecipe (d : Dev) (k j : Nat) (g : RcpSt → RcpSt) :
    (d.updRecipe k g).recipe j = if j = k then g (d.recipe k) else d.recipe j := Sparse.get_put ..
@[simp] theorem Dev.recipe_updRecipe_self (d : Dev) (k : Nat) (g : RcpSt → RcpSt) : (d.updRecipe k g).recipe k = g (d.recipe k) :=
  Sparse.get_put_self ..

theorem Dev.edge_updEdge (d : Dev) (k j : Nat) (g : EdgeSt → EdgeSt) :
    (d.updEdge k g).edge j = if j = k then g (d.edge k) else d.edge j := Sparse.get_put ..
@[simp] theorem Dev.edge_updEdge_self (d : Dev) (k : Nat) (g : EdgeSt → EdgeSt) : (d.updEdge k g).edge k = g (d.edge k) :=
  Sparse.get_put_self ..

theorem Dev.zone_updZone (d : Dev) (k j : Nat) (g : ZoneSt → ZoneSt) :
    (d.updZone k g).zone j = if j = k then g (d.zone k) else d.zone j := Sparse.get_put ..
@[simp] theorem Dev.zone_updZone_self (d : Dev) (k : Nat) (g : ZoneSt → ZoneSt) : (d.updZone k g).zone k = g (d.zone k) :=
  Sparse.get_put_self ..

theorem Dev.conn_updConn (d : Dev) (k j : Nat) (g : ConnSt → ConnSt) :
    (d.updConn k g).conn j = if j = k then g (d.conn k) else d.conn j := Sparse.get_put ..
@[simp] theorem Dev.conn_updConn_self (d : Dev) (k : Nat) (g : ConnSt → ConnSt) : (d.updConn k g).conn k = g (d.conn k) :=
  Sparse.get_put_self ..

theorem Dev.line_updLine (d : Dev) (k j : Nat) (g : LineSt → LineSt) :
    (d.updLine k g).line j = if j = k then g (d.line k) else d.line j := Sparse.get_put ..
@[simp] theorem Dev.line_updLine_self (d : Dev) (k : Nat) (g : LineSt → LineSt) : (d.updLine k g).line k = g (d.line k) :=
  Sparse.get_put_self ..

theorem Dev.head_updHead (d : Dev) (k j : Nat) (g : HeadSt → HeadSt) :
    (d.updHead k g).head j = if j = k then g (d.head k) else d.head j := Sparse.get_put ..
@[simp] theorem Dev.head_updHead_self (d : Dev) (k : Nat) (g : HeadSt → HeadSt) : (d.updHead k g).head k = g (d.head k) :=
  Sparse.get_put_self ..

theorem Dev.sk_updSk (d : Dev) (k j : Nat) (g : SkSt → SkSt) :
    (d.updSk k g).sk j = if j = k then g (d.sk k) else d.sk j := Sparse.get_put ..
@[simp] theorem Dev.sk_updSk_self (d : Dev) (k : Nat) (g : SkSt → SkSt) : (d.updSk k g).sk k = g (d.sk k) :=
  Sparse.get_put_self ..

theorem Dev.eng_updEng (d : Dev) (k j : Nat) (g : BrEng → BrEng) :
    (d.updEng k g).eng j = if j = k then g (d.eng k) else d.eng j := Sparse.get_put ..
@[simp] theorem Dev.eng_updEng_self (d : Dev) (k : Nat) (g : BrEng → BrEng) : (d.updEng k g).eng k = g (d.eng k) :=
  Sparse.get_put_self ..

/-! ## Memory -/

@[simp] theorem Dev.markDirty_mem (d : Dev) (c : Nat) : (d.markDirty c).mem = d.mem := by
  unfold Dev.markDirty; split <;> rfl

@[simp] theorem Dev.markDirty_regs (d : Dev) (c : Nat) : (d.markDirty c).regs = d.regs := by
  unfold Dev.markDirty; split <;> rfl

theorem Dev.putByte_mem (d : Dev) (c : Nat) (b : Byte) :
    (d.putByte c b).mem = Sparse.put (fun _ => 0) d.mem c b := by
  unfold Dev.putByte; simp only; split <;> simp

/-- A byte reads what was written, and every other byte as before. -/
theorem Dev.byteAt_putByte (d : Dev) (c j : Nat) (b : Byte) :
    (d.putByte c b).byteAt j = if j = c then b else d.byteAt j := by
  unfold Dev.byteAt; rw [Dev.putByte_mem, Sparse.get_put]

/-- Bytes outside a range written read as before. -/
theorem Dev.byteAt_putBytes_other (bs : List Byte) : ∀ (d : Dev) (c j : Nat),
    j < c ∨ c + bs.length ≤ j → (d.putBytes c bs).byteAt j = d.byteAt j := by
  induction bs with
  | nil => intros; rfl
  | cons b t ih =>
    intro d c j h
    simp only [List.length_cons] at h
    rw [Dev.putBytes, ih _ _ _ (by omega), Dev.byteAt_putByte, if_neg (by omega)]

/-- Bytes of a range written read what was written. -/
theorem Dev.byteAt_putBytes (bs : List Byte) : ∀ (d : Dev) (c i : Nat), i < bs.length →
    (d.putBytes c bs).byteAt (c + i) = bs.getD i 0 := by
  induction bs with
  | nil => intro d c i h; simp at h
  | cons b t ih =>
    intro d c i h
    simp only [List.length_cons] at h
    cases i with
    | zero =>
      rw [Dev.putBytes, Dev.byteAt_putBytes_other _ _ _ _ (by omega), Dev.byteAt_putByte]
      simp
    | succ i =>
      rw [Dev.putBytes, show c + (i + 1) = c + 1 + i by omega, ih _ _ _ (by omega)]
      simp

theorem Memory.wf_putByte (d : Dev) (c : Nat) (b : Byte) (h : Memory.wf d.mem = true) :
    Memory.wf (d.putByte c b).mem = true := by
  rw [Dev.putByte_mem]; exact Sparse.wf_put _ _ _ _ h

theorem Memory.wf_putBytes (bs : List Byte) : ∀ (d : Dev) (c : Nat), Memory.wf d.mem = true →
    Memory.wf (d.putBytes c bs).mem = true := by
  induction bs with
  | nil => intro d c h; exact h
  | cons b t ih => intro d c h; exact ih _ _ (Memory.wf_putByte d c b h)

theorem Memory.wf_pokeW (d : Dev) (c : Nat) (w : Word) (h : Memory.wf d.mem = true) :
    Memory.wf (d.pokeW c w).mem = true := Memory.wf_putBytes _ _ _ h

theorem Memory.wf_pokeWords (ws : List Word) : ∀ (d : Dev) (c : Nat), Memory.wf d.mem = true →
    Memory.wf (d.pokeWords c ws).mem = true := by
  induction ws with
  | nil => intro d c h; exact h
  | cons w t ih => intro d c h; exact ih _ _ (Memory.wf_pokeW d c w h)

@[simp] theorem Dev.logErr_mem (d : Dev) (t : Nat) (q : BitVec 16) (c n : Nat) (b : BitVec 13) :
    (d.logErr t q c n b).mem = d.mem := by
  unfold Dev.logErr; split <;> rfl

@[simp] theorem Dev.setPage_mem (d : Dev) (p : PageCnt) : (d.setPage p).mem = d.mem := rfl

theorem Dev.eccBad_mem (d : Dev) (q : BitVec 16) (c : Nat) (r : BitVec 13) :
    (d.eccBad q c r).mem = d.mem := by
  unfold Dev.eccBad; simp only; split <;> simp

theorem Dev.eccCorrected_mem (d : Dev) (q : BitVec 16) (c : Nat) (b : Byte) (r : BitVec 13) :
    (d.eccCorrected q c b r).mem = Sparse.put (fun _ => 0) d.mem c b := by
  unfold Dev.eccCorrected
  simp only [Dev.setFlip_mem]
  congr 1
  split <;> split <;> simp

theorem Memory.wf_readByte (d : Dev) (q : BitVec 16) (c : Nat) (h : Memory.wf d.mem = true) :
    Memory.wf (d.readByte q c).1.mem = true := by
  unfold Dev.readByte
  simp only
  split
  · exact h
  · split
    · exact h
    · rw [Dev.eccCorrected_mem]; exact Sparse.wf_put _ _ _ _ h
    · rw [Dev.eccBad_mem]; exact h

theorem Memory.wf_readBytes (q : BitVec 16) (n : Nat) : ∀ (d : Dev) (c : Nat), Memory.wf d.mem = true →
    Memory.wf (d.readBytes q c n).1.mem = true := by
  induction n with
  | zero => intro d c h; exact h
  | succ n ih =>
    intro d c h
    have h1 := ih _ (c + 1) (Memory.wf_readByte d q c h)
    unfold Dev.readBytes
    simp only
    split <;> exact h1

/-- Reading bytes without errors changes nothing and gives what stands there. -/
theorem Dev.readBytes_good (q : BitVec 16) (n : Nat) : ∀ (d : Dev) (c : Nat),
    (∀ i, i < n → d.flipAt (c + i) = 0) → d.readBytes q c n = (d, some (d.peek c n)) := by
  induction n with
  | zero => intro d c _; rfl
  | succ n ih =>
    intro d c h
    have h0 : d.readByte q c = (d, some (d.byteAt c)) := by
      unfold Dev.readByte
      have : d.flipAt c = 0 := by simpa using h 0 (by omega)
      simp [this]
    have h1 := ih d (c + 1) (fun i hi => by
      have := h (i + 1) (by omega)
      rwa [show c + 1 + i = c + (i + 1) by omega])
    simp [Dev.readBytes, h0, h1, Dev.peek]

/-! ## The commands' shared forms -/

@[simp] theorem State.onDev_eq (s : State) (g : Dev → Dev) : s.onDev g = .next { s with dev := g s.dev } := rfl

@[simp] theorem State.onStation_eq (s : State) (a : Nat) (g : StationSt → StationSt) :
    s.onStation a g = .next { s with stations := Sparse.modify s.stations a g } := rfl

/-- A station's record after a change of one station. -/
theorem State.stn?_modify (s : State) (a b : Nat) (g : StationSt → StationSt) :
    ({ s with stations := Sparse.modify s.stations a g } : State).stn? b =
      if b = a then (s.stn? b).map g else s.stn? b := Sparse.find?_modify ..

end Sys2Proof.Machine
end

