-- ==== Sys2Proof/Laws/Brush.lean ====
section
/-! SUPPORT. One lemma per shared form of a Brush instruction: what an engine that is ready does. -/

namespace Sys2Proof

open Machine

/-- An instruction of a ready engine is its own operation followed by what every instruction does. -/
theorem Dev.brush_ready (s : State) (e : Nat) (op : Dev → BrEng → Dev × BrOut) (h : EngineReady s e) :
    s.dev.brush e op =
      match op s.dev (s.dev.eng e) with
      | (d, .done c) => (d.updEng e (fun g => ({ g with cycles := g.cycles + c }).advance)).brShow e
      | (d, .jump t c) => (d.updEng e (fun g => ({ g with cycles := g.cycles + c }).jump t)).brShow e
      | (d, .stay) => d.updEng e (fun g => { g with waiting := true })
      | (d, .fault c) => d.brFault e c
      | (d, .ecc) => d.brEcc e
      | (d, .ended) => d := by
  obtain ⟨h1, h2⟩ := h
  unfold Machine.Dev.brush
  simp only [h1, Bool.not_true, Bool.false_eq_true, if_false]
  rw [Dev.readBytes_good _ _ _ _ h2]
  all_goals rfl

theorem BrEng.showDepth_bit (g : BrEng) (i : Nat) (h : i < 10) :
    (g.showDepth).sr.getLsbD i = g.sr.getLsbD i := by
  have : i < 32 := by omega
  simp only [Machine.BrEng.showDepth, BitVec.getLsbD_or, BitVec.getLsbD_and, BitVec.getLsbD_not,
    BitVec.getLsbD_shiftLeft]
  have hm : (0xC00#32).getLsbD i = false := by
    rcases (by omega : i = 0 ∨ i = 1 ∨ i = 2 ∨ i = 3 ∨ i = 4 ∨ i = 5 ∨ i = 6 ∨ i = 7 ∨ i = 8 ∨ i = 9) with
      h | h | h | h | h | h | h | h | h | h <;> subst h <;> decide
  simp only [hm, Bool.not_false, Bool.and_true, this, decide_true, Bool.true_and]
  simp [show i < 10 from h]

/-- What every instruction leaves of an engine. -/
theorem BrEng.advance_has (g : BrEng) :
    { g.advance with pc := g.pc, rpts := g.rpts, lc := g.lc, sr := g.sr } = g ∧
    (∀ i, i < 10 → g.advance.sr.getLsbD i = g.sr.getLsbD i) ∧
    (g.rpts = [] → g.advance.pc = g.pc + 1) := by
  obtain ⟨r, hr⟩ : ∃ r, g.rpts = r := ⟨_, rfl⟩
  unfold Machine.BrEng.advance
  rw [hr]
  cases r with
  | nil => exact ⟨by dsimp only; rw [← hr], fun _ _ => rfl, fun _ => rfl⟩
  | cons r t =>
    dsimp only
    split
    · split
      · split
        · exact ⟨by dsimp only; rw [← hr], fun _ _ => rfl, by simp⟩
        · exact ⟨by dsimp only [Machine.BrEng.showDepth]; rw [← hr], fun i hi => BrEng.showDepth_bit _ _ hi, by simp⟩
      · exact ⟨by dsimp only; rw [← hr], fun _ _ => rfl, by simp⟩
    · exact ⟨by dsimp only; rw [← hr], fun _ _ => rfl, by simp⟩

/-- An instruction that changes only the registers of its engine. -/
theorem engine_done (s : State) (e : Nat) (w : BrEng) (n : Nat) (d : Dev)
    (hd : d = (((s.dev.updEng e (fun _ => w)).updEng e
      (fun g => ({ g with cycles := g.cycles + n }).advance)).brShow e)) :
    EngineHas { s with dev := d } e w n ∧ EngineOnly s { s with dev := d } e := by
  subst hd
  have hg : ∀ d0 : Dev, ∀ f : Fld, ∀ v : Nat, (d0.set f v).eng e = d0.eng e := fun _ _ _ => rfl
  have he : ∀ k, ((((s.dev.updEng e (fun _ => w)).updEng e
      (fun g => ({ g with cycles := g.cycles + n }).advance)).brShow e).eng k) =
      if k = e then ({ w with cycles := w.cycles + n }).advance else s.dev.eng k := by
    intro k
    unfold Machine.Dev.brShow
    rw [show ∀ d0 : Dev, ∀ f f' : Fld, ∀ v v' : Nat, ((d0.set f v).set f' v').eng k = d0.eng k from
      fun _ _ _ _ _ => rfl, Dev.eng_updEng]
    split
    · rename_i h; subst h; simp
    · rename_i h; rw [Dev.eng_updEng, if_neg h]
  have hA := BrEng.advance_has { w with cycles := w.cycles + n }
  refine ⟨?_, ?_, ?_, ?_⟩
  · unfold EngineHas
    simp only [he, if_true]
    have h0 : ({ w with cycles := w.cycles + n } : BrEng).advance.cycles = w.cycles + n := by
      simpa using congrArg BrEng.cycles hA.1
    refine ⟨?_, hA.2.1, h0, hA.2.2, ?_⟩
    · exact congrArg (fun g => { g with cycles := w.cycles }) hA.1
    · unfold Machine.Dev.brShow
      rw [Dev.fld_set_other, Dev.fld_set_self]
      · rw [Dev.eng_updEng]; simp
        exact Nat.mod_eq_of_lt (by
          have := ({ w with cycles := w.cycles + n } : BrEng).advance.pc.isLt
          simpa [Fld.width, R.BR_E_STAT.pc] using this)
      · simp [Fld.width, R.BR_E_STAT.pc]
      · right; simp [Fld.width, R.BR_E_STAT.pc, R.BR_E_STAT.depth]
  · intro k hk; rw [he, if_neg hk]
  · intro a ha
    have : a ≠ R.BR_E_STAT.adr e := by simpa using ha
    unfold Machine.Dev.brShow
    rw [Dev.rd_set_ne _ _ _ (by simpa [R.BR_E_STAT.depth] using this),
      Dev.rd_set_ne _ _ _ (by simpa [R.BR_E_STAT.pc] using this)]
    rfl
  · rfl

/-- An instruction in one cycle that changes only the registers of its engine: the engine afterwards. -/
theorem brReg_runs (s : State) (e : Nat) (op : BrEng → BrEng) (h : EngineReady s e) :
    EngineHas { s with dev := s.dev.brReg e op } e (op (s.dev.eng e)) 1 ∧
    EngineOnly s { s with dev := s.dev.brReg e op } e := by
  apply engine_done
  unfold Machine.Dev.brReg
  rw [Dev.brush_ready _ _ _ h]

/-- The same where the instruction may be a job fault and is not. -/
theorem brRegF_runs (s : State) (e : Nat) (op : BrEng → Option BrEng) (w : BrEng) (h : EngineReady s e)
    (hw : op (s.dev.eng e) = some w) :
    EngineHas { s with dev := s.dev.brRegF e op } e w 1 ∧
    EngineOnly s { s with dev := s.dev.brRegF e op } e := by
  apply engine_done
  unfold Machine.Dev.brRegF
  rw [Dev.brush_ready _ _ _ h]
  simp [hw]

end Sys2Proof
end

