-- ==== Sys2Proof/Tests/Slice0.lean ====
section
/-! SUPPORT. The model's own tests: what WellFormed refuses, single steps on small states, and, for every
statement with hypotheses, states and operands that meet them. -/

namespace Sys2Proof.Tests

open Machine

set_option Elab.async false

/-- The device with the listed fields set. -/
def dv (l : List (Fld × Nat)) : Dev := l.foldl (fun (d : Dev) p => d.set p.1 p.2) {}

/-- A block whose device is given. -/
def on (d : Dev) : State := { dev := d }

/-- Engine 1 runs custom code. -/
def engB (g : BrEng) : State := on (({} : Dev).updEng 1 (fun _ => { (g) with busy := true }))


/-! ## Reset meets the invariants -/

theorem reset_idles : step State.reset = .next State.reset := rfl

theorem reset_StationsOk : StationsOk State.reset := ⟨List.Pairwise.nil, fun _ h => nomatch h⟩

theorem reset_TosOk : TosOk State.reset := fun _ h => nomatch h

theorem reset_EnginesOk : EnginesOk State.reset := by unfold EnginesOk; decide +kernel

theorem reset_EaselOk : EaselOk State.reset := by
  refine ⟨rfl, rfl, fun r h => ?_, fun _ h => (nomatch h), fun _ h => (nomatch h)⟩
  have : some r ∈ [none, none, none] := h
  simp at this

theorem reset_HostOk : HostOk State.reset := rfl

theorem reset_RegsOk : RegsOk State.reset.dev ∧ MemOk State.reset.dev := ⟨rfl, rfl⟩

/-- Two stations in order, one with a timed output in the one place that its identity record gives. -/
theorem meets_StationInvariants :
    let a : StationSt := { addr := 1, ident := [0, 0, 0, 0x100], tos := [⟨5, 0, 1, 7⟩] }
    let b : StationSt := { addr := 255 }
    let s : State := { stations := [(1, a), (255, b)], pending := [.stationApply 1] }
    StationsOk s ∧ TosOk s ∧ step s = exec (.stationApply 1) { s with pending := [] } := by
  refine ⟨?_, ?_, rfl⟩
  · unfold StationsOk; decide +kernel
  · unfold TosOk; decide +kernel

/-! ## The hypotheses of the statements are met: the block itself -/

theorem meets_StepRunsTheFrontCommand : (State.reset.withFetchWord 0 0).pending = [] ∧
    ({ pending := [.ezRelease] } : State).pending = [.ezRelease] := by decide +kernel

theorem meets_CommandsStayOnTheirSide :
    exec (.stationApply 1) State.reset = .next State.reset := rfl

theorem meets_PowerUpOutOfOrderFaults : State.reset.dev.omode = mReset ∧
    ¬ ((on (dv [(R.DEV_MODE.mode, mListen)])).dev.omode = mReset) := by decide +kernel

theorem meets_DebugPort : (State.reset.dev.keySlot 0).prov = false ∧
    ((on { nv := { lc0 := { valid := true, keys := [{ prov := true }] } } }).dev.keySlot 0).prov = true := by
  decide +kernel

theorem meets_RegistersAndMemory : (⟨8, 31, 0⟩ : Fld).lo + (⟨8, 31, 0⟩ : Fld).width ≤ 32 ∧
    (⟨8, 7, 0⟩ : Fld).lo + (⟨8, 7, 0⟩ : Fld).width ≤ (⟨8, 31, 8⟩ : Fld).lo ∧ RegsOk {} ∧ MemOk {} :=
  ⟨by decide, by decide, rfl, rfl⟩
/-! ## The hypotheses of the statements are met: Brush -/

theorem meets_EngineReady (g : BrEng) (h1 : g.committing = false) (h2 : g.waiting = false) (h3 : g.lib = none) :
    EngineReady (engB g) 1 := by
  have e : (engB g).dev.eng 1 = { (g) with busy := true } := Sys2Proof.Machine.Dev.eng_updEng_self _ _ _
  refine ⟨?_, fun i _ => rfl⟩
  rw [e]
  simp [BrEng.runs, h1, h2, h3]

theorem meets_BrushAccumulators : EngineReady (engB {}) 1 ∧ (0 : Int) ≤ (31#6).toInt ∧ (32#6).toInt < 0 ∧
    (63#6).toInt < 0 ∧ (-8 : Int) ≤ (56#6).toInt ∧ (56#6).toInt ≤ 7 ∧ (-8 : Int) ≤ (7#6).toInt ∧ (7#6).toInt ≤ 7 :=
  ⟨meets_EngineReady {} rfl rfl rfl, by decide⟩

theorem meets_BrushScalars : (0, 5#32) ∈ (List.finRange 8).map (fun (k : Fin 8) =>
      (k.val, (Vector.replicate 8 (5#32)).get k)) ∧
    ((({ g := Vector.replicate 8 1023#32 } : BrEng)).gr 7).toNat ≤ 1023 := by decide +kernel

/-- Loads: local memory at 0, the last bytes of the dispatch context, the Canvas window. -/
theorem meets_BrushLoads : (⟨0, 0, 0⟩ : MemOp).ok = true ∧ operandAddress {} ⟨0, 0, 0⟩ = 0 ∧
    LoadReady (engB {}) 1 0 8 ∧ LoadReady (engB {}) 1 0 4 ∧ LoadReady (engB {}) 1 0x7FFFE 2 ∧
    LoadReady (engB {}) 1 0x10000000 8 := by
  refine ⟨rfl, rfl, ?_, ?_, ?_, ?_⟩
  · exact ⟨rfl, ⟨.local_ 0, rfl, fun i _ => rfl⟩, by decide +kernel⟩
  · exact ⟨rfl, ⟨.local_ 0, rfl, fun i _ => rfl⟩, by decide +kernel⟩
  · exact ⟨rfl, ⟨.context 0x7FFFE, rfl, fun i _ => rfl⟩, by decide +kernel⟩
  · exact ⟨rfl, ⟨.canvas 0, rfl, fun i _ => rfl⟩, by decide +kernel⟩

theorem meets_BrushStores : StoreReady (engB {}) 1 0 8 ∧ StoreReady (engB {}) 1 0x7FFBC 4 ∧
    StoreReady (engB {}) 1 0x105FFFFE 2 ∧ StoreReady (engB {}) 1 0x105FFFF8 8 :=
  ⟨⟨rfl, .inl ⟨0, rfl⟩⟩, ⟨rfl, .inl ⟨0x7FFBC, rfl⟩⟩, ⟨rfl, .inr ⟨⟨0x5FFFFE, rfl⟩, by decide +kernel⟩⟩,
    ⟨rfl, .inr ⟨⟨0x5FFFF8, rfl⟩, by decide +kernel⟩⟩⟩

/-- Branches taken and not, a block opened inside another, an RPTG of counts 1, 65,535 and 0. -/
theorem meets_BrushFlow :
    let g : BrEng := { pc := 9, rpts := [⟨2, 20⟩], g := (Vector.replicate 8 1#32).set 1 65535#32 |>.set 2 0 }
    EngineReady (engB g) 1 ∧ (! g.sr.getLsbD 8) = true ∧ g.sr.getLsbD 8 = false ∧ g.pc.toNat < (10#16).toNat ∧
      g.rpts.length < 3 ∧ (∀ r ∈ g.rpts.head?, (19#16).toNat < r.last) ∧ (g.gr 0).toNat = 1 ∧
      (g.gr 1).toNat = 65535 ∧ g.gr 2 = 0 :=
  ⟨meets_EngineReady _ rfl rfl rfl, by decide +kernel⟩

/-- An XIN of 256 words into the last 1,024 bytes below the dispatch context, a fifth XIN, WAITX with and without copies, and a
completion. -/
theorem meets_BrushTransfersAndEnd :
    let g : BrEng := { pt := (Vector.replicate 8 (0x10000000#32)).set 1 (0x7FBC0#32) }
    let h : BrEng := { xins := [⟨0, 0, [7]⟩, ⟨0, 4, []⟩, ⟨0, 8, []⟩, ⟨0, 12, []⟩] }
    (g.pt.get 0).toNat % 4 = 0 ∧ (g.pt.get 1).toNat % 4 = 0 ∧ jobMem (g.pt.get 1).toNat 1024 = some (.local_ 0x7FBC0) ∧
      jobMem (g.pt.get 0).toNat 1024 = some (.canvas 0) ∧ g.xins.length < 4 ∧ 4 ≤ h.xins.length ∧ g.xins = [] ∧
      ((engB h).dev.eng 1).xins = h.xins := by decide +kernel

/-- Each kind of job fault: reserved opcode and condition, reserved special registers, a JST index of 1,024, a
reserved field, a misaligned access, a fourth block. -/
theorem meets_BrushJobFaults :
    let g : BrEng := { pt := Vector.replicate 8 4, g := Vector.replicate 8 1024#32,
                       rpts := [⟨2, 20⟩, ⟨1, 21⟩, ⟨0, 22⟩] }
    EngineReady (engB g) 1 ∧ ((engB g).dev.eng 1).job < 1024 ∧ EaselOk (engB g) ∧ LinksOk (engB g) 0x100 ∧
      (0x3D#6).toNat ∈ [0x00, 0x3D] ∧ 1023 < (g.gr 0).toNat ∧ operandAddress g ⟨0, 0, 0⟩ % 8 ≠ 0 ∧ 3 ≤ g.rpts.length := by
  refine ⟨meets_EngineReady _ rfl rfl rfl, by decide +kernel, ?_, ?_, by decide +kernel⟩
  · unfold EaselOk
    refine ⟨by decide +kernel, by decide +kernel, ?_, by decide +kernel, by decide +kernel⟩
    intro r h
    have : some r ∈ [none, none, none] := h
    simp at this
  · unfold LinksOk
    decide +kernel

theorem meets_BrushProgramMemory : (on (dv [(R.DEV_MODE.mode, mService)])).dev.loadOrService = true ∧
    (on {}).dev.loadOrService = false ∧ (on {}).dev.flipAt (memCode 11 0) = 0 := by decide +kernel


/-! ## The hypotheses of the statements are met: Easel -/

/-- A mode with two jobs on all engines, and lists of sources. -/
def modeA : SchedMode :=
  { jobs := [{ idx := 0, cnt := 5, prio := 3, engMask := 15, cycles := 9 }, { idx := 1023, engMask := 8, prio := 31 }]
    lists := [⟨1, [5]⟩, ⟨0x100, [0, 4095]⟩, ⟨0x500, [7]⟩, ⟨0x900, [5]⟩, ⟨0xFF, []⟩] }

/-- The device runs in mode A with what is given. -/
def easelOn (z : EaselSt) (l : List (Fld × Nat)) : State := on { dv l with easel := z, net := { modes := [modeA] } }

/-- Counters at 0, 1 and 2: a plain one, the counter of a due job, that of a job not due, and those of threads
that wait, run and are of lower priority than a running one. -/
theorem meets_EaselSignals :
    let s := easelOn { due := [0], threads := [some 1, none, none] }
      [(R.EZ_CNT.cur 0, 2), (R.EZ_CNT.cur 4095, 1), (R.EZ_CNT.cur 5, 1), (R.EZ_CNT.kind 5, 1),
       (R.EZ_CNT.kind 6, 1), (R.EZ_CNT.tgt 6, 1023), (R.EZ_CNT.cur 6, 1),
       (R.EZ_CNT.kind 7, 2), (R.EZ_CNT.tgt 7, 1), (R.EZ_CNT.cur 7, 1), (R.EZ_THR.state 1, 3), (R.EZ_THR.prio 1, 9),
       (R.EZ_CNT.kind 8, 2), (R.EZ_CNT.tgt 8, 2), (R.EZ_CNT.cur 8, 1), (R.EZ_THR.home 2, 1),
       (R.EZ_CNT.kind 9, 2), (R.EZ_CNT.tgt 9, 3), (R.EZ_CNT.cur 9, 1), (R.EZ_CFG.pre_en, 1), (R.EZ_THR.prio 3, 8), (R.EZ_THR.home 3, 0)]
    let f := s.dev.fld
    bits 4095 11 0 = 4095 ∧ 3968 ≤ 4095 ∧ ¬ (3968 ≤ 3967) ∧
    1 < f (R.EZ_CNT.cur 0) ∧ f (R.EZ_CNT.kind 0) ≠ 1 ∧ f (R.EZ_CNT.cur 4095) = 1 ∧ f (R.EZ_CNT.kind 4095) ≠ 1 ∧
    f (R.EZ_CNT.kind 4095) ≠ 2 ∧ f (R.EZ_CNT.cur 1) = 0 ∧ f (R.EZ_CNT.kind 1) ≠ 2 ∧
    f (R.EZ_CNT.kind 5) = 1 ∧ f (R.EZ_CNT.tgt 5) ∈ s.dev.easel.due ∧ f (R.EZ_CNT.cur 5) = 1 ∧
    (s.dev.jobDef? (f (R.EZ_CNT.tgt 5))).isSome = true ∧
    f (R.EZ_CNT.kind 6) = 1 ∧ f (R.EZ_CNT.tgt 6) ∉ s.dev.easel.due ∧
    f (R.EZ_CNT.kind 7) = 2 ∧ 2 ≤ f (R.EZ_THR.state 1) ∧ f (R.EZ_CNT.cur 7) ≤ 1 ∧ s.dev.taskOf? 1 = none ∧
    f (R.EZ_CNT.kind 8) = 2 ∧ f (R.EZ_THR.state 2) < 2 ∧ f (R.EZ_THR.home 2) < 3 ∧ s.dev.running 1 = none ∧
    f (R.EZ_CNT.kind 9) = 2 ∧ f (R.EZ_THR.state 3) < 2 ∧ s.dev.running (f (R.EZ_THR.home 3)) = some 1 ∧
    s.dev.flag R.EZ_CFG.pre_en = true ∧ f (R.EZ_THR.prio 3) < f (R.EZ_THR.prio 1) := by decide +kernel

/-- A release to come and one past; a timer that is due and one that is not; sources 1 and 255. -/
theorem meets_EaselSources :
    let s := easelOn {} [(R.EZ_TMR_OFS.en 0, 1), (R.EZ_TMR_PER.period 0, 1)]
    s.dev.easel.released = false ∧ (easelOn { released := true } []).dev.easel.released = true ∧
    s.dev.schedMode? s.dev.sched = some modeA ∧ (⟨1, [5]⟩ : LinkList) ∈ modeA.lists ∧
    (⟨0xFF, []⟩ : LinkList) ∈ modeA.lists ∧
    s.dev.flag (R.EZ_TMR_OFS.en 0) = true ∧ s.dev.fld (R.EZ_TMR_PER.period 0) ≠ 0 ∧
    s.dev.tick % s.dev.fld (R.EZ_TMR_PER.period 0) = s.dev.fld (R.EZ_TMR_PER.phase 0) % s.dev.fld (R.EZ_TMR_PER.period 0) ∧
    s.dev.flag (R.EZ_TMR_OFS.en 63) = false := by decide +kernel

/-- One job that all four engines may run, behind a thread; then only a thread. -/
theorem meets_JobDispatch :
    let th : ReadyEnt := ⟨false, 3, 4, 0, false, 0⟩
    let r : ReadyEnt := ⟨true, 0, 0, 3, false, 0⟩
    let s := easelOn { ready := [th, r] } []
    s.dev.easel.ready = [th] ++ r :: [] ∧ r.job = true ∧ r.prio < 32 ∧ (s.dev.jobDef? r.idx).isSome = true ∧
    (∀ e, e < 4 → 15 / 2 ^ e % 2 = 1 ∧ s.dev.hasRoom e = true ∧ s.dev.outstanding 0 ≤ s.dev.outstanding e) ∧
    th.job = false ∧ 0 < s.dev.easel.queues.length := by decide +kernel

theorem meets_JobStart :
    let q : QueuedJob := ⟨0, 3, 9, 0⟩
    let s := easelOn { queues := [[⟨1, 4, 9, 0⟩, q, ⟨1023, 3, 9, 0⟩], [], [], []] } []
    (s.dev.eng 0).busy = false ∧ s.dev.easel.closed = false ∧
    s.dev.easel.queues.getD 0 [] = [⟨1, 4, 9, 0⟩] ++ q :: [⟨1023, 3, 9, 0⟩] ∧ q.prio < 4 ∧ q.prio ≤ 3 ∧
    (s.dev.jobDef? q.idx).map (fun j => j.lib) = some .custom ∧ s.dev.easel.queues.getD 3 [] = [] ∧
    (easelOn { closed := true } []).dev.easel.closed = true := by decide +kernel

/-- Engine 1 commits its job with cause 0 and with cause 1; engine 0 does not commit. -/
theorem meets_JobCommit : ∀ cause ∈ [0, 1],
    let s := engB { committing := true, cause := cause, commit := [⟨0x5FFFFE, [1, 2]⟩] }
    (s.dev.eng 1).busy = true ∧ (s.dev.eng 1).committing = true ∧ (s.dev.eng 1).job < 1024 ∧
    (∀ c ∈ s.dev.links 0x100, c < 4096) ∧ (s.dev.eng 1).lib = none ∧ (s.dev.eng 1).cause = cause ∧
    (∀ p ∈ (s.dev.eng 1).commit, p.addr + p.bytes.length ≤ 0x600000) ∧ (s.dev.eng 0).busy = false ∧
    s.dev.jobDef? (s.dev.eng 1).job = none ∧ s.dev.easel = State.reset.dev.easel := by decide +kernel

/-- Thread 0 or 1,023 runs on AT0; a thread is ready behind another engine's, or pre-empted; dormant threads
with and without a count. -/
theorem meets_KernelOperations :
    let a : ReadyEnt := ⟨false, 1023, 4, 31, false, 0⟩
    let b : ReadyEnt := ⟨false, 2, 5, 0, false, 0⟩
    let s := easelOn { ready := [b, a] } [(R.EZ_CNT.init 9, 1), (R.EZ_THR.cnt 4, 9), (R.EZ_THR.home 4, 0), (R.EZ_THR.home 5, 0)]
    let p := easelOn { preempted := [b, a], ready := [{ a with idx := 5 }] } []
    let r := easelOn { threads := [some 0, none, none] } [(R.EZ_THR.state 0, 3), (R.EZ_THR.home 0, 2)]
    s.dev.running 0 = none ∧ s.dev.easel.ready = [b] ++ a :: [] ∧ a.job = false ∧ a.eng = 4 ∧ a.prio < 32 ∧ b.eng ≠ 4 ∧
    p.dev.running 0 = none ∧ p.dev.easel.preempted = [b] ++ a :: [] ∧ a.prio ≤ 31 ∧
    State.reset.dev.running 2 = none ∧ r.dev.running 0 = some 0 ∧ (easelOn { threads := [some 1023, none, none] } []).dev.running 0 = some 1023 ∧
    r.dev.flag (R.EZ_CNT.pend (r.dev.fld (R.EZ_THR.cnt 0))) = false ∧ r.dev.fld (R.EZ_THR.home 0) < 3 ∧
    r.dev.fld (R.EZ_THR.state 0) ≠ 0 ∧ s.dev.fld (R.EZ_THR.state 4) = 0 ∧
    s.dev.fld (R.EZ_CNT.init (s.dev.fld (R.EZ_THR.cnt 4))) = 1 ∧
    s.dev.fld (R.EZ_CNT.init (s.dev.fld (R.EZ_THR.cnt 5))) = 0 ∧ s.dev.fld (R.EZ_THR.state 5) = 0 ∧
    s.dev.fld (R.EZ_THR.home 5) < 3 ∧ s.dev.running (s.dev.fld (R.EZ_THR.home 5)) = none ∧
    (∀ n ∈ r.dev.links 0x500, r.dev.fld (R.EZ_CNT.kind n) ≠ 2) := by decide +kernel

theorem meets_KernelOperations_shape : EaselOk (easelOn { threads := [some 1023, none, none] } []) := by
  refine ⟨rfl, rfl, fun r h => ?_, fun _ h => (nomatch h), fun _ h => (nomatch h)⟩
  have : some r ∈ [some 1023, none, none] := h
  have : r = 1023 := by simpa using this
  omega

theorem meets_SpillReadback :
    let a : ReadyEnt := ⟨true, 1, 0, 3, false, 0⟩
    let b : ReadyEnt := ⟨true, 2, 0, 3, true, 0⟩
    (easelOn { ready := [a, b, b] } []).dev.easel.ready = [a] ++ b :: [b] ∧ a.spilled = false ∧ b.spilled = true ∧
    ([a, b, b].filter (fun x => ! x.spilled)).length < 512 := by decide +kernel

/-! ## The hypotheses of the statements are met: time, frames -/

theorem meets_TickInstant :
    let s := on { time := { numbered := true, epochPend := some 7 }, easel := { closed := true } }
    let q : State := { stations := [(3, { addr := 3, state := .coarse, good := 7, domSeen := true, localOfs := 20 })] }
    State.reset.dev.time.numbered = false ∧ State.reset.dev.net.abortNext = none ∧ s.dev.time.numbered = true ∧
    s.dev.easel.closed = true ∧ s.dev.net.abortNext = none ∧ s.dev.host.inbox = [] ∧ s.dev.isTwin = false ∧
    s.dev.time.epochPend = some 7 ∧ q.stn? 0 = none ∧ (q.stn? 3).map (fun x => x.state) = some .coarse := by
  decide +kernel

/-- The deadline not yet taken: it is taken first. -/
theorem meets_TickInstant_deadline :
    let s := on { time := { numbered := true } }
    s.dev.time.numbered = true ∧ s.dev.easel.closed = false ∧
    (match exec .ezDeadline s with | .next _ => true | _ => false) = true := by decide +kernel

theorem meets_EzDeadline :
    let s := on { ({} : Dev).updEng 3 (fun _ => { busy := true, committing := true }) with time := { numbered := true } }
    s.dev.time.numbered = true ∧ s.dev.easel.closed = false ∧ (s.dev.eng 3).busy = true ∧
    (s.dev.eng 3).committing = true ∧ (s.dev.eng 0).busy = false := by decide +kernel

theorem meets_TimeConfiguration :
    let s := on (dv [(R.DEV_MODE.mode, mService)])
    s.dev.loadOrService = true ∧ State.reset.dev.loadOrService = false ∧
    State.reset.dev.timeModes = (bits 4 0 0, bits 4 1 1) ∧ State.reset.dev.timeModes ≠ (bits 3 0 0, bits 3 1 1) ∧
    (∀ p ∈ [15625, 31250, 250000], p = bits (word p) 17 0 ∧ 15625 ≤ p ∧ p ≤ 250000) ∧
    (let d := s.dev.set R.TIM_TICK.tick_ns 31250
     d.timingFail = none ∧ d.releaseFail = none ∧ d.pitchFail = none) := by decide +kernel

theorem meets_ExternalTick :
    let s := on { time := { extWait := true } }
    let t := on { dv [(R.TIM_STAT.leads, 1)] with time := { numbered := true, tickIn := true, extGood := 7 } }
    let o := on { dv [(R.TIM_STAT.leads, 1)] with time := { numbered := true, tickOutEn := true } }
    let w : Int := t.dev.fld R.TIM_EXT.win_ns
    s.dev.time.extWait = true ∧ t.dev.time.extWait = false ∧ t.dev.time.numbered = true ∧ t.dev.time.tickIn = true ∧
    -w ≤ w ∧ (w + 1 < -w ∨ w < w + 1) ∧ (-w - 1 < -w) ∧ t.dev.time.extSeen = false ∧ t.dev.time.extNext = false ∧
    t.dev.flag R.TIM_STAT.leads = true ∧ 7 ≤ t.dev.time.extGood ∧
    8 ≤ (on (dv [(R.TIM_EXT.miss_cnt, 8)])).dev.fld R.TIM_EXT.miss_cnt ∧
    o.dev.time.numbered = true ∧ o.dev.time.tickIn = false ∧ o.dev.time.tickOutEn = true ∧
    o.dev.flag R.TIM_STAT.leads = true := by decide +kernel

/-- A head in operation with line 0 on. -/
def headOn (h : HState) (l : List (Fld × Nat)) : State :=
  on { dv ([(R.DEV_MODE.mode, mRun), (R.ML_STAT.link 0, 1)] ++ l) with
    time := { numbered := true }, net := { hstate := h, lines := [(0, { cfg := 5 })] } }

theorem meets_FramesAreSent :
    ∀ h ∈ [HState.gather, .synced, .coldC, .coldD],
      let s := headOn h [(R.TW_CFG.twin, 1), (R.TW_STAT.link, 1)]
      s.dev.time.numbered = true ∧ s.dev.txOn = true ∧ s.dev.net.hstate = h ∧ s.dev.lineEn 0 = true ∧
      s.dev.flag (R.ML_STAT.link 0) = true ∧ s.dev.twUp = true := by decide +kernel

theorem meets_StateCopy :
    let s := on { dv [(R.TW_STAT.role, 1), (R.TW_CFG.twin, 1), (R.TW_STAT.link, 1)] with
      time := { numbered := true }, easel := { closed := true }, twin := { copyOn := true } }
    s.dev.time.numbered = true ∧ s.dev.easel.closed = true ∧ s.dev.isActive = true ∧ s.dev.twUp = true ∧
    s.dev.twin.copyOn = true ∧ ∀ e, e < 4 → (s.dev.eng e).busy = false := by decide +kernel

/-! ## The hypotheses of the statements are met: lines and the life of the network -/

/-- A mode with station 3 on line 0. -/
def modeL : SchedMode :=
  { lines := [{ line := 0, stations := [{ addr := 3, fbWords := 1, cmdWords := 1, fbAddr := 64 }], bcnOfs := 20000, almOfs := 22000,
                mbxReq := 23000, mbxRsp := 25000 }]
    allowed := [1] }

/-- A head that runs with line 0 and station 3. -/
def lineHead (h : HState) (z : LineSt) (l : List (Fld × Nat)) : State :=
  on { dv ([(R.DEV_MODE.mode, mRun), (R.ML_STAT.link 0, 1), (R.ST_CFG.pos 3, 1), (R.ST_CFG.line 3, 0)] ++ l) with
    time := { numbered := true }, net := { hstate := h, modes := [modeL, { idx := 1 }], lines := [(0, { (z) with cfg := 5 })] } }

/-- What the guardian of that head finds for a type at a time. -/
def verdict (s : State) (ty at_ : Nat) : Verdict := (s.dev.judgeRx 0 ty at_ at_).1

/-- A beacon in its window, 40 and 41 ns off, on and past the guard band, of another type. -/
theorem meets_GuardianJudges :
    let s := lineHead .synced {} []
    s.dev.wins 0 ≠ [] ∧ verdict s 7 20000 = .ok ∧ verdict s 7 20040 = .ok ∧ verdict s 7 20041 = .edge ∧
    verdict s 7 20200 = .edge ∧ verdict s 7 20201 = .babble ∧ verdict s 3 20000 = .babble := by decide +kernel

theorem meets_ReceiversTurnAway :
    let s := lineHead .synced {} []
    State.reset.dev.rxOn 0 = false ∧ s.dev.rxOn 0 = true ∧ s.dev.hasTime = true ∧ s.dev.net.hstate ≠ .listen ∧
    s.dev.net.hstate ≠ .coldC ∧ ∀ ty ∈ [3, 4, 6, 7], verdict s ty 0 = .babble := by decide +kernel

/-- A valid segment of station 3 and one with a false CRC; the first of its tick and a second; before and
after the deadline; from the line and relayed. -/
theorem meets_FeedbackSegments :
    let s := lineHead .synced {} [(R.TW_CFG.twin, 1), (R.TW_STAT.link, 1)]
    let g : Seg := { hdr := 0x00010303, words := [7] }
    s.dev.time.numbered = true ∧ s.dev.twUp = true ∧ s.dev.lineEn 0 = true ∧ s.dev.rxOn 0 = true ∧
    bits g.hdr 7 0 = 3 ∧ (s.dev.stLayout? s.dev.net.sched 3).map (fun p => (p.1, p.2.ptype, p.2.fbWords)) = some (0, 0, 1) ∧
    bit g.hdr 9 = true ∧ bit g.hdr 8 = true ∧ bits g.hdr 31 24 = 0 ∧ bits g.hdr 23 16 = 1 ∧ g.words.length = 1 ∧
    (s.dev.head 3).got = false ∧ s.dev.easel.closed = false ∧ ({ g with crc := .wrong }).crc ≠ .correct := by
  decide +kernel

theorem meets_FeedbackSegments_second :
    let s := on { (lineHead .synced {} []).dev with easel := { closed := true } }
    let t := on ((lineHead .synced {} []).dev.updHead 3 (fun h => { h with got := true }))
    s.dev.rxOn 0 = true ∧ s.dev.easel.closed = true ∧ (s.dev.head 3).got = false ∧ t.dev.rxOn 0 = true ∧
    (t.dev.head 3).got = true := by decide +kernel

/-- A listening head with a leader's frames behind it, one in COLD_C, one that runs. -/
theorem meets_CyclicFrames :
    let s := lineHead .listen {} []
    let s := on { s.dev with time := { cycLast := some (8, 100), cycDiff := some 31250 } }
    let f : CycFrame := { hdr := { origin := 1, lead := true, tick := 9, txTime := 31350 } }
    let b := lineHead .coldC {} [(R.TW_STAT.unit, 1)]
    let r := lineHead .synced {} []
    s.dev.rxOn 0 = true ∧ s.dev.net.hstate = .listen ∧ f.crc = .correct ∧ f.hdr.origin % 2 ≠ s.dev.unitId ∧
    f.hdr.lead = true ∧ f.hdr.fore = s.dev.flag R.TIM_CFG.forerunner ∧ true ≠ s.dev.flag R.TIM_CFG.forerunner ∧
    f.hdr.tick.toNat = 8 + 1 ∧ (f.hdr.txTime - 100).toNat = 31250 ∧ s.dev.fld R.TIM_TICK.tick_ns = 31250 ∧
    b.dev.rxOn 0 = true ∧ b.dev.net.hstate = .coldC ∧ b.dev.unitId = 1 ∧ ({} : FrameHdr).origin % 2 ≠ b.dev.unitId ∧
    r.dev.rxOn 0 = true ∧ r.dev.net.hstate = .synced ∧ f.hdr.origin % 2 ≠ r.dev.unitId ∧
    (r.dev.line 0).partnerExp = false ∧ r.dev.lineOpen 0 = false ∧ f.hdr.act = false ∧
    ¬ ({} : FrameHdr).origin % 2 ≠ r.dev.unitId ∧ verdict r 1 9 = .babble := by decide +kernel

/-- The alarm of station 3 in its slot, exact and on the edge; the same with its windows disabled. -/
theorem meets_Alarms :
    let s := lineHead .synced {} []
    s.dev.rxOn 0 = true ∧ s.dev.hasTime = true ∧ verdict s 3 22000 = .ok ∧ verdict s 3 22100 = .edge ∧
    s.dev.winDis 3 = false ∧ (lineHead .synced {} [(R.ST_STATE.win_dis 3, 1)]).dev.winDis 3 = true := by decide +kernel

/-- The head may ask station 3 for its identity in tick 2; a reply lies in its window; a station whose identity
is known, with its configuration to write. -/
theorem meets_Mailbox :
    let s := lineHead .synced { mbxOut := some ⟨3, 1, 0, 16, []⟩ } []
    let r := lineHead .synced {} []
    let r := on { r.dev with time := { r.dev.time with tick := 2 } }
    s.dev.rxOn 0 = true ∧ s.dev.hasTime = true ∧ verdict s 4 25000 = .ok ∧ s.dev.winDis 3 = false ∧
    (s.dev.line 0).mbxOut.isSome = true ∧
    r.dev.txOn = true ∧ r.dev.lineEn 0 = true ∧ r.dev.ownsMbx 0 = true ∧ r.dev.stOnLine 0 3 = true ∧
    (r.dev.line 0).mbxOut = none ∧ (r.dev.head 3).ident = [] ∧ r.dev.mbxNext 3 = some ⟨3, 1, 0, 16, []⟩ ∧
    State.reset.dev.lineEn 0 = false := by decide +kernel

theorem meets_Mailbox_configuration :
    let s := lineHead .synced {} []
    let d := { s.dev with net := { s.dev.net with stCfgs := [⟨3, 0, [9, 8]⟩] } }
    d.cfgMode? 3 = some 0 ∧ d.cfgWords 3 0 = [9, 8] ∧ 2 ≤ (d.head 3).cfgWord + 2 ∧ (d.head 3).cfgWord + 1 < 2 := by
  decide +kernel

/-- Beacons, delay requests and their responses in their windows, at heads A and B and at a station. -/
theorem meets_BeaconsAndDelays :
    let s := lineHead .synced { dreqAt := some 0 } []
    let b := lineHead .synced {} [(R.TW_STAT.unit, 1)]
    let x : StationSt := { addr := 3, state := .coarse, ports := [{ link := true }, { link := true, dreqAt := some 0 }] }
    let q : State := { s with stations := [(3, x), (4, { addr := 4, ports := [{ link := true }, {}] })] }
    s.dev.hasTime = true ∧ s.dev.txOn = true ∧ s.dev.lineEn 0 = true ∧ s.dev.flag (R.ML_STAT.link 0) = true ∧
    verdict s 7 20000 = .ok ∧ verdict s 6 2000 = .ok ∧ verdict s 6 13000 = .ok ∧ (s.dev.line 0).dreqAt = some 0 ∧
    s.dev.unitId = 0 ∧ b.dev.unitId ≠ 0 ∧ verdict b 5 23000 = .ok ∧ (23000000 + b.dev.fld (R.TIM_PORT.ing_ps 0) - b.dev.fld (R.TIM_PORT.ing_ps 0)) / 1000 = 23000 ∧
    s.dev.tick % 1024 = 0 ∧ State.reset.dev.hasTime = false ∧ q.stn? 3 = some x ∧ x.state ≠ .forward ∧
    (q.stn? 4).map (fun x => x.state) = some .forward ∧ (x.ports.getD 0 {}).link = true ∧
    (x.ports.getD 1 {}).dreqAt = some 0 ∧ s.dev.lineEn (s.dev.fld (R.ST_CFG.line 3)) = true ∧
    s.dev.fld (R.ST_CFG.pos 3) ≠ 0 ∧ s.dev.link? 0 0 = none := by decide +kernel

/-- A link measured, with and without a measurement held back. -/
theorem meets_BeaconsAndDelays_held :
    let s := lineHead .synced { dreqAt := some 0 } []
    let on_ := fun (h : Option Nat) => ({ s.dev with time := { numbered := true, links := [{ rtt := some 500000, held := h }] } } : Dev)
    verdict (on (on_ none)) 6 2500 = .ok ∧ ((on_ none).link? 0 0).bind (·.rtt) = some 500000 ∧
    ((on_ none).link? 0 0).bind (·.held) = none ∧ ((on_ (some 600000)).link? 0 0).bind (·.held) = some 600000 ∧
    verdict (on (on_ (some 600000))) 6 3500 = .ok := by decide +kernel

theorem meets_LineLink :
    (lineHead .synced {} []).dev.flag (R.ML_STAT.link 0) = true ∧
    (lineHead .synced {} [(R.ML_STAT.isolated 7, 1)]).dev.flag (R.ML_STAT.link 7) = false ∧
    State.reset.dev.modeIn [mReady, mHold, mService] = false ∧
    (let s := lineHead .synced {} [(R.DEV_MODE.mode, mService), (R.ML_STAT.isolated 7, 1)]
     s.dev.modeIn [mReady, mHold, mService] = true ∧ s.dev.flag (R.ML_STAT.isolated 7) = true ∧
     s.dev.flag (R.ML_STAT.isolated 0) = false) ∧ ({ } : StationSt).ports.length = 2 := by decide +kernel

/-- The head in each state of the cold start, at the first instant at which its next transition is due. -/
theorem meets_ColdStartMachine :
    let at_ := fun (s : State) (t : TimeSt) (n : NetSt → NetSt) => on { s.dev with time := t, net := n s.dev.net }
    let s := lineHead .listen {} []
    let e := on (dv [(R.DEV_MODE.mode, mListen)])
    let c := at_ (lineHead .coldC {} []) { numbered := true, tick := 32 } id
    let d := at_ (lineHead .coldD {} []) { numbered := true, tick := 16 } id
    let g := at_ (lineHead .gather {} []) { numbered := true, tick := 16000 } id
    let f := at_ (lineHead .follow {} []) { numbered := true, ofsGood := 8, links := [{ rtt := some 1 }] } (fun n => { n with leaderGone := 1 })
    s.dev.networkUp = true ∧ s.dev.net.hstate = .listen ∧ s.dev.time.extWait = false ∧ s.dev.linesOn = [0] ∧
    s.dev.flag R.TIM_CFG.tick_in = false ∧ (lineHead .listen {} [(R.TIM_CFG.tick_in, 1)]).dev.flag R.TIM_CFG.tick_in = true ∧
    e.dev.networkUp = true ∧ e.dev.net.hstate = .listen ∧ e.dev.linesOn = [] ∧ e.dev.isTwin = false ∧
    c.dev.net.hstate = .coldC ∧ c.dev.net.abortNext = none ∧ c.dev.now = 1000000 ∧
    d.dev.net.hstate = .coldD ∧ d.dev.net.coldTick + 16 ≤ d.dev.tick ∧
    g.dev.net.hstate = .gather ∧ g.dev.net.syncNext = false ∧ g.dev.now = 500000000 ∧
    f.dev.net.hstate = .follow ∧ f.dev.linesOn ≠ [] ∧ 8 ≤ f.dev.time.ofsGood ∧ f.dev.ownLinksMeasured = true ∧
    1 ≤ f.dev.net.leaderGone ∧ ({ roleWait := true } : TwinSt).roleWait = true ∧ s.dev.twin.roleWait = false := by
  decide +kernel

theorem meets_StationOrders :
    let s := lineHead .synced {} [(R.ST_STATE.win_dis 3, 1)]
    let t := on (s.dev.updHead 3 (fun h => { h with winGood := 64 }))
    let q := lineHead .synced { reintQ := [3] } []
    s.dev.fld (R.ST_CFG.pos 4) = 0 ∧ s.dev.fld (R.ST_CFG.pos 3) ≠ 0 ∧ (s.dev.line 0).reintQ = [] ∧
    (s.dev.line 0).reintCur = none ∧ 3 ∈ (q.dev.line 0).reintQ ∧ s.dev.winDis 3 = true ∧ s.dev.winDis 4 = false ∧
    (s.dev.head 3).winGood < 64 ∧ 64 ≤ (t.dev.head 3).winGood ∧ t.dev.winDis 3 = true := by decide +kernel

/-- A request that is permitted with the least lead, one that is not; a decision with every acknowledgement, one
without, one aborted; a switch. -/
theorem meets_ScheduleChange :
    let s := lineHead .synced {} []
    let p := lineHead .synced {} [(R.ML_SCHED_STAT.pend, 1), (R.ML_SCHED_STAT.pend_tgt, 1), (R.ST_STATE.ack 3, 1), (R.ST_STATE.ack_tgt 3, 1)]
    let due := fun (n : NetSt) => on { p.dev with net := { n with target := 2 }, easel := { closed := true } }
    let d := due p.dev.net
    let sw := due { p.dev.net with decided := true, commit := true }
    s.dev.modeIn [mReady, mRun, mHold, mService] = true ∧ s.dev.flag R.ML_SCHED_STAT.pend = false ∧
    1 ≠ s.dev.net.sched ∧ 10 ≤ (10#8).toNat ∧ ¬ 10 ≤ (9#8).toNat ∧ s.dev.schedMode? s.dev.net.sched = some modeL ∧
    1 ∈ modeL.allowed ∧ (s.dev.schedMode? 1).isSome = true ∧
    d.dev.flag R.ML_SCHED_STAT.pend = true ∧ d.dev.net.decided = false ∧ d.dev.tick + 2 = d.dev.net.target ∧
    d.dev.easel.closed = true ∧ d.dev.net.abortReq = false ∧ d.dev.listed.map (fun z => z.addr) = [3] ∧
    d.dev.flag (R.ST_STATE.ack 3) = true ∧ d.dev.fld (R.ST_STATE.ack_tgt 3) = 1 ∧
    d.dev.fld R.ML_SCHED_STAT.pend_tgt = 1 ∧ (due { p.dev.net with abortReq := true }).dev.net.abortReq = true ∧
    sw.dev.net.decided = true ∧ sw.dev.net.commit = true ∧ ({ sw.dev with time := { tick := 2 } } : Dev).tick = 2 := by
  decide +kernel

/-! ## The hypotheses of the statements are met: stations -/

/-- The configuration of a servo cell for mode 0: no blocks, watchdog after one tick. -/
def cfgS : StCfg := { mode := 0, words := [0x05060001, 0x00000100, 0] }

/-- A servo cell of one axis with its place for one configuration, in COARSE or INTEGRATED. -/
def cell (st : StState) : StationSt :=
  { addr := 3, state := st, ident := [0, 0, 0x10, 0x01000001], axes := [{}], cfgs := [cfgS], stage := [cfgS],
    ports := [{ link := true, live := true }, { link := true, live := true }] }

/-- A block with one station. -/
def with3 (x : StationSt) : State := { stations := [(3, x)] }

theorem meets_StationServices :
    let x := cell .coarse
    (with3 x).stn? 3 = some x ∧ x.state ≠ .forward ∧ x.reint = false ∧ State.reset.stn? 3 = none ∧
    (with3 (cell .forward)).stn? 3 = some (cell .forward) ∧
    0 + 16 ≤ 16 ∧ 16 < 1 + 16 ∧ (List.replicate 30 0#32).length ≤ 30 ∧ 30 < (List.replicate 31 0#32).length ∧
    x.stage.find? (fun c => c.mode = 0) = some cfgS ∧ x.stage.find? (fun c => c.mode = 15) = none ∧
    crc32 (wordsBytes cfgS.words) ≠ crc32 (wordsBytes cfgS.words) + 1 ∧ x.cfgConsistent cfgS 0 = true ∧
    x.cfgConsistent { cfgS with words := [0x05060001, 0, 0] } 0 = false ∧ x.cfgFits cfgS 0 = true ∧
    ({ x with ident := [0, 0, 0x10, 1] }).cfgFits cfgS 0 = false ∧
    ({ x with ident := [0, 0, 0x10, 1] }).cfgConsistent cfgS 0 = true ∧
    x.cfg? (0 / 256 % 16) = some cfgS ∧ x.cfg? (0x100 / 256 % 16) = none ∧ 0 % 256 + 3 ≤ cfgS.words.length ∧
    cfgS.words.length < 0 % 256 + 4 := by decide +kernel

/-- A frame of the leading head whose time agrees, with the station's command and its placeholder, before and at
the apply deadline. -/
theorem meets_StationCyclicFrames :
    let x := cell .integrated
    let q : Seg := { hdr := 0x01050003, words := [1, 2, 3, 4, 5] }
    let p : Seg := { hdr := 0x01060103, words := [0, 0, 0, 0, 0, 0] }
    let f : CycFrame := { hdr := { lead := true }, head := { applyOfs := 14000 }, cmds := [q], fbs := [p] }
    let s := with3 x
    s.stn? 3 = some x ∧ x.state = .integrated ∧ f.crc = .correct ∧ f.hdr.fold = false ∧ f.hdr.corr < 0xFFFFFF ∧
    f.hdr.lead = true ∧ x.freeRun = false ∧ (thetaOf f.hdr 2000 (s.dev.arrivalPs 3 0)).natAbs = 2000 ∧
    f.head.crcOk = true ∧ f.hdr.tick = word x.tick ∧ x.applySet = false ∧ x.cfg? f.head.sched = some cfgS ∧
    f.cmds.find? (fun g => x.segMatches cfgS g 0 (cfgS.f 0 31 24)) = some q ∧ q.crc = .correct ∧
    13999 < f.head.applyOfs - x.tPrep ∧ f.head.applyOfs - x.tPrep ≤ 14000 ∧ x.portLive 1 = true ∧
    x.segMatches cfgS p 1 (cfgS.f 0 23 16) = true ∧ bits p.hdr 9 9 = 0 ∧
    ((cell .forward).ports.getD 1 {}).link = true ∧ ({ f with cmds := [] } : CycFrame).cmds = [] := by decide +kernel

theorem meets_StationColdStart :
    let x := cell .forward
    (with3 x).stn? 3 = some x ∧ ({} : CstFrame).crc = .correct ∧ x.state = .forward ∧ x.portLive 1 = true ∧
    (cell .coarse).state = .coarse ∧ (cell .coarse).coldA = false ∧ ({} : FrameHdr).origin = 0 := by decide +kernel

/-- No candidate, one, two of every rank; a watchdog at its limit and below. -/
theorem meets_StationAppliesCommands :
    let a : Cand := { act := true, epoch := 1 }
    let b : Cand := { origin := 1 }
    let x := { cell .integrated with applyOfs := some 14000, cands := [a, b], dos := [true], aos := [7] }
    (with3 x).stn? 3 = some x ∧ x.state ≠ .forward ∧ x.applyOfs.isSome = true ∧ a.act = true ∧ b.act = false ∧
    epochHigher 1 0 = true ∧ epochHigher 0 1 = false ∧ epochHigher 0 0 = false ∧ epochHigher 0 255 = true ∧
    (x.cfg? x.sched).map (fun c => c.f 1 11 8) = some 1 ∧ x.applied = none ∧ ({ x with wd := 1 }).wd = 1 ∧ x.wd < 1 ∧
    ({ x with applied := some a }).applied = some a ∧ x.dos[0]? = some true ∧ x.aos[0]? = some 7 ∧
    ({ x with ident := [0, 0, 0x10, 2] }).ptype = 2 ∧ x.axes[0]? = some ({} : StAxis) ∧ (cell .integrated).applyOfs = none := by
  decide +kernel

/-- A timed output held; an alarm waiting; a valid PDU of a station's connection in a candidate. -/
theorem meets_StationEvents :
    let cf : StCfg := { mode := 0, words := [0x09060101, 0x00100100, 0, 0x60040000] }
    let pdu : List Word := [0x00001002, 0x00000500, 0xFFFF, crc32c 0 (wordsBytes [0x00001002, 0x00000500, 0xFFFF])]
    let x := { cell .integrated with
      cfgs := [cf], tos := [⟨4, 0, 1, 9⟩, ⟨5, 0, 3, 9⟩], alarms := [(1, 2, 3)], dos := [true],
      cands := [{ words := [0, 0, 0, 0, 0] ++ pdu }], conns := [{ idx := 0 }] }
    let s : State := { with3 x with dev := dv [(R.SF_CONN_CFG.en 2, 1), (R.SF_CONN_CFG.stn 2, 3), (R.SF_CONN_ID.cid 2, 5),
      (wholeReg (R.SF_CONN_SEED.adr 2), 0)] }
    s.stn? 3 = some x ∧ x.tos = [⟨4, 0, 1, 9⟩] ++ ⟨5, 0, 3, 9⟩ :: [] ∧ (∀ e ∈ x.tos, e.id ≠ 32767) ∧ x.dos[0]? = some true ∧
    x.alarms = (1, 2, 3) :: [] ∧ x.state = .integrated ∧ x.reint = false ∧ (cell .coarse).alarms = [] ∧
    x.cfg? 15 = none ∧ (x.cfg? 0).isSome = true ∧ (s.dev.connsOf 3)[0]? = some 2 ∧ x.cfg? x.sched = some cf ∧
    ((x.blkOf cf ([0, 0, 0, 0, 0] ++ pdu) 6).drop 0).take 4 = pdu ∧
    s.dev.pduValid 2 pdu 0 (cf.f 1 23 16) x.tick = true ∧ s.dev.pduValid 2 [0, 0, 0, 1] 0 (cf.f 1 23 16) x.tick = false := by
  decide +kernel

/-! ## The hypotheses of the statements are met: axes -/

/-- Axis 127 of a device in Run, fed by station 3 on a slot of age 0. -/
def axisOn (kind st : Nat) (x : AxSt) (l : List (Fld × Nat)) : State :=
  on ({ dv ([(R.DEV_MODE.mode, mRun), (R.AX_CFG.kind 127, kind), (R.AX_STATE.astate 127, st), (R.AX_CFG.stn 127, 3),
      (R.AX_CFG.pp 127, 1)] ++ l) with
    net := { modes := [modeL], stCfgs := [⟨3, 0, [0x300, 0, 0, 0x10010000, 0x20010000, 0x50010000]⟩] }, axes := [(127, x)] } |>.updHead 3 (fun h => { h with everValid := true }))

theorem meets_AxisTransitions_enable :
    let s := axisOn 1 aOff {} []
    s.dev.akind 127 = 1 ∧ s.dev.rmode = mRun ∧ s.dev.astate 127 = aOff ∧ s.dev.stnAbsent (s.dev.fld (R.AX_CFG.stn 127)) = false ∧
    State.reset.dev.akind 127 = 0 ∧
    (∀ st ∈ [aLost, aFault, aSafeOff], let r := axisOn 2 st {} []
      r.dev.akind 127 = 2 ∧ r.dev.astate 127 = st ∧ aLost ≤ st ∧ r.dev.axPermitted 127 = true ∧
      r.dev.slotAge (r.dev.fld (R.AX_CFG.stn 127)) = 0 ∧ r.dev.cellBars 127 = false) ∧
    (axisOn 2 aLost { cellSto := true } []).dev.cellBars 127 = true ∧
    (axisOn 2 aSafeOff {} [(R.SF_ZONE_CFG.en 0, 1), (wholeReg (R.SF_ZONE_GRP.adr 0), 0xFFFFFFFF)]).dev.axPermitted 127 = false := by decide +kernel

theorem meets_AxisTransitions :
    (∀ st ∈ [aReleasing, aEnabled, aCoasting, aStopping, aCatching], (axisOn 1 st { stateTick := 1 } []).dev.astate 127 = st ∧
      ((axisOn 1 st { stateTick := 1 } []).dev.ax 127).stateTick ≠ 0) ∧
    (let s := axisOn 1 aCatching { fromCoast := true } [(R.AX_STATE.tries 127, 2), (R.AX_CATCH.max 127, 3)]
     (s.dev.ax 127).fromCoast = true ∧ s.dev.fld (R.AX_STATE.tries 127) < s.dev.fld (R.AX_CATCH.max 127)) ∧
    (let s := axisOn 1 aCatching { fromCoast := true } [(R.AX_STATE.tries 127, 3), (R.AX_CATCH.max 127, 3)]
     s.dev.fld (R.AX_CATCH.max 127) ≤ s.dev.fld (R.AX_STATE.tries 127)) ∧
    ((axisOn 1 aCatching {} []).dev.ax 127).fromCoast = false ∧
    (axisOn 1 aCatching {} [(R.AX_REACT.grp_flt 127, 0)]).dev.fld (R.AX_REACT.grp_flt 127) = 0 ∧
    1024 ≤ ((axisOn 1 aEnabled { goodTicks := 1024 } []).dev.ax 127).goodTicks ∧
    (axisOn 2 aCatching {} []).dev.akind 127 = 2 ∧
    (let s := axisOn 2 aEnabled { ctl := { spdZero := 320 } } [(R.AX_STP_CFG.t_hold 127, 1)]
     s.dev.fld (R.AX_STP_CFG.t_hold 127) ≠ 0 ∧ (s.dev.ax 127).ctl.vc = 0 ∧ (s.dev.ax 127).ctl.holdI = false ∧
     s.dev.ticksOfMs (10 * s.dev.fld (R.AX_STP_CFG.t_hold 127)) ≤ (s.dev.ax 127).ctl.spdZero) := by decide +kernel

theorem meets_AxisReferenceSource :
    (∀ v ∈ [0, 1, 2], bits (BitVec.ofNat 32 v) 1 0 ≠ 3) ∧ bits 3 1 0 = 3 ∧ (axisOn 1 aOff {} []).dev.astate 127 = aOff ∧
    ((axisOn 1 aEnabled {} []).dev.prf 127).idle = true ∧ (axisOn 1 aEnabled {} []).dev.astate 127 ≠ aOff ∧
    (axisOn 2 aOff {} []).dev.akind 127 = 2 ∧ ((axisOn 1 aEnabled {} []).dev.ax 127).ctl.wr * 10 = 0 ∧
    (axisOn 1 aEnabled {} [(R.AX_REF.src 127, 1)]).dev.fld (R.AX_REF.src 127) = 1 ∧
    ((axisOn 1 aEnabled { ctl := { wr := 100000 } } []).dev.ax 127).ctl.wr * 10 >
      ((axisOn 1 aEnabled {} []).dev.fld (R.AX_ZERO.n_zero 127) : Nat) := by decide +kernel

/-- An enabled axis on its profile, at rest or moving, with limits that are not 0. -/
def profileOn (p : PrfSt) (l : List (Fld × Nat)) : State :=
  let s := axisOn 1 aEnabled {} ([(R.AX_LIM.n_lim 127, 1), (R.AX_BASE.n_base 127, 1), (R.AX_PRF_VMAX.vmax 127, 1),
    (R.AX_PRF_ACC.acc 127, 1), (R.AX_PRF_LIM.acc_lim 127, 1), (R.AX_PRF_ACC.dec 127, 1), (R.AX_PRF_LIM.dec_lim 127, 1)] ++ l)
  on { s.dev with prfs := [(127, p)] }

theorem meets_ProfileCommands :
    let s := profileOn {} []
    let p := s.dev.prf 127
    let m := profileOn { moving := true, queue := [⟨some 5, 0⟩] } []
    let f := List.replicate 8 (⟨some 5, 0⟩ : PrfMove)
    p.cmds = [] ∧ p.queue.length ≤ 8 ∧ s.dev.astate 127 = aEnabled ∧ s.dev.fld (R.AX_REF.src 127) = 0 ∧ s.dev.rmode ≠ mHold ∧
    (profileOn {} [(R.DEV_MODE.mode, mHold)]).dev.rmode = mHold ∧ p.moving = false ∧ p.stopping = false ∧ p.queue = [] ∧
    s.dev.fld (R.AX_LIM.n_lim 127) % 32768 * s.dev.fld (R.AX_BASE.n_base 127) ≠ 0 ∧ s.dev.fld (R.AX_PRF_VMAX.vmax 127) ≠ 0 ∧
    s.dev.fld (R.AX_PRF_ACC.acc 127) ≠ 0 ∧ s.dev.fld (R.AX_PRF_LIM.acc_lim 127) ≠ 0 ∧ s.dev.fld (R.AX_PRF_ACC.dec 127) ≠ 0 ∧
    s.dev.fld (R.AX_PRF_LIM.dec_lim 127) ≠ 0 ∧ s.dev.sfld (R.AX_PRF_POS.p_ref 127) + s.dev.sfld (R.AX_PRF_TGT.tgt 127) = 0 ∧
    (let r := profileOn {} [(R.AX_PRF_POS.p_ref 127, 0x7FFFFFFF), (R.AX_PRF_TGT.tgt 127, 1)]
     r.dev.sfld (R.AX_PRF_POS.p_ref 127) + r.dev.sfld (R.AX_PRF_TGT.tgt 127) = 2 ^ 31) ∧
    (profileOn {} [(R.AX_PRF_VMAX.vmax 127, 0)]).dev.fld (R.AX_PRF_VMAX.vmax 127) = 0 ∧
    (m.dev.prf 127).moving = true ∧ m.dev.flag (R.AX_PRF_CFG.qmode 127) = false ∧
    (m.dev.prf 127).queue = [] ++ [PrfMove.mk (some 5) 0] ∧ f.length = 8 ∧ ((profileOn { queue := f } []).dev.prf 127).queue = f ∧
    (profileOn {} [(R.AX_PRF_CFG.qmode 127, 1)]).dev.flag (R.AX_PRF_CFG.qmode 127) = true ∧
    ((profileOn { moving := true, cmds := [⟨1, -(2 ^ 31)⟩] } []).dev.prf 127).cmds = [⟨1, -(2 ^ 31)⟩] ∧
    (let t := axisOn 1 aEnabled { lostRun := 15 } []
     t.dev.fld (R.AX_PRF_CFG.late_lim 127) ≤ (t.dev.ax 127).lostRun) := by decide +kernel

theorem meets_EmulationAndCompareWrites :
    let s := axisOn 1 aEnabled {} [(R.AX_EMU_CFG.en 127, 1), (R.AX_CMP_CFG.arm 0, 1), (R.AX_CMP_SPAN.first 0, 4)]
    s.dev.flag (R.AX_EMU_CFG.en 127) = true ∧ s.dev.loadOrService = false ∧ s.dev.flag (R.AX_EMU_CFG.en 0) = false ∧
    s.dev.astate 127 ≠ aOff ∧ s.dev.astate 0 = aOff ∧ 1 ≤ (1#32).toNat ∧ (0x80000000#32).toNat ≤ 2 ^ 31 ∧
    2 ^ 31 < (0x80000001#32).toNat ∧ bit 0x80000000 31 = true ∧
    (axisOn 1 aEnabled {} [(R.DEV_MODE.mode, mService)]).dev.loadOrService = true ∧
    s.dev.flag (R.AX_CMP_CFG.arm 0) = true ∧ s.dev.flag (R.AX_CMP_CFG.arm 15) = false ∧ s.dev.rmode = mRun ∧
    (s.dev.rd (R.AX_CMP_CFG.adr 0) &&& 0xE07FFFFF#32) ||| 0x80000000#32 = s.dev.rd (R.AX_CMP_CFG.adr 0) ∧
    (∀ k : Fin 16, k ≠ 15 → s.dev.flag (R.AX_CMP_CFG.arm k) = true →
      s.dev.fld (R.AX_CMP_SPAN.first 15) + s.dev.fld (R.AX_CMP_SPAN.len_m1 15) < s.dev.fld (R.AX_CMP_SPAN.first k)) := by
  decide +kernel

/-- A list armed on an enabled axis that accelerates from rest: an entry that it crosses, one that it does not, one
whose dir is 3. -/
def compareOn (entry : List Word) : State :=
  let s := axisOn 1 aEnabled { hyPos := 5 } [(R.AX_CMP_CFG.arm 0, 1), (R.AX_CMP_CFG.src 0, 1), (R.AX_CMP_CFG.axis 0, 127),
    (R.AX_CMP_CFG.stn 0, 3), (R.AX_CMP_CFG2.to_n 0, 1)]
  on ({ s.dev with prfs := [(127, { cur := some { aref := 26214400000000 } })], decs := [(127, { fresh := some 0 })] }.putBytes
    (s.dev.cmpCode 0 0) (wordsBytes entry))

theorem meets_CompareEvaluation :
    let s := compareOn [6, 0x10000009]
    let d := s.dev
    let opens := (d.tick + 1) * d.time.tickNs + d.cmpOfs 0
    let x := firstCross (d.measCourse 127) (sword (nthW (d.cmpEntry 0 0) 0)) (opens : Nat) ((opens + d.time.tickNs : Nat) : Int)
    d.flipAt 0 = 0 ∧ d.fld (R.AX_CMP_CFG.axis 0) = 127 ∧ d.flag (R.AX_CMP_CFG.arm 0) = true ∧
    (d.cmp 0).evalTick ≠ some d.tick ∧ d.easel.closed = false ∧ d.astate 127 = aEnabled ∧
    d.flag (R.AX_CMP_CFG.src 0) = true ∧ (d.dec 127).fresh = some d.tick ∧ (d.cmp 0).staged = [] ∧ (d.cmp 0).done = false ∧
    (d.cmp 0).from_ = none ∧ d.fld (R.AX_CMP_STAT.next 0) = 0 ∧ d.fld (R.AX_CMP_SPAN.len_m1 0) = 0 ∧
    d.flag (R.AX_CMP_CFG.cyc 0) = false ∧ d.cmpRoom 0 = true ∧ Sparse.wf (fun _ => ({} : CmpSt)) d.cmps = true ∧
    bits (nthW (d.cmpEntry 0 0) 1) 31 30 = 0 ∧ bits (nthW (d.cmpEntry 0 0) 1) 29 28 = 1 ∧
    x.map (fun p => p.2) = some true ∧ (x.map (fun p => decide (opens < p.1.toNat))) = some true := by decide +kernel

theorem meets_CompareEvaluation_other :
    let d := (compareOn [99, 0x10000009]).dev
    bits (nthW ((compareOn [6, 0xC0000000]).dev.cmpEntry 0 0) 1) 31 30 = 3 ∧
    firstCross (d.measCourse 127) (sword (nthW (d.cmpEntry 0 0) 0)) 31250 62500 = none ∧
    (compareOn [6, 0]).dev.flag (R.AX_CMP_CFG.arm 1) = false := by decide +kernel

/-! ## The hypotheses of the statements are met: loops and recipes -/

/-- A device in Run with loop 383 in a state, its input fed by station 3. -/
def loopOn (st : Nat) (fresh : Bool) (l : List (Fld × Nat)) : State :=
  let s := axisOn 1 aEnabled {} ([(R.PL_STATE.state 383, st), (R.PL_IO.in_stn 383, 3)] ++ l)
  on (s.dev.updHead 3 (fun h => { h with got := fresh }))

theorem meets_LoopControls :
    (∀ st ∈ [lOff, lManual, lAuto, lHold, lFault], (loopOn st true []).dev.lstate 383 = st) ∧
    ((loopOn lManual true []).dev.plInput 383).1 = 0 ∧ ((loopOn lManual false []).dev.plInput 383).1 ≠ 0 ∧
    (loopOn lAuto true [(R.DEV_MODE.mode, mService)]).dev.loadOrService = true ∧
    (loopOn lAuto true []).dev.loadOrService = false ∧
    (let v : Word := 0xAF800000
     bits v 29 23 = 95 ∧ bits v 9 0 ≤ bits v 21 12 ∧ bit v 31 = true ∧ bits (0xB0000000 : Word) 29 23 = 96) ∧
    bit (0 : Word) 31 = false ∧ signed 16 (bits (0x00010000 : Word) 15 0) < signed 16 (bits (0x00010000 : Word) 31 16) ∧
    signed 16 (bits (0x00010001 : Word) 31 16) ≤ signed 16 (bits (0x00010001 : Word) 15 0) := by decide +kernel

/-- A device in Run whose recipe 63 stands in a state, over a pool whose first records are given: the header of two
records, a step, and a condition at record 4. -/
def recipeOn (st : Nat) (x : RcpSt) (step : List Word) (l : List (Fld × Nat)) : State :=
  let d := dv ([(R.DEV_MODE.mode, mRun), (R.AT_RCP_STAT.state 63, st), (R.AT_RCP_CFG.hdr 63, 0), (R.AT_RCP_CFG.last 63, 0)] ++ l)
  on ({ d with rcp := { rcps := [(63, x)] } }.putBytes (d.recCode 0)
    (wordsBytes ([0, 0, 0, 0, 0, 0x0FFF0FFF, 0, 0] ++ step ++ List.replicate 4 0 ++ [0x70000000, 1, 0, 0])))

/-- A step without a guard, and one whose guard asks for flag 0. -/
def plainStep : List Word := [0x00FFF000, 100, 0, 0]
def guardStep : List Word := [0x00FFF000, 100, 0, 0x00021000]

theorem meets_RecipeControls_start :
    let s := recipeOn sIdle {} plainStep []
    let g := recipeOn sIdle {} guardStep []
    let w := g.dev.recWords (g.dev.stepRec 63 0).cond
    s.dev.rmode = mRun ∧ s.dev.rstate 63 = sIdle ∧ s.dev.rcpValid 63 0 = true ∧ (s.dev.stepRec 63 0).ng = 0 ∧
    s.dev.rcpValid 63 1 = false ∧ State.reset.dev.rmode ≠ mRun ∧
    g.dev.rcpValid 63 0 = true ∧ (g.dev.stepRec 63 0).ng = 1 ∧ bits (nthW w 0) 31 24 = 0x70 ∧
    b2n ((g.dev.recipe 63).flags.getLsbD (bits (nthW w 0) 15 0)) ≠ sword (nthW w 1) ∧ (g.dev.stepRec 63 0).gfail = 0 := by
  decide +kernel

theorem meets_RecipeControls :
    let p : Planned := { on := true }
    let e : StagedTo := { id := 5 }
    let s := recipeOn sRun { plan := [p], staged := [e] } plainStep []
    (∀ st ∈ [sIdle, sRun, sWait, sHolding, sHeld, sAborting, sAborted, sDone], (recipeOn st {} plainStep []).dev.rstate 63 = st) ∧
    bits (nthW (s.dev.rcpHdr 63) 5) 11 0 = 0xFFF ∧ bits (nthW (s.dev.rcpHdr 63) 5) 27 16 = 0xFFF ∧
    (s.dev.recipe 63).running = some p ∧ (s.dev.recipe 63).staged ≠ [] ∧ (State.reset.dev.recipe 63).staged = [] ∧
    (let h := recipeOn sHeld {} [0x08FFF000, 100, 0, 0] [(R.AT_RCP_STAT.started 63, 1)]
     h.dev.rmode = mRun ∧ h.dev.flag (R.AT_RCP_STAT.started 63) = true ∧ (h.dev.stepRec 63 0).reHold = true ∧
     (h.dev.stepRec 63 0).ng = 0) ∧ (recipeOn sHeld {} plainStep []).dev.flag (R.AT_RCP_STAT.started 63) = false := by
  decide +kernel

/-- A journal entry of step 0 and of step 1, axes that stand where it says, that do not, and that are off. -/
theorem meets_RecipeResumesFromJournal :
    let s := recipeOn sIdle {} plainStep [(R.AT_RCP_STAT.jnl_valid 63, 1)]
    let ws := s.dev.peekWords (s.dev.recCode (130560 + 8 * 63)) 32
    let at_ := fun (st p : Nat) =>
      let d := (recipeOn sIdle {} plainStep [(R.AT_RCP_STAT.jnl_valid 63, 1), (R.AX_STATE.astate 3, st),
        (R.AX_FB_POS.p 3, p)]).dev
      (d.putBytes (d.recCode 0) [0x83]).jnlPosition 63 ws
    s.dev.rmode = mRun ∧ s.dev.rstate 63 = sIdle ∧ s.dev.flag (R.AT_RCP_STAT.jnl_valid 63) = true ∧
    s.dev.rcpValid 63 (bits (nthW ws 0) 11 0) = true ∧ s.dev.rcpValid 63 (bits (nthW [1] 0) 11 0) = false ∧
    s.dev.jnlPosition 63 ws = some true ∧ at_ aEnabled 0 = some true ∧ at_ aEnabled 1 = some false ∧ at_ aOff 0 = none ∧
    (∀ i, i < 4 → bits (nthW ws (24 + i)) 24 16 < 384) := by decide +kernel

theorem meets_RecipeRuns :
    let p : Planned := { acted := true }
    let q : Planned := { on := true, start := 0 }
    let e : StagedTo := { id := 32767, retr := true, ack := some false }
    let s := recipeOn sRun { plan := [q, p], staged := [e], ramps := [⟨0, 0, 9, 0, 1⟩, ⟨383, 0, 9, 0, 2⟩] } plainStep []
    let x := s.dev.recipe 63
    s.dev.rstate 63 = sRun ∧ x.plan = [q] ++ p :: [] ∧ q.on = true ∧ p.on = false ∧ p.start ≤ s.dev.tick ∧ p.acted = true ∧
    x.running = some q ∧ (s.dev.stepRec 63 q.step).layer = false ∧
    ((recipeOn sRun {} [0x10FFF000, 0, 0, 0] []).dev.stepRec 63 0).layer = true ∧
    (∀ y ∈ x.ramps, y.loop < 384) ∧ (x.ramps.map (fun (y : Ramp) => y.loop)).Nodup ∧ x.staged = [] ++ e :: [] ∧
    e.retr = true ∧ e.id = 32767 ∧ e.ack = some false ∧ ({ e with ack := none }).comp = false ∧
    State.reset.dev.rcp.queue = [] ∧ ({ queue := [{}] } : RecSt).queue = {} :: [] ∧ s.dev.ecc.queue.length < 16 := by
  decide +kernel

/-- Points of station 3's blocks, a loop that takes a control and one that does not, a profile ready and one not, a
list that may be armed and one that may not, recipes with nothing planned and with steps planned. -/
theorem meets_RecipeActions :
    let s := axisOn 1 aEnabled {} []
    let d := s.dev
    d.idUsed d.rcp.nextId = false ∧ (3 : Fin 4) ≠ 0 ∧ d.stBlk 4 1 = none ∧ d.stBlk 4 2 = none ∧
    (d.stBlk 3 1).map (fun p => p.2) = some (1, 0) ∧ (d.stBlk 3 2).map (fun p => p.2) = some (1, 0) ∧
    0 ≤ (31#16).toNat ∧ ((31#16).toNat - 0) / 32 < 1 ∧ ((1#16).toNat - 0) / 2 < 1 ∧ (d.cmdCode? 3 0).isSome = true ∧
    (loopOn lManual true []).dev.plCtlOk 383 .auto = true ∧ (loopOn lManual true []).dev.plCtlOk 383 .manual = false ∧
    d.rstate 63 ≠ sRun ∧ d.rstate 63 ≠ sWait ∧
    (let p := (profileOn {} []).dev
     p.astate 127 = aEnabled ∧ p.fld (R.AX_REF.src 127) = 0 ∧ (p.prf 127).cmds = [] ∧ p.rmode ≠ mHold ∧
     (p.prf 127).moving = false ∧ p.prfZero 127 = false ∧ (p.prf 127).stopping = false ∧ (p.prf 127).queue = [] ∧
     p.sfld (R.AX_PRF_POS.p_ref 127) + (0x7FFFFFFF#32).toInt < 2 ^ 31 ∧
     -(2 ^ 31) ≤ p.sfld (R.AX_PRF_POS.p_ref 127) + (0x80000000#32).toInt ∧ p.astate 0 ≠ aEnabled) ∧
    (d.cmpCfgWr 0 (d.rd (R.AX_CMP_CFG.adr 0) ||| 0x80000000#32)).2 = .ok 0 ∧
    (d.cmpCfgWr 0 (d.rd (R.AX_CMP_CFG.adr 0) &&& 0x7FFFFFFF#32)).2 = .ok 0 ∧ d.flag (R.AX_CMP_CFG.arm 0) = false ∧
    State.reset.dev.rmode ≠ mRun ∧ State.reset.dev.rmode ≠ mHold ∧ State.reset.dev.rmode ≠ mLoad ∧
    (d.recipe 63).cnts.length = 4 := by decide +kernel

theorem meets_RecipeActions_rejected :
    let s := recipeOn sWait {} plainStep []
    s.dev.rstate 63 = sWait ∧ bits (nthW (s.dev.rcpHdr 63) 5) 11 0 = 0xFFF ∧ (s.dev.recipe 63).staged = [] ∧
    s.dev.plCtlOk 0 .auto = false ∧ s.dev.astate 0 ≠ aEnabled ∧ (s.dev.prf 0).cmds = [] := by decide +kernel

/-! ## The hypotheses of the statements are met: safety -/

theorem meets_SafetyDemands :
    let pdu : List Word := [0x00000A3F + 0x80, 0x00000500, 7, crc32c 0 (wordsBytes [0x00000A3F + 0x80, 0x00000500, 7])]
    let cfg := fun (kind : Nat) => ({ dv [(R.SF_CONN_CFG.en 63, 1), (R.SF_CONN_CFG.stn 63, 3), (R.SF_CONN_CFG.wd 63, 10),
      (R.SF_CONN_ID.cid 63, 5), (R.SF_CONN_CFG.kind 63, kind), (wholeReg (R.SF_CONN_SEED.adr 63), 0), (R.SF_ZONE_CFG.en 0, 1),
      (R.SF_CONN_MAP.dem 63, 1)] with net := {} } : Dev).updHead 3 (fun h => { h with got := true })
    let d := cfg 1
    d.flag (R.SF_CONN_CFG.en 63) = true ∧ d.flag (R.SF_CONN_CFG.en 0) = false ∧ (d.head (d.fld (R.SF_CONN_CFG.stn 63))).got = true ∧
    d.easel.closed = false ∧ d.pduValid 63 pdu 1 (d.fld (R.SF_CONN_CFG.wd 63)) d.tick = true ∧
    d.pduValid 63 [0, 0, 0, 1] 1 (d.fld (R.SF_CONN_CFG.wd 63)) d.tick = false ∧ d.fld (R.SF_CONN_CFG.kind 63) = 1 ∧
    (cfg 2).fld (R.SF_CONN_CFG.kind 63) ≠ 1 ∧ bit (nthW pdu 0) 6 = false ∧
    bits (nthW pdu 2) 31 16 &&& d.fld (R.SF_CONN_MAP.dem 63) = 0 ∧
    bits (nthW [0, 0, 0x00010000] 2) 31 16 &&& d.fld (R.SF_CONN_MAP.dem 63) ≠ 0 ∧ d.flag (R.SF_ZONE_CFG.en 0) = true ∧
    d.flag (R.SF_ZONE_CFG.en 15) = false := by decide +kernel

theorem meets_SafetyZones :
    let pair := dv [(R.SF_IN_CFG.pair, 1), (R.SF_ZONE_CFG.loc_a 0, 1), (R.SF_IN_CFG.anti, 1)]
    let conn := dv [(R.SF_CONN_CFG.en 63, 1), (R.SF_CONN_STAT.starting 63, 0), (R.SF_CONN_CFG.wd 63, 8), (R.SF_CONN_STAT.miss 63, 8)]
    let join := { dv [(R.SF_ZONE_CFG.en 15, 1), (R.TW_CFG.twin, 1), (R.SF_ZONE_STAT.zstate 15, zSto)] with
      saf := { zones := [(15, { join := 1024 })] } }
    let mon := { dv [(R.SF_ZONE_CFG.en 0, 1), (wholeReg (R.SF_ZONE_GRP.adr 0), 1), (R.SF_ZONE_STAT.zstate 0, zSs1),
        (R.SF_ZONE_SS1B.t_max 0, 0), (R.SF_ZONE_SS1B.t_zero 0, 3), (R.SF_AX_CFG.mon 127, 1)] with
      time := { tick := 1 }, saf := { mons := [{ axis := 127, zone := some 0, zeroRun := 3 }, { axis := 127 }] } }
    pair.pairDisagrees = true ∧ (dv [(R.SF_IN_CFG.pair, 0)]).pairDisagrees = false ∧ pair.flag (R.SF_ZONE_CFG.loc_a 0) = true ∧
    conn.flag (R.SF_CONN_CFG.en 63) = true ∧ conn.flag (R.SF_CONN_STAT.starting 63) = false ∧
    conn.fld (R.SF_CONN_CFG.wd 63) ≤ conn.fld (R.SF_CONN_STAT.miss 63) ∧
    join.flag (R.SF_ZONE_CFG.en 15) = true ∧ 1024 ≤ (join.zone 15).join ∧ join.isTwin = true ∧ join.zstate 15 = zSto ∧
    (join.zone 15).fresh = true ∧ join.demands 15 = [] ∧ join.zoneFaulty 15 = false ∧ join.zoneConns 15 = [] ∧
    join.zoneStarting 15 = false ∧
    mon.zoneCovers 0 127 = true ∧ mon.zstate 0 = zSs1 ∧
    mon.fld (R.SF_ZONE_SS1B.t_max 0) * 1000000 < (mon.tick - (mon.zone 0).s) * mon.time.tickNs ∧
    mon.saf.mons.map (fun m => (m.axis, m.still)) = [(127, false), (127, false)] ∧ mon.flag (R.SF_AX_CFG.mon 127) = true ∧
    mon.fld (R.SF_ZONE_SS1B.t_zero 0) ≤ 3 ∧ (dv []).saf.mons = [] := by decide +kernel

theorem meets_SafetyFaultsAndResets :
    let d := dv [(R.DEV_MODE.mode, mLockout), (R.SF_STAT.lockout, 1), (R.SF_OUT_STAT.sfb_hs, 0), (R.SF_OUT_STAT.cmd_hs, 0)]
    let b := dv [(R.DEV_MODE.mode, mRun), (R.SF_OUT_STAT.sfb_hs, 1), (R.SF_ZONE_CFG.en 15, 1), (R.SF_ZONE_CFG.rst_src 15, 1),
      (R.SF_OUT_CFG.tp_en, 1), (R.SF_ZONE_CFG.en 0, 1), (R.SF_ZONE_CFG.rst_src 0, 0)]
    d.saf.retested = false ∧ ({ retested := true, retest := true } : SafSt).retested = true ∧ d.omode = mLockout ∧
    d.flag R.SF_OUT_STAT.sfb_hs = d.flag R.SF_OUT_STAT.cmd_hs ∧ d.flag R.SF_OUT_STAT.sfb_ls = d.flag R.SF_OUT_STAT.cmd_ls ∧
    d.flag R.SF_STAT.lockout = true ∧ b.flag R.SF_STAT.lockout = false ∧ b.omode = mRun ∧
    b.flag R.SF_OUT_STAT.sfb_hs ≠ b.flag R.SF_OUT_STAT.cmd_hs ∧ b.flag (R.SF_ZONE_CFG.en 15) = true ∧
    b.fld (R.SF_ZONE_CFG.rst_src 15) = 1 ∧ b.flag (R.SF_ZONE_CFG.en 0) = true ∧ b.fld (R.SF_ZONE_CFG.rst_src 0) = 0 ∧
    b.flag R.SF_OUT_CFG.tp_en = true ∧ b.pairOn = true ∧ b.saf.lsDue = false ∧ ({ lsDue := true } : SafSt).lsDue = true ∧
    b.saf.retest = false ∧ (∀ ms ∈ [100, 2000], 100 ≤ ms ∧ ms ≤ 2000) ∧ (∀ ms ∈ [99, 2001], ms < 100 ∨ 2000 < ms) := by
  decide +kernel

/-! ## The hypotheses of the statements are met: twin units -/

/-- A unit of a twin with its link up, its role known, and what is given. -/
def twinOn (z : TwinSt) (l : List (Fld × Nat)) : State :=
  on { dv ([(R.DEV_MODE.mode, mRun), (R.TW_CFG.twin, 1), (R.TW_STAT.link, 1), (R.TW_STAT.tstate, tSynced)] ++ l) with
    twin := { (z) with roleKnown := true }, time := { numbered := true } }

theorem meets_TwinResyncAndCopy :
    let s := twinOn { copyOn := true } []
    let a := twinOn { resyncRun := true } [(R.TW_STAT.role, 1)]
    let i := twinOn {} [(R.TW_STAT.tstate, tIdent), (wholeReg R.TW_PAIR.adr, 7), (wholeReg R.TW_CFG_CRC.adr, 9)]
    let off := on (dv [(R.TW_CFG.twin, 1)])
    off.dev.isTwin = true ∧ off.dev.flag R.TW_STAT.link = false ∧ off.dev.twUp = false ∧ State.reset.dev.isTwin = false ∧
    s.dev.twUp = true ∧ s.dev.flag R.TW_STAT.link = true ∧ s.dev.isStandby = true ∧ s.dev.tstate = tSynced ∧
    s.dev.tstate ≠ tIdent ∧ s.dev.twin.copyOn = true ∧ (List.replicate 1024 (0 : Byte)).length ≤ 1024 ∧
    i.dev.tstate = tIdent ∧ i.dev.rd R.TW_PAIR.adr = 7 ∧ i.dev.unitId = 0 ∧ i.dev.rd R.TW_CFG_CRC.adr = 9 ∧
    i.dev.twin.roleKnown = true ∧ (on { i.dev with twin := {} }).dev.twin.roleKnown = false ∧
    a.dev.isActive = true ∧ a.dev.twUp = true ∧ a.dev.tstate = tSynced ∧ a.dev.twin.resyncRun = true ∧ a.dev.twin.dirty = [] ∧
    (twinOn {} [(R.TW_STAT.tstate, tResync)]).dev.tstate = tResync := by decide +kernel

theorem meets_TwinRoles :
    let a := twinOn { deadTicks := 2 } [(R.TW_STAT.role, 1), (R.TW_CFG.sw_en, 1), (R.TW_STAT.p_fit, 1)]
    let s := twinOn { roleWait := true } []
    let h := twinOn { handover := some 5 } []
    let l := on { dv [(R.DEV_MODE.mode, mListen), (R.TW_CFG.twin, 1), (R.TW_STAT.link, 1)] with net := {} }
    let p := on { a.dev with balls := { presentN := false }, twin := { a.dev.twin with lost := false } }
    a.dev.isTwin = true ∧ a.dev.isActive = true ∧ a.dev.rmode = mRun ∧ a.dev.flag R.TW_CFG.sw_en = true ∧
    a.dev.flag R.TW_STAT.p_fit = true ∧ a.dev.twin.handover = none ∧ 2 ≤ a.dev.twin.deadTicks ∧ a.dev.twUp = true ∧
    a.dev.twin.roleAt = none ∧ epochHigher 128 1 = true ∧ epochHigher 129 1 = false ∧
    s.dev.twin.roleWait = true ∧ s.dev.isStandby = true ∧ h.dev.twin.roleWait = false ∧ h.dev.twin.handover = some 5 ∧
    h.dev.isActive = false ∧ h.dev.omode ≠ mShadow ∧ (twinOn { handover := some 5 } [(R.DEV_MODE.mode, mShadow)]).dev.omode = mShadow ∧
    l.dev.omode = mListen ∧ l.dev.net.hstate = .listen ∧ l.dev.linesOn = [] ∧ l.dev.twUp = true ∧ l.dev.twin.roleWait = false ∧
    (word a.dev.tick = 0) ∧ a.dev.easel.closed = false ∧ State.reset.dev.balls.presentN = true ∧
    p.dev.balls.presentN = false ∧ p.dev.twin.lost = false ∧ p.dev.fld R.TW_STAT.pmode ≠ mShadow ∧
    (twinOn {} [(R.TW_STAT.pmode, mShadow)]).dev.fld R.TW_STAT.pmode = mShadow := by decide +kernel

theorem meets_TwinLink :
    let s := twinOn { healthMiss := 2048, silent := 3, lost := false, timeOut := some (5, 0) } [(R.TW_STAT.hb, 1)]
    s.dev.twUp = true ∧ bit (0x100 : Word) 8 = true ∧ bit (0 : Word) 8 = false ∧ s.dev.time.numbered = true ∧
    s.dev.tick % 1024 = 0 ∧ s.dev.isTwin = true ∧ s.dev.flag R.TW_STAT.hb = true ∧ 2048 ≤ s.dev.twin.healthMiss ∧
    3 ≤ s.dev.twin.silent ∧ s.dev.twin.lost = false ∧ s.dev.twin.timeOut = some (5, 0) ∧ 5 ≠ s.dev.tick ∧
    (twinOn {} []).dev.twin.timeOut = none ∧ s.dev.flag R.TIM_STAT.leads = false ∧
    (twinOn {} [(R.TIM_STAT.leads, 1)]).dev.flag R.TIM_STAT.leads = true := by decide +kernel

/-! ## The hypotheses of the statements are met: records, traces, error correction -/

/-- A session of a host with all privileges. -/
def sess : Session := { priv := 3, sid := 9 }

/-- A device in a mode with that session as session 0. -/
def hostOn (mode : Nat) (x : Session) (l : List (Fld × Nat)) : State :=
  on { dv ([(R.DEV_MODE.mode, mode)] ++ l) with
    host := { sessions := [some x, none, none, none], stream := some 0, link := true, cfg := [1, 5, 0, 0, 0x00020001, 0] } }

theorem meets_RecordStream :
    let v := fun (v : VnSt) => on { (hostOn mRun sess [(R.VN_CFG.dgram, 1), (wholeReg R.VN_WIN.adr, 4096)]).dev with vn := v }
    let full := v { ofs := 64, ack := 0, next := 0, sent := 64 }
    let part := v { ofs := 63, mark := 63 }
    let n := full.dev.fld R.VN_CFG.dgram * 64
    let lim := full.dev.vn.ack + (full.dev.rd R.VN_WIN.adr).toNat
    full.dev.session? 0 = some sess ∧ full.dev.session? 3 = none ∧ full.dev.host.stream = some 0 ∧
    full.dev.flag R.VN_STAT.stall = false ∧ n = 64 ∧ full.dev.vn.next + n ≤ full.dev.vn.ofs ∧ full.dev.vn.next + n ≤ lim ∧
    part.dev.vn.ofs < part.dev.vn.next + n ∧ part.dev.vn.next < part.dev.vn.mark ∧ part.dev.vn.mark ≤ lim ∧
    full.dev.vn.ack < full.dev.vn.sent ∧ part.dev.vn.sent ≤ part.dev.vn.ack ∧ full.dev.vn.sent < 65 ∧
    (∀ i, i < 64 → full.dev.flipAt (memCode 2 ((full.dev.vn.next + i) % memSize 2)) = 0) ∧
    (hostOn mRun sess [(R.VN_STAT.stall, 1)]).dev.flag R.VN_STAT.stall = true := by decide +kernel

theorem meets_Sketchbook :
    let u := fun (st : Nat) (l : List (Fld × Nat)) => on { dv ([(R.SK_STAT.state 7, st)] ++ l) with time := { numbered := true } }
    let s := u uIdle [(R.SK_CFG.nch_m1 7, 0), (R.SK_LEN.rows_m1 7, 0), (R.SK_BASE.base 7, 524287)]
    (∀ st ∈ [uIdle, uArmed, uReady, uPost, uDone], (u st []).dev.fld (R.SK_STAT.state 7) = st) ∧
    s.dev.fld (R.SK_BASE.base 7) + (s.dev.fld (R.SK_CFG.nch_m1 7) + 1) * (s.dev.fld (R.SK_LEN.rows_m1 7) + 1) ≤ 524288 ∧
    s.dev.fld (R.SK_LEN.pre 7) < s.dev.fld (R.SK_LEN.rows_m1 7) + 1 ∧
    (∀ k, k < 8 → k ≠ 7 → s.dev.fld (R.SK_STAT.state k) = uIdle) ∧
    (u uIdle [(R.SK_BASE.base 7, 524287), (R.SK_LEN.rows_m1 7, 1)]).dev.fld (R.SK_BASE.base 7) + 1 * 2 > 524288 ∧
    s.dev.time.numbered = true ∧ s.dev.easel.closed = false ∧ s.dev.flipAt (memCode 3 (4 * 524287)) = 0 := by decide +kernel

theorem meets_ScrubbingAndErrorLog :
    let at_ := fun (p : Nat) (f : BitVec 13) => on { ecc := { scrubPos := p, flips := if f = 0 then [] else [(p + 31, f)], queue := [{}] } }
    let last := memCode 15 (0x40000 - 32)
    let bad := fun (s : State) (c : Nat) => eccCheck (storedBits (s.dev.byteAt c) ^^^ s.dev.flipAt c)
    memOfs 0 + 32 < memSize (memId 0) ∧ ¬ memOfs last + 32 < memSize (memId last) ∧ memId last = 15 ∧
    (at_ 0 0).dev.flipAt 31 = 0 ∧ (at_ 0 1).dev.flipAt 31 ≠ 0 ∧ bad (at_ 0 1) 31 = .corrected 0 ∧
    bad (at_ 0 3) 31 = .bad ∧ (∀ i, i < 31 → (at_ 0 1).dev.flipAt i = 0) ∧ bad (at_ last 3) (last + 31) = .bad ∧
    memId (last + 31) = 15 ∧ memId 31 ≠ 15 ∧ (at_ 0 0).dev.flag R.SF_STAT.lockout = false ∧
    (at_ 0 0).dev.ecc.queue = {} :: [] ∧ State.reset.dev.ecc.queue = [] ∧
    (on (dv [(R.DEV_MODE.mode, mService)])).dev.rmode = mService ∧ State.reset.dev.rmode ≠ mService ∧
    bits (0x8005003F : Word) 19 16 ≤ 14 ∧ bits (0x8005003F : Word) 15 0 < memSize 5 / 4096 ∧
    ¬ bits (0x80050080 : Word) 15 0 < memSize 5 / 4096 ∧ (∀ k, k < 64 → State.reset.dev.flag (R.ECC_RET.valid k) = false) := by
  decide +kernel

/-! ## The hypotheses of the statements are met: the host port -/

theorem meets_HostFrames :
    let s := hostOn mReady { sess with kept := [(4, ⟨0x86, 0, []⟩)] } []
    let f : HostFrame := { dst := 5, dstPort := 1, sid := 9, seq := 1, type := 0x06, req := 8 }
    s.dev.hostUp = true ∧ s.dev.host.link = true ∧ State.reset.dev.hostUp = false ∧ FrameAccepted s f ∧
    f.ver = 1 ∧ f.dstPort.toNat = bits (nthW s.dev.host.cfg 4) 15 0 ∧ bits (nthW s.dev.host.cfg 4) 31 16 = 2 ∧
    s.dev.session? 0 = some { sess with kept := [(4, ⟨0x86, 0, []⟩)] } ∧ sess.sid = f.sid ∧ sess.seqIn < f.seq ∧
    f.clean = true ∧ f.len = 4 * f.words.length ∧ s.dev.keptFor 0 f.req = none ∧ s.dev.keptFor 0 4 = some ⟨0x86, 0, []⟩ ∧
    s.dev.stillRuns 9 f.req = false ∧ nthW s.dev.host.cfg 1 = 5 ∧
    bits (nthW [0x00000001, 0, 0, 0, 0] 0) 31 16 = 0 ∧ s.dev.host.inbox = [] ∧ s.dev.omode ≠ mReset ∧ s.dev.omode ≠ mSelfTest ∧
    (shpTag sess.kIn 0x06 9 1 8 0 [] = shpTag sess.kIn 0x06 9 1 8 0 []) := by
  refine ⟨by decide +kernel, rfl, by decide +kernel, ?_, by decide +kernel⟩
  unfold FrameAccepted
  decide +kernel

/-- A frame that FrameAccepted does not take, and a tag that is not genuine. -/
theorem meets_HostFrames_not (t : List Byte) :
    ¬ FrameAccepted (hostOn mReady sess []) { dst := 6 } ∧ t ++ [0] ≠ t := by
  refine ⟨?_, ?_⟩
  · unfold FrameAccepted
    decide +kernel
  · intro h
    have := congrArg List.length h
    simp at this

/-- Key slot 1 provisioned with privilege 3; a challenge that waits; four sessions, one of them free. -/
theorem meets_Sessions :
    let keys : LcBank := { valid := true, keys := [{}, { prov := true, priv := 3 }] }
    let c : Challenge := { sid := 4 }
    let s := on { (hostOn mService sess []).dev with nv := { lc0 := keys } }
    let q := on { s.dev with host := { s.dev.host with challenges := [{ c with sid := 3 }, c] } }
    s.dev.hostUp = true ∧ (s.dev.keySlot 1).prov = true ∧ (s.dev.keySlot 7).prov = false ∧ s.dev.host.erasedBoot = false ∧
    s.dev.flag R.SEC_STAT.boot = false ∧ (s.dev.host.sessions.filter Option.isSome).length < 4 ∧ s.dev.rmode = mService ∧
    (s.dev.keySlot 1).priv = 3 ∧ (∀ x, x ∈ s.dev.host.sessions → x.all (fun y => y.kind != 1) = true) ∧
    s.dev.sidsUsed.length + 2 ≤ 2 ^ 32 ∧ q.dev.host.challenges = [{ c with sid := 3 }] ++ c :: [] ∧ c.sid = 4 ∧
    s.dev.helloWhy 1 0 = 0 ∧ s.dev.helloWhy 7 0 ≠ 0 ∧ q.dev.session? 0 = some sess ∧ q.dev.session? 3 = none ∧
    ({ sess with kind := 1 }).kind ≠ 0 ∧ HostOk s := by
  refine ⟨by decide +kernel, by decide +kernel, by decide +kernel, rfl, by decide +kernel, by decide +kernel, by decide +kernel,
    by decide +kernel, by decide +kernel, by decide +kernel, rfl, rfl, by decide +kernel, by decide +kernel, rfl, rfl, by decide, rfl⟩

theorem meets_HostRequests :
    let s := hostOn mReady sess []
    let g : WEntry := { addrOp := word (R.SF_ZONE_CFG.adr 0) ||| 1, value := 1, mask := 1 }
    let w : WEntry := { addrOp := word (R.AX_PLAUS.adr 5), value := 0, mask := 0xFFFFFFFF }
    let plain := fun (a : Nat) => (locate a).map (fun r => decide (r.row.name ∉ [RegName.TIM_NOW_LO, .TIM_NOW_HI,
      .VN_OFS_LO, .VN_OFS_HI, .VN_ACK_LO, .VN_ACK_HI, .BR_PM_DATA, .SK_RD_DATA]))
    s.dev.session? 0 = some sess ∧ s.dev.keptFor 0 5 = none ∧ s.dev.stillRuns 9 5 = false ∧
    (hostOn mReady { sess with kept := [(5, {})] } []).dev.keptFor 0 5 = some {} ∧
    rangeAddrs [(0xA1000, 2)] = [0xA1000, 0xA1004] ∧ bits (0xA1000 : Word) 1 0 = 0 ∧ plain 0xA1000 = some true ∧
    locate 0xFFFFC = none ∧ windowCode 0xFFFFC = none ∧ sess.kind ≠ 2 ∧
    g.op = 1 ∧ w.op = 0 ∧ plain g.adr = some true ∧ plain w.adr = some true ∧ w.adr = R.AX_PLAUS.adr 5 ∧
    s.dev.writeWhy 0 [g, w] = 0 ∧ s.dev.writeWhy 0 [] = 1 ∧ 2 < (hostOn mLoad sess []).dev.writeWhy 0 [w] ∧
    s.dev.rd g.adr &&& g.mask ≠ g.value ∧ (s.dev.rd g.adr &&& 0 = 0) ∧
    (R.AX_PLAUS.n 5).get (merge (s.dev.rd w.adr) 0 (0xFFFFFFFF &&& accMask w.adr .RW)) = 0 ∧
    (R.AX_PLAUS.n 5).get (merge (s.dev.rd w.adr) 0xFFFFFFFF (0xFFFFFFFF &&& accMask w.adr .RW)) ≠ 0 ∧
    s.dev.writeWhy 0 [⟨word (R.AX_LIM.adr 127), 1, 1⟩] = 0 ∧ bits (word (R.AX_LIM.adr 127)) 1 0 = 0 ∧
    (word (R.AX_LIM.adr 127)).toNat = R.AX_LIM.adr 127 ∧ (word (R.AX_PRF_EVT.adr 127)).toNat = R.AX_PRF_EVT.adr 127 ∧
    (word R.DEV_MODE.adr).toNat = R.DEV_MODE.adr := by decide +kernel

theorem meets_HostRequests_running :
    let s := on { (hostOn mReady sess []).dev with store := { job := some { sid := 9, req := 5 } } }
    s.dev.session? 0 = some sess ∧ s.dev.keptFor 0 5 = none ∧ s.dev.stillRuns 9 5 = true := by decide +kernel

theorem meets_ConfigurationWrites :
    let s := fun (m : Nat) => hostOn m sess []
    (s mReady).dev.writeWhy 0 [⟨word (R.ML_CFG.adr 7), 1, 1⟩] = 0 ∧ (word (R.ML_CFG.adr 7)).toNat = R.ML_CFG.adr 7 ∧
    (word R.BR_CFG.adr).toNat = R.BR_CFG.adr ∧ (s mService).dev.writeWhy 0 [⟨word R.BR_CFG.adr, 0, 1⟩] = 0 ∧
    (s mLoad).dev.rmode = mLoad ∧ (s mService).dev.rmode = mService ∧ (s mReady).dev.rmode ≠ mLoad ∧
    (s mReady).dev.rmode ≠ mService := by decide +kernel

theorem meets_StoreAndLimitedChange :
    let s := hostOn mReady sess []
    let m := hostOn mService { sess with kind := 1 } []
    let job := fun (c : Bool) => on { m.dev with store := { job := some { commit := c, taken := true, sid := 9 } } }
    s.dev.rmode = mReady ∧ s.dev.store.job = none ∧ (m.dev.session? 0).map (fun x => x.kind) = some 1 ∧
    m.dev.mode.erasing = false ∧ m.dev.nv.clog.length + m.dev.changedSettings.length ≤ 1024 ∧
    ({ bank0 := { valid := true } } : NvSt).bankNo = some 0 ∧ ({ bank1 := { valid := true } } : NvSt).bankNo = some 1 ∧
    ({} : NvSt).bankNo = none ∧ ({ lc0 := { valid := true } } : NvSt).lcNo = 0 ∧ ({ lc1 := { valid := true } } : NvSt).lcNo = 1 ∧
    (on { m.dev with store := { stRegs := [(R.TW_PAIR.adr, 7)] } }).dev.changedSettings = [3] ∧
    nth m.dev.lc.lifeKeys 7 ≠ 0 ∧ (job false).dev.store.job.map (fun j => (j.commit, j.taken)) = some (false, true) ∧
    (job true).dev.store.job.map (fun j => j.commit) = some true ∧ ({ lifeKeys := [0] } : LcBank).lifeKeys = [0] := by decide +kernel

/-- A wrapped key that is not 0 when unwrapped, and one that is. -/
theorem meets_StoreAndLimitedChange_keys :
    let pad := hmac [] (ascii "KEY" ++ natBytes 1 7 ++ natBytes 1 0)
    (∃ b ∈ (List.replicate 32 (0 : Byte)).zipWith (fun (a b : Byte) => a ^^^ b) pad, b ≠ 0) ∧
    (∀ b ∈ pad.zipWith (fun (a b : Byte) => a ^^^ b) pad, b = 0) := by decide +kernel

theorem meets_SecurityTrips :
    let s := hostOn mService sess [(wholeReg R.SEC_ACT.adr, 0x39)]
    let act := fun (c : Nat) => (s.dev.rd R.SEC_ACT.adr).toNat / 4 ^ c % 4
    s.dev.omode ≠ mReset ∧ State.reset.dev.omode = mReset ∧ act 0 = 1 ∧ act 1 = 2 ∧ act 2 = 3 ∧ act 3 = 0 ∧
    s.dev.rmode = mService ∧ s.dev.session? 0 = some sess ∧ sess.priv = 3 ∧ s.dev.session? 3 = none ∧
    s.dev.balls.tamperN = true ∧ ({ tamperN := false } : Balls).tamperN = false := by decide +kernel

/-! ## The hypotheses of the statements are met: modes and start-up -/

theorem meets_ModeCommands :
    (∀ m ∈ [mLoad, mListen, mShadow, mReady, mRun, mHold, mStop, mLockout, mService, mAlarm],
      let s := hostOn m sess []
      s.dev.session? 0 = some sess ∧ s.dev.keptFor 0 5 = none ∧ s.dev.stillRuns 9 5 = false ∧ s.dev.omode = m) ∧
    (let s := hostOn mService sess []
     s.dev.axesIdle = true ∧ s.dev.store.job = none ∧ (∀ r, r < 64 → s.dev.rstate r = sIdle) ∧
     (s.dev.touch 0).failedChecks = [] ∧ s.dev.flag R.DEV_STAT.rst_pend = false ∧ s.dev.host.erasedBoot = false ∧
     s.dev.flag R.SEC_STAT.erased = false ∧ s.dev.balls = {} ∧ s.dev.failuresNow.length < s.dev.fld R.SEC_AUTH.lim ∧
     s.dev.saf.mons = []) ∧
    (hostOn mRun sess [(R.AX_CFG.kind 0, 1), (R.AX_STATE.astate 0, aEnabled)]).dev.axesIdle = false ∧
    sess.kind ≠ 2 ∧ ({ sess with priv := 0 }).priv < 1 ∧ ¬ sess.priv < 2 := by decide +kernel

/-- P-256's base point as a public key, with a signature of the digest 0 under the private key 1. -/
def baseKey : List Byte := natBytesBE 32 p256G.1 ++ natBytesBE 32 p256G.2
def baseSig : List Byte := natBytesBE 32 p256G.1 ++ natBytesBE 32 p256G.1

theorem meets_StartUp :
    let s := fun (m : Nat) => on { dv [(R.DEV_MODE.mode, m)] with nv := { lc0 := { valid := true, keys := [{ prov := true, key := sha256 baseKey }] } } }
    let w := on { (s mRun).dev with time := { numbered := true, tick := 9 }, twin := { present := some 7 } }
    (s mSelfTest).dev.omode = mSelfTest ∧ (s mSelfTest).dev.flag R.DEV_STAT.halt = false ∧ (s mReset).dev.omode = mReset ∧
    (s mLoad).dev.omode = mLoad ∧ (s mLoad).dev.flag R.DEV_STAT.halt = false ∧ w.dev.twin.present = some 7 ∧ 7 + 2 ≤ w.dev.tick ∧
    w.dev.omode ≠ mReset ∧ sha256 baseKey = ((s mLoad).dev.keySlot 0).key ∧
    (State.reset.dev.nv.lc0.keys.getD 0 {}).prov = false ∧
    ecdsaVerify baseKey (List.replicate 32 0) baseSig = true ∧ ecdsaVerify baseKey (List.replicate 32 0) [] = false := by
  refine ⟨by decide +kernel, by decide +kernel, by decide +kernel, by decide +kernel, by decide +kernel, rfl, by decide +kernel,
    by decide +kernel, rfl, rfl, by decide +kernel, by decide +kernel⟩

theorem foldl_fixed {α β : Type} (f : α → β → α) (d : α) (h : ∀ b, f d b = d) : ∀ l : List β, l.foldl f d = d
  | [] => rfl
  | b :: t => by rw [List.foldl_cons, h b]; exact foldl_fixed f d h t

/-- Without a valid settings bank the overlay changes nothing. -/
theorem overlay_none (d : Dev) (h1 : d.settings? = none) (h2 : RegsOk d) : d.overlay = d :=
  foldl_fixed (fun (d : Dev) (a : Nat) => d.wr a (d.stored a (d.rd a))) d (fun a => by
    simp only [Dev.stored, h1, Option.bind_none]
    exact Dev.wr_rd d a h2) rwsRegs

/-- An image that changes nothing passes the checks of Load; one with a false body does not. -/
theorem meets_StartUp_image :
    let d := dv [(R.DEV_MODE.mode, mLoad), (R.NV_STAT.none, 1)]
    let u := fun (img : LoadImage) => ((d.updTime (fun z => { (z) with clock := z.clock + img.ms * 1000000 })).set R.DEV_START.load_ms
        (satN 12 img.ms)).setB R.DEV_STAT.slow (img.flashOk && img.slow)
    let p := ((u {}).imageFacts {}).placeAll []
    let kept := p.1.updStore (fun z => { (z) with image := p.1.regs })
    let e := ((kept.setB R.NV_STAT.img_chg (kept.settings?.any (fun b => b.hash != 0))).overlay).scanJournal
    p.2 = none ∧ e.failedChecks = [] ∧ ({} : LoadImage).bodyOk = true ∧ ({ bodyOk := false } : LoadImage).bodyOk = false := by
  intro d u p kept e
  have h : e = (kept.setB R.NV_STAT.img_chg (kept.settings?.any (fun b => b.hash != 0))).scanJournal := by
    simp only [e]
    rw [overlay_none _ (by decide +kernel) (by unfold RegsOk; decide +kernel)]
  rw [h]
  decide +kernel

/-! ## What WellFormed refuses: one ill-formed command for each check -/

/-- Stations are numbered from 1; registers, conditions and displacements keep to their tables
(R76, R247, R248). -/
theorem test_ill_formed_operands :
    (Instr.tickInstant [{ addr := 0 }]).wellFormed = false ∧
    (Instr.tickInstant [{ addr := 256 }]).wellFormed = false ∧
    (Instr.ldd 0 ⟨0, 0, 1⟩ 0).wellFormed = false ∧ (Instr.std 0 ⟨0, 1, 1⟩ 0).wellFormed = false ∧
    (Instr.ldh 0 ⟨0, 2, 1⟩ 0 0).wellFormed = false ∧ (Instr.sth 0 ⟨0, 0, 1⟩ 0 0).wellFormed = false ∧
    (Instr.ldbh 0 ⟨0, 1, 8⟩ 0).wellFormed = false ∧ (Instr.ldg 0 ⟨0, 0, 4⟩ 0).wellFormed = false ∧
    (Instr.stg 0 ⟨0, 1, 4⟩ 0).wellFormed = false ∧ (Instr.lda 0 ⟨0, 2, 2⟩ 0).wellFormed = false ∧
    (Instr.sta 0 ⟨0, 0, 2⟩ 0 0).wellFormed = false ∧ (Instr.ldx 0 ⟨0, 0, 8⟩ 0).wellFormed = false ∧
    (Instr.stx 0 ⟨0, 1, 8⟩ 0).wellFormed = false ∧ (Instr.ldd 0 ⟨0, 3, 1⟩ 0).wellFormed = true ∧
    (Instr.movs 0 0 37).wellFormed = false ∧ (Instr.movs 0 0 36).wellFormed = true ∧
    (Instr.movp 0 0 32).wellFormed = false ∧ (Instr.b 0 9 0).wellFormed = false ∧
    (Instr.b 0 8 0).wellFormed = true := by decide +kernel

/-- A segment names its length and a station (R76); the fields of a frame fit their bits (R72, R77, R115). -/
theorem test_ill_formed_frames :
    (Instr.feedbackSegmentRx 0 { hdr := 0x00020001, words := [0] } 0 false).wellFormed = false ∧
    (Instr.feedbackSegmentRx 0 { hdr := 0x00010000, words := [0] } 0 false).wellFormed = false ∧
    (Instr.feedbackSegmentRx 0 { hdr := 0x00010001, words := [0] } 0 false).wellFormed = true ∧
    (Instr.relay 0 { hdr := 0x00000001, words := [0] } 0).wellFormed = false ∧
    (Instr.cycRx 0 { hdr := { origin := 2 } } 0 0).wellFormed = false ∧
    (Instr.cycRx 0 { hdr := { epoch := 256 } } 0 0).wellFormed = false ∧
    (Instr.cycRx 0 { hdr := { corr := 0x1000000 } } 0 0).wellFormed = false ∧
    (Instr.cycRx 0 { head := { tgt := 16 } } 0 0).wellFormed = false ∧
    (Instr.cycRx 0 { head := { sched := 16 } } 0 0).wellFormed = false ∧
    (Instr.cycRx 0 { head := { reint := 256 } } 0 0).wellFormed = false ∧
    (Instr.cycRx 0 { head := { applyOfs := 262144 } } 0 0).wellFormed = false ∧
    (Instr.cycRx 0 { cmds := [{ hdr := 0x00010001 }] } 0 0).wellFormed = false ∧
    (Instr.cycRx 0 { fbs := [{ hdr := 0x00000000 }] } 0 0).wellFormed = false ∧
    (Instr.cycRx 0 {} 0 0).wellFormed = true ∧
    (Instr.cstRx 0 { tickNs := 262144 }).wellFormed = false ∧
    (Instr.cstRx 0 { initSched := 16 }).wellFormed = false ∧
    (Instr.cstRx 0 { phase := 2 }).wellFormed = false ∧
    (Instr.almRx 0 { addr := 0 } 0 0).wellFormed = false ∧
    (Instr.almRx 0 { addr := 256 } 0 0).wellFormed = false ∧
    (Instr.almRx 0 { addr := 1, code := 256 } 0 0).wellFormed = false ∧
    (Instr.safetyPduRx 0 [1, 2, 3]).wellFormed = false := by decide +kernel

/-- No command acts on a station 0; a station's words have the lengths that its rows give (R154, R443). -/
theorem test_ill_formed_stations :
    (Instr.mbxRequest 0 0).wellFormed = false ∧ (Instr.readId 0 0 1).wellFormed = false ∧
    (Instr.readId 1 0 65536).wellFormed = false ∧ (Instr.writeCfg 0 0 []).wellFormed = false ∧
    (Instr.commitCfg 0 0 0).wellFormed = false ∧ (Instr.commitCfg 1 65536 0).wellFormed = false ∧
    (Instr.readCfg 0 0 0).wellFormed = false ∧ (Instr.readCfg 1 0 65536).wellFormed = false ∧
    (Instr.readDiag 0 0 0).wellFormed = false ∧ (Instr.readDiag 1 0 65536).wellFormed = false ∧
    (Instr.dropCfg 0 0).wellFormed = false ∧ (Instr.dropCfg 1 65536).wellFormed = false ∧
    (Instr.windowsReenable 0).wellFormed = false ∧ (Instr.stReint 0).wellFormed = false ∧
    (Instr.stWinEn 0).wellFormed = false ∧ (Instr.stCntClr 0).wellFormed = false ∧
    (Instr.stationCycRx 0 0 {} 0 0 0).wellFormed = false ∧
    (Instr.stationCycRx 1 0 { hdr := { origin := 2 } } 0 0 0).wellFormed = false ∧
    (Instr.stationCstRx 0 0 {} 0).wellFormed = false ∧
    (Instr.stationCstRx 1 0 { phase := 2 } 0).wellFormed = false ∧
    (Instr.stationApplyDeadline 0).wellFormed = false ∧ (Instr.stationApply 0).wellFormed = false ∧
    (Instr.stationAlarmSlot 0).wellFormed = false ∧ (Instr.timedOutputFire 0 1).wellFormed = false ∧
    (Instr.timedOutputFire 1 0).wellFormed = false ∧ (Instr.stationPduEval 0 0 0 [0, 0, 0, 0]).wellFormed = false ∧
    (Instr.stationPduEval 1 0 0 [0, 0, 0]).wellFormed = false ∧
    (Instr.stationPowerUp 0 false (List.replicate 16 0)).wellFormed = false ∧
    (Instr.stationPowerUp 1 false [0]).wellFormed = false ∧ (Instr.configurationLost 0 0).wellFormed = false ∧
    (Instr.actionTo 0 0 0 0 1).wellFormed = false ∧ (Instr.actionTo 0 1 0 0 0).wellFormed = false := by decide +kernel

/-- Messages of the twin link and of the host keep to the lengths of their rows (R543, R547, R549). -/
theorem test_ill_formed_messages :
    (Instr.copy 0 (List.replicate 1025 0) false 0 none).wellFormed = false ∧
    (Instr.rsync 0 (List.replicate 4097 0) false).wellFormed = false ∧
    (Instr.streamAck 0 0 4095).wellFormed = false ∧ (Instr.streamAck 0 0 4096).wellFormed = true ∧
    (Instr.hello 0 0 [0] 0 0).wellFormed = false ∧ (Instr.auth 0 0 [] [] []).wellFormed = false ∧
    (Instr.read 0 0 []).wellFormed = false ∧ (Instr.read 0 0 (List.replicate 17 (0, 1))).wellFormed = false ∧
    (Instr.read 0 0 [(0, 257)]).wellFormed = false ∧ (Instr.read 0 0 [(0, 256)]).wellFormed = true ∧
    (Instr.write 0 0 []).wellFormed = false ∧ (Instr.write 0 0 (List.replicate 65 {})).wellFormed = false ∧
    (Instr.write 0 0 [{ addrOp := 2 }]).wellFormed = false ∧ (Instr.provision 0 0 0 0 [0]).wellFormed = false ∧
    (Instr.registerWrite (.session 0) 2 0 0).wellFormed = false := by decide +kernel

/-! ## Single steps and worked examples -/

/-- The outcome is a next state of which a test holds. -/
def nextIs (o : Host.Outcome State Fault Refusal) (f : State → Bool) : Bool :=
  match o with
  | .next t => f t
  | _ => false

/-- Chapter 02's example: 0x0000_1000 lies 8,192 ns after 0xFFFF_F000 (R44, R45). -/
theorem test_time_wraps : laterWord 0x00001000 0xFFFFF000 = true ∧ laterWord 0xFFFFF000 0x00001000 = false ∧
    extendTime 0x1FFFFF000 0x00001000 = 0x1FFFFF000 + 8192 := by decide +kernel

/-- The check values that the published parameter tables give for the bytes of 123456789 (R73, R74). -/
theorem test_crc_check_values :
    crc32 [0x31, 0x32, 0x33, 0x34, 0x35, 0x36, 0x37, 0x38, 0x39] = 0xCBF43926 ∧
    crc32c 0xFFFFFFFF [0x31, 0x32, 0x33, 0x34, 0x35, 0x36, 0x37, 0x38, 0x39] = 0xE3069283 := by decide +kernel

/-- The digest of the three bytes abc, as the standard of the hash prints it (R552). -/
theorem test_sha256_abc : bytesNatBE (sha256 [0x61, 0x62, 0x63]) =
    0xBA7816BF8F01CFEA414140DE5DAE2223B00361A396177A9CB410FF61F20015AD := by decide +kernel

/-- Chapter 03's switch-over example: units A and B as station 1 sees them in ticks n, n + 1 and n + 3 (R87, R88). -/
theorem test_station_selects :
    selectCand [{ origin := 0, act := true, epoch := 6 }, { origin := 1, epoch := 6 }] =
      some { origin := 0, act := true, epoch := 6 } ∧
    selectCand [{ origin := 0, act := true, epoch := 6 }, { origin := 1, act := true, epoch := 7 }] =
      some { origin := 1, act := true, epoch := 7 } ∧
    selectCand [{ origin := 0, epoch := 7 }, { origin := 1, act := true, epoch := 7 }] =
      some { origin := 1, act := true, epoch := 7 } ∧
    epochHigher 0 255 = true ∧ epochHigher 255 0 = false := by decide +kernel

/-- Chapter 07's example: the 128th MACS of 4.0 overflows ACC0, sets hold and aov, and a further one leaves it
as it is (R229, R234, R235). -/
theorem test_macs_holds :
    let g : BrEng := { acc := (Vector.replicate 4 0).set 0 (BitVec.ofInt 40 (127 * 2 ^ 32)),
                       d := Vector.replicate 8 0x8000800080008000 }
    let f : LaneOp := { a := 0, m := 0xF, x := 0, y := 1 }
    let g1 := g.addAcc f.a (g.productSum f)
    let g2 := g1.addAcc f.a (g1.productSum f)
    g.productSum f = 2 ^ 32 ∧ g1.acc.get 0 = 0x7FFFFFFFFF ∧ g1.srBit 0 = true ∧ g1.srBit 4 = true ∧
    g2.acc.get 0 = 0x7FFFFFFFFF := by decide +kernel

/-- VADD saturates a lane, leaves the lanes that the mask leaves out, and sets sov (R231). -/
theorem test_vadd_saturates :
    nextIs (exec (.vadd 1 { d := 2, x := 0, y := 1, m := 0x1 })
        (engB { d := (Vector.replicate 8 0x0003000300037FFF).set 2 0x1111222233334444 }))
      (fun t => (t.dev.eng 1).d.get 2 == 0x1111222233337FFF && (t.dev.eng 1).srBit 5) := by decide +kernel

/-- Chapter 09's plan of 40 rev: 0.5 s, 0.3 s and 0.5 s (R311). -/
theorem test_move_plan :
    ((movePlan 40 0 100 100 50 150 false).segs.map (fun g => (g.dur, g.acc))) =
      [(some (1 / 2), 100), (some (3 / 10), 0), (some (1 / 2), -100)] := by decide +kernel

/-- The same example's writes at 30 rev/s with 4.5 rev to go (R312, R313, R314). -/
theorem test_move_plan_braking :
    ((movePlan (9 / 2) 30 100 150 50 150 true).segs.map (fun g => (g.dur, g.acc))) =
      [(some (1 / 20), 0), (some (1 / 5), -150)] ∧
    (let p := movePlan (9 / 2) 30 100 50 50 150 true
     p.segs.map (fun g => (g.dur, g.acc)) = [(some (3 / 10), -100)] ∧ p.ovr = true ∧ p.pass = false) ∧
    (let p := movePlan (9 / 2) 30 100 50 50 50 true
     p.segs.map (fun g => (g.dur, g.acc)) = [(some (3 / 5), -50)] ∧ p.pass = true) := by decide +kernel

/-- Chapter 09's stepper points of axis 6 (R323, R324). -/
theorem test_stepper_points :
    let d := dv [(R.AX_STP_CFG.ecyc 6, 50), (R.AX_STP_CFG.ustep_log2 6, 8)]
    let t : List (BitVec 16) := (((List.replicate 257 0).set 144 25329).set 112 20787).set 148 25832 |>.set 108 20159
    let d : Dev := { d with mode := { d.mode with tables := [(0, t)] } }
    d.stpPoint 6 (4198938 / 5000) 7864 = 0xE841EC83 ∧ d.stpPoint 6 (4224538 / 5000) 7864 = 0xE7C8ED1A := by decide +kernel

/-- The device leaves reset in Self-test, unit B where its role pin says so (R570). -/
theorem test_reset_release :
    nextIs (step { State.reset with pending := [.resetRelease true true true] })
      (fun t => t.dev.omode == mSelfTest && t.dev.fld R.TW_STAT.unit == 1 && t.pending == []) := by decide +kernel

/-- A command whose event the mode does not have changes nothing but the queue (R570). -/
theorem test_reset_release_later :
    nextIs (step { on (dv [(R.DEV_MODE.mode, mService)]) with pending := [.resetRelease true true false] })
      (fun t => t.dev.omode == mService && t.pending == []) := by decide +kernel

end Sys2Proof.Tests
end

section
/-! PROOFS. The state right after reset, and registers and memory as they hold what is written (O7, O8). -/

namespace Sys2Proof

open Machine

/-! ## Reset -/

/-- Settles O7: right after reset every store is empty, so each register reads its Reset word. -/
theorem resetStateAndValues : Obligations.ResetStateAndValues := by
  have hstations : StationsOk State.reset := ⟨List.Pairwise.nil, fun _ h => nomatch h⟩
  have htos : TosOk State.reset := fun _ h => nomatch h
  have hvalues : State.reset.dev.fld R.TIM_TICK.tick_ns = 31250 ∧
      State.reset.dev.fld R.TIM_TX_OFS.tx_ofs_ns = 2000 ∧ State.reset.dev.omode = mReset ∧
      State.reset.pending = [] ∧ State.reset.dev.rd R.BR_CFG.adr = 1 ∧
      State.reset.dev.rd R.TIM_TICK_OUT.adr = 1000 := by decide +kernel
  exact ⟨⟨Sparse.wf_nil _, Sparse.wf_nil _, hstations, htos⟩, fun a => Sparse.get_nil _ a, hvalues⟩

/-! ## Registers and memory -/

/-- Bytes of a range written are what the range then holds. -/
theorem Machine.Dev.peek_putBytes (bs : List Byte) :
    ∀ (d : Dev) (c : Nat), (d.putBytes c bs).peek c bs.length = bs := by
  induction bs with
  | nil => intro d c; rfl
  | cons b t ih =>
    intro d c
    have hhead : ((d.putByte c b).putBytes (c + 1) t).byteAt c = b := by
      rw [Dev.byteAt_putBytes_other t _ _ _ (.inl (Nat.lt_succ_self c)), Dev.byteAt_putByte, if_pos rfl]
    rw [Dev.putBytes, List.length_cons, Dev.peek, hhead, ih]

/-- Settles O8, from the laws of sparse stores and of fields of words. -/
theorem registersAndMemoryHoldWhatIsWritten : Obligations.RegistersAndMemoryHoldWhatIsWritten := by
  intro d
  refine ⟨d.rd_wr, d.fld_set_self, ?_, fun c bs => Dev.peek_putBytes bs d c,
    fun c j bs => Dev.byteAt_putBytes_other bs d c j, fun h a w => Sparse.wf_put _ _ a w h,
    fun h c bs => Memory.wf_putBytes bs d c h, fun h q c n => Memory.wf_readBytes q n d c h⟩
  intro f g v hfits hapart
  exact d.fld_set_other f g v (hapart.imp_right fun h => ⟨hfits, h⟩)

end Sys2Proof
end

section
/-! PROOFS. Sessions of the host port: what a message that has just arrived, a response and the rule that a
request is executed once leave of the device (R536, R541, R543). -/

namespace Sys2Proof.Machine

/-! ## Sessions -/

theorem Dev.session?_updSession (d : Dev) (k j : Nat) (g : Session → Session) :
    (d.updSession k g).session? j = if j = k then (d.session? k).map g else d.session? j := by
  simp only [Dev.session?, Dev.updSession, Dev.updHost, setNth, List.getD_eq_getElem?_getD, List.getElem?_set]
  by_cases hj : j = k
  · subst hj
    by_cases hlt : j < d.host.sessions.length
    · simp [hlt]
    · simp [hlt]
  · simp [hj, Ne.symm hj]

/-- Where no session is open there is none to change. -/
theorem Dev.updSession_of_none {d : Dev} {k : Nat} (g : Session → Session) (h : d.session? k = none) :
    d.updSession k g = d := by
  have hset : d.host.sessions.set k none = d.host.sessions := by
    apply List.ext_getElem? fun i => ?_
    rw [List.getElem?_set]
    split
    · rename_i hi
      subst hi
      split
      · rename_i hlt
        simpa [Dev.session?, List.getD_eq_getElem?_getD, List.getElem?_eq_getElem hlt, eq_comm] using h
      · rename_i hlt
        exact (List.getElem?_eq_none (Nat.le_of_not_lt hlt)).symm
    · rfl
  have hnone : d.host.sessions.getD k none = none := h
  simp only [Dev.updSession, Dev.updHost, setNth, hnone, Option.map_none, hset]

theorem Dev.session?_touch (d : Dev) (k j : Nat) : (d.touch k).session? j =
    if j = k then (d.session? k).map (fun x => { x with last := d.time.clock }) else d.session? j :=
  d.session?_updSession ..

theorem Dev.touch_of_none {d : Dev} {k : Nat} (h : d.session? k = none) : d.touch k = d :=
  Dev.updSession_of_none _ h

/-- A message that arrives leaves the responses that its session keeps. -/
theorem Dev.keptFor_touch (d : Dev) (k : Nat) (req : Word) : (d.touch k).keptFor k req = d.keptFor k req := by
  unfold Dev.keptFor
  rw [d.session?_touch, if_pos rfl]
  cases d.session? k <;> rfl

/-! ## What is sent -/

theorem Dev.session?_emit (d : Dev) (o : Out) (j : Nat) : (d.emit o).session? j = d.session? j := rfl

/-- A message goes out under the next seq of its session, and nothing else differs. -/
theorem Dev.shpSend_eq {d : Dev} {k : Nat} {x : Session} (h : d.session? k = some x) (type : Nat) (req : Word)
    (r : Response) (dst : Word) (port : BitVec 16) : d.shpSend k type req r dst port =
      (d.updSession k (fun x => { x with seqOut := x.seqOut + 1 })).emit (sentTo x type req r dst port) := by
  have hx : d.host.sessions.getD k none = some x := h
  simp only [Dev.shpSend, h, Dev.updSession, Dev.updHost, hx, Option.map_some]
  rfl

/-- A response is sent to the source of the request and kept with the last 16, and nothing else differs. -/
theorem Dev.respond_eq {d : Dev} {k : Nat} {x : Session} (h : d.session? k = some x) (req : Word) (r : Response) :
    d.respond k req r =
      ((d.updSession k (fun x => { x with seqOut := x.seqOut + 1 })).emit
        (sentTo x r.type req r x.srcAddr x.srcPort)).updSession k (fun x => { x with
          kept := ((req, r) :: x.kept.filter (fun p => p.1 ≠ req)).take 16 }) := by
  simp only [Dev.respond, h, Dev.shpSend_eq h]

theorem Dev.session?_respond {d : Dev} {k : Nat} {x : Session} (h : d.session? k = some x) (req : Word)
    (r : Response) (j : Nat) : (d.respond k req r).session? j = if j = k then some { (x) with
      seqOut := x.seqOut + 1, kept := ((req, r) :: x.kept.filter (fun p => p.1 ≠ req)).take 16 }
      else d.session? j := by
  simp only [Dev.respond_eq h, Dev.session?_updSession, Dev.session?_emit, h]
  by_cases hj : j = k <;> simp [hj]

/-! ## Requests are executed once -/

theorem Dev.once_of_none {d : Dev} {k : Nat} (h : d.session? k = none) (req : Word) (g : Dev → Dev) :
    d.once k req g = d := by simp only [Dev.once, h]

theorem Dev.once_of_kept {d : Dev} {k : Nat} {req : Word} {x : Session} {r : Response} (h : d.session? k = some x)
    (hkept : d.keptFor k req = some r) (g : Dev → Dev) :
    d.once k req g = d.shpSend k r.type req r x.srcAddr x.srcPort := by simp only [Dev.once, h, hkept]

theorem Dev.once_of_running {d : Dev} {k : Nat} {req : Word} {x : Session} (h : d.session? k = some x)
    (hkept : d.keptFor k req = none) (hruns : d.stillRuns x.sid req = true) (g : Dev → Dev) :
    d.once k req g = d := by simp only [Dev.once, h, hkept, hruns, if_true]

theorem Dev.once_of_fresh {d : Dev} {k : Nat} {req : Word} {x : Session} (h : d.session? k = some x)
    (hkept : d.keptFor k req = none) (hruns : d.stillRuns x.sid req = false) (g : Dev → Dev) :
    d.once k req g = g d := by simp [Dev.once, h, hkept, hruns]

end Sys2Proof.Machine

namespace Sys2Proof

open Machine

/-! ## A request as a command: touch, then once -/

theorem session?_touch_self {s : State} {k : Nat} {x : Session} (h : s.dev.session? k = some x) :
    (s.dev.touch k).session? k = some (touched s x) := by
  rw [Dev.session?_touch, if_pos rfl, h]
  rfl

theorem modeRow_eq (k : Nat) (req : Word) (g : Dev → Dev) (s : State) :
    modeRow k req g s = .next { s with dev := (s.dev.touch k).once k req g } := rfl

/-- Without its session a request does nothing. -/
theorem modeRow_of_none {s : State} {k : Nat} (h : s.dev.session? k = none) (req : Word) (g : Dev → Dev) :
    modeRow k req g s = .next s := by
  rw [modeRow_eq, Dev.touch_of_none h, Dev.once_of_none h]

/-- A request whose response is kept gets that response again, and is not executed. -/
theorem modeRow_of_kept {s : State} {k : Nat} {req : Word} {x : Session} {r : Response}
    (h : s.dev.session? k = some x) (hkept : s.dev.keptFor k req = some r) (g : Dev → Dev) :
    modeRow k req g s =
      .next { s with dev := (s.dev.touch k).shpSend k r.type req r x.srcAddr x.srcPort } := by
  rw [modeRow_eq, Dev.once_of_kept (session?_touch_self h) (by rw [Dev.keptFor_touch, hkept])]
  rfl

/-- A STORE or COMMIT_LC that runs is not begun anew. -/
theorem modeRow_of_running {s : State} {k : Nat} {req : Word} {x : Session} (h : s.dev.session? k = some x)
    (hkept : s.dev.keptFor k req = none) (hruns : s.dev.stillRuns x.sid req = true) (g : Dev → Dev) :
    modeRow k req g s = .next { s with dev := s.dev.touch k } := by
  rw [modeRow_eq, Dev.once_of_running (session?_touch_self h) (by rw [Dev.keptFor_touch, hkept]) hruns]

/-- A request that its session has not made before is executed. -/
theorem modeRow_of_fresh {s : State} {k : Nat} {req : Word} {x : Session} (h : FreshRequest s k req x)
    (g : Dev → Dev) : modeRow k req g s = .next { s with dev := g (s.dev.touch k) } := by
  obtain ⟨hsess, hkept, hruns⟩ := h
  rw [modeRow_eq, Dev.once_of_fresh (session?_touch_self hsess) (by rw [Dev.keptFor_touch, hkept]) hruns]

/-- The commands that are requests of a session. -/
def IsRequest (c : Instr) (k : Fin 4) (req : Word) : Prop :=
  (c = .ping k ∧ req = 0) ∨ (∃ rs, c = .read k req rs) ∨ (∃ es, c = .write k req es) ∨ c = .store k req ∨
  c = .commitLc k req ∨ c = .discardLc k req ∨ (∃ a p w, c = .provision k req a p w) ∨ c = .goRun k req ∨
  c = .goHold k req ∨ c = .goResume k req ∨ c = .goReady k req ∨ c = .goStop k req ∨ c = .goService k req ∨
  c = .svcExit k req ∨ c = .restart k req ∨ c = .alarmExit k req ∨ c = .reset k req

/-- Every request is executed once: its meaning is an act of its own under `modeRow`. -/
theorem IsRequest.exec_eq_modeRow {c : Instr} {k : Fin 4} {req : Word} (h : IsRequest c k req) :
    ∃ g, ∀ s, exec c s = modeRow k req g s := by
  rcases h with ⟨rfl, rfl⟩ | ⟨rs, rfl⟩ | ⟨es, rfl⟩ | rfl | rfl | rfl | ⟨a, p, w, rfl⟩ | rfl | rfl | rfl | rfl |
    rfl | rfl | rfl | rfl | rfl | rfl <;> exact ⟨_, fun _ => rfl⟩

/-- A response that is kept goes out again under a new seq, and nothing else but the session differs. -/
theorem shpSend_again {s : State} {k : Nat} {x : Session} (h : s.dev.session? k = some x) (req : Word)
    (r : Response) :
    let t : State := { s with dev := (s.dev.touch k).shpSend k r.type req r x.srcAddr x.srcPort }
    t.dev.out = s.dev.out ++ [sentTo x r.type req r x.srcAddr x.srcPort] ∧
    t.dev.session? k = some { (touched s x) with seqOut := x.seqOut + 1 } ∧ Only s t [] := by
  intro t
  have hdev : t.dev = _ := Dev.shpSend_eq (session?_touch_self h) ..
  refine ⟨by rw [hdev]; rfl, ?_, ?_, ?_, rfl⟩
  · rw [hdev, Dev.session?_emit, Dev.session?_updSession, if_pos rfl, session?_touch_self h]
    rfl
  · intro a _; rw [hdev]; rfl
  · intro a; rw [hdev]; rfl

/-- What the rule of R541 makes of a request without its session, with its response kept, and while it runs. -/
theorem IsRequest.executed_once {s : State} {c : Instr} {k : Fin 4} {req : Word} (hc : IsRequest c k req) :
    (s.dev.session? k = none → ∃ t, exec c s = .next t ∧ t = s) ∧
    (∀ x, s.dev.session? k = some x →
      (∀ r, s.dev.keptFor k req = some r → ∃ t, exec c s = .next t ∧
        t.dev.out = s.dev.out ++ [sentTo x r.type req r x.srcAddr x.srcPort] ∧
        t.dev.session? k = some { (touched s x) with seqOut := x.seqOut + 1 } ∧ Only s t []) ∧
      (s.dev.keptFor k req = none → s.dev.stillRuns x.sid req = true → ∃ t, exec c s = .next t ∧
        t.dev.out = s.dev.out ∧ t.dev.session? k = some (touched s x) ∧ Only s t [])) := by
  obtain ⟨g, hg⟩ := hc.exec_eq_modeRow
  refine ⟨fun h => ⟨s, (hg s).trans (modeRow_of_none h req g), rfl⟩, fun x h => ⟨?_, ?_⟩⟩
  · intro r hkept
    exact ⟨_, (hg s).trans (modeRow_of_kept h hkept g), shpSend_again h req r⟩
  · intro hkept hruns
    exact ⟨_, (hg s).trans (modeRow_of_running h hkept hruns g), rfl, session?_touch_self h,
      fun _ _ => rfl, fun _ => rfl, rfl⟩

/-! ## Answers -/

section
variable {d : Dev} {k : Nat} {y : Session} (h : d.session? k = some y) (req : Word) (r : Response)
include h

theorem respond_evts : (d.respond k req r).evts = d.evts := by
  rw [Dev.respond_eq h]
  rfl

theorem respond_rd (a : Nat) : (d.respond k req r).rd a = d.rd a := by
  rw [Dev.respond_eq h]
  rfl

theorem respond_byteAt (a : Nat) : (d.respond k req r).byteAt a = d.byteAt a := by
  rw [Dev.respond_eq h]
  rfl

end

/-- The response to a request of a session that stands as `y`, while nothing was sent before it. -/
theorem answered_respond {s : State} {d : Dev} {k : Nat} {y : Session} (hsess : d.session? k = some y)
    (hout : d.out = s.dev.out) (req : Word) (r : Response) :
    Answered s { s with dev := d.respond k req r } k y req r := by
  refine ⟨?_, ?_⟩
  · show (d.respond k req r).out = _
    rw [Dev.respond_eq hsess, ← hout]
    rfl
  · show (d.respond k req r).session? k = _
    rw [Dev.session?_respond hsess, if_pos rfl]

/-- The device as a request of session k, which stands as `y`, leaves it before the response: nothing has been sent,
and nothing differs but the session, the events of the tick and the listed registers. -/
structure Unanswered (s : State) (d : Dev) (k : Nat) (y : Session) (l : List Nat) : Prop where
  /-- The session of the request. -/
  session : d.session? k = some y
  /-- The other sessions. -/
  others : ∀ j, j ≠ k → d.session? j = s.dev.session? j
  /-- The registers outside the list. -/
  regs : ∀ a, a ∉ l → d.rd a = s.dev.rd a
  /-- Nothing was sent. -/
  out : d.out = s.dev.out
  /-- All the rest. -/
  rest : { d with host := { d.host with sessions := s.dev.host.sessions }, evts := s.dev.evts,
                  regs := s.dev.regs } = s.dev

theorem FreshRequest.touch_unanswered {s : State} {k : Nat} {req : Word} {x : Session} (h : FreshRequest s k req x) :
    Unanswered s (s.dev.touch k) k (touched s x) [] where
  session := session?_touch_self h.1
  others j hj := by rw [Dev.session?_touch, if_neg hj]
  regs _ _ := rfl
  out := rfl
  rest := rfl

section
variable {s : State} {d : Dev} {k : Nat} {y : Session} {l : List Nat}

/-- Recording an event of the tick sends nothing. -/
theorem Unanswered.record (h : Unanswered s d k y l) (e : EvRec) : Unanswered s (d.record e) k y l :=
  ⟨h.session, h.others, h.regs, h.out, h.rest⟩

/-- Setting a field of a register sends nothing. -/
theorem Unanswered.setB (h : Unanswered s d k y l) (f : Fld) (b : Bool) :
    Unanswered s (d.setB f b) k y (f.adr :: l) where
  session := h.session
  others := h.others
  regs a ha := by
    obtain ⟨hne, hl⟩ := not_or.mp (mt List.mem_cons.mpr ha)
    rw [Dev.setB_eq_set, Dev.rd_set_ne _ _ _ hne, h.regs a hl]
  out := h.out
  rest := h.rest

/-- The response completes the request. -/
theorem Unanswered.answeredOnly (h : Unanswered s d k y l) (req : Word) (r : Response) :
    AnsweredOnly s { s with dev := d.respond k req r } k y req r l := by
  refine ⟨answered_respond h.session h.out req r, ?_, ?_, ?_⟩
  · intro j hj
    show (d.respond k req r).session? j = _
    rw [Dev.session?_respond h.session, if_neg hj, h.others j hj]
  · intro a ha
    rw [← h.regs a ha]
    exact respond_rd h.session req r a
  · have hrest := h.rest
    rw [Dev.respond_eq h.session]
    exact congrArg (fun e => { s with dev := { e with out := s.dev.out } }) hrest

end

end Sys2Proof
end


section
/-! PROOFS. Reads of the host: what each can send, what a read of plain registers answers, and READ (R10, R547). -/

namespace Sys2Proof.Machine

/-! ## Reads send nothing -/

/-- The device has sent nothing, and its host port is as it was. -/
structure SentNothing (d e : Dev) : Prop where
  /-- The host port. -/
  host : e.host = d.host
  /-- What was sent. -/
  out : e.out = d.out

theorem SentNothing.refl (d : Dev) : SentNothing d d := ⟨rfl, rfl⟩

theorem SentNothing.trans {a b c : Dev} (h : SentNothing a b) (g : SentNothing b c) : SentNothing a c :=
  ⟨g.host.trans h.host, g.out.trans h.out⟩

theorem SentNothing.wr {d e : Dev} (h : SentNothing d e) (a : Nat) (w : Word) : SentNothing d (e.wr a w) :=
  ⟨h.host, h.out⟩

theorem SentNothing.set {d e : Dev} (h : SentNothing d e) (f : Fld) (v : Nat) : SentNothing d (e.set f v) := h.wr ..

theorem Dev.logErr_sentNothing (d : Dev) (t : Nat) (q : BitVec 16) (c n : Nat) (b : BitVec 13) :
    SentNothing d (d.logErr t q c n b) := by
  unfold Dev.logErr
  split <;> exact ⟨rfl, rfl⟩

theorem Dev.eccCorrected_sentNothing (d : Dev) (q : BitVec 16) (c : Nat) (b : Byte) (r : BitVec 13) :
    SentNothing d (d.eccCorrected q c b r) := by
  have hlog := fun e t n => Dev.logErr_sentNothing e t q c n r
  unfold Dev.eccCorrected
  constructor <;> simp only [Dev.setFlip_host, Dev.setFlip_out] <;> split <;> split <;>
    simp [Dev.setPage, (hlog _ _ _).host, (hlog _ _ _).out]

theorem Dev.eccBad_sentNothing (d : Dev) (q : BitVec 16) (c : Nat) (r : BitVec 13) :
    SentNothing d (d.eccBad q c r) := by
  unfold Dev.eccBad
  dsimp only
  split
  · exact ⟨rfl, rfl⟩
  · refine SentNothing.trans ?_ (Dev.logErr_sentNothing ..)
    exact ⟨rfl, rfl⟩

theorem Dev.readByte_sentNothing (d : Dev) (q : BitVec 16) (c : Nat) : SentNothing d (d.readByte q c).1 := by
  unfold Dev.readByte
  dsimp only
  split
  · exact .refl d
  · split
    · exact .refl d
    · exact d.eccCorrected_sentNothing ..
    · exact d.eccBad_sentNothing ..

theorem Dev.readBytes_sentNothing (q : BitVec 16) (n : Nat) :
    ∀ (d : Dev) (c : Nat), SentNothing d (d.readBytes q c n).1 := by
  induction n with
  | zero => intro d c; exact .refl d
  | succ n ih =>
    intro d c
    have h := (d.readByte_sentNothing q c).trans (ih (d.readByte q c).1 (c + 1))
    unfold Dev.readBytes
    dsimp only
    split <;> exact h

theorem Dev.pmRead_sentNothing (d : Dev) (m : Master) : SentNothing d (d.pmRead m).1 := by
  unfold Dev.pmRead
  dsimp only
  cases d.pmEngines with
  | nil => exact (SentNothing.refl d).set ..
  | cons e _ =>
    dsimp only
    exact (Dev.readBytes_sentNothing m.req 4 d _).set ..

theorem Dev.skRead_sentNothing (d : Dev) : SentNothing d d.skRead.1 := by
  have h := Dev.readBytes_sentNothing reqShp 4 d (memCode 3 (4 * d.fld R.SK_RD_ADDR.val))
  unfold Dev.skRead
  dsimp only
  split <;> dsimp only
  · exact (h.set _ _).wr _ _
  · exact h.set _ _

theorem Dev.vnLatch_sentNothing (d : Dev) (m : Master) (ack : Bool) : SentNothing d (d.vnLatch m ack) := by
  cases ack <;> exact ⟨rfl, rfl⟩

theorem Dev.regRead_sentNothing (d : Dev) (m : Master) (ofs : Nat) (r : RegAt) (a : Nat) :
    SentNothing d (d.regRead m ofs r a).1 := by
  unfold Dev.regRead
  split <;> dsimp only
  case h_1 => exact ⟨rfl, rfl⟩
  case h_3 => exact d.vnLatch_sentNothing m false
  case h_5 => exact d.vnLatch_sentNothing m true
  case h_7 => exact d.pmRead_sentNothing m
  case h_8 => exact d.skRead_sentNothing
  all_goals exact .refl d

theorem Dev.busRead_sentNothing (d : Dev) (k ofs a : Nat) : SentNothing d (d.busRead k ofs a).1 := by
  unfold Dev.busRead
  split
  · exact d.regRead_sentNothing ..
  · split <;> dsimp only
    · exact Dev.readBytes_sentNothing ..
    · exact .refl d
  · exact .refl d

/-! ## The words of a READ, one after the other -/

theorem Dev.readAll_nil (d : Dev) (k ofs : Nat) : d.readAll k ofs [] = (d, []) := rfl

theorem Dev.readAll_cons (d : Dev) (k ofs a : Nat) (l : List Nat) : d.readAll k ofs (a :: l) =
    (((d.busRead k ofs a).1.readAll k ofs l).1,
      (d.busRead k ofs a).2 :: ((d.busRead k ofs a).1.readAll k ofs l).2) := by
  have hacc : ∀ (l : List Nat) (e : Dev) (rs : List RdRes),
      l.foldl (fun (p : Dev × List RdRes) a => ((p.1.busRead k ofs a).1, p.2 ++ [(p.1.busRead k ofs a).2])) (e, rs) =
        ((e.readAll k ofs l).1, rs ++ (e.readAll k ofs l).2) := by
    intro l
    induction l with
    | nil => intro e rs; simp [Dev.readAll_nil]
    | cons b t ih =>
      intro e rs
      rw [List.foldl_cons, ih, show e.readAll k ofs (b :: t) = _ from ih _ _]
      simp
  exact hacc l _ _

theorem Dev.readAll_sentNothing (k ofs : Nat) (l : List Nat) :
    ∀ d : Dev, SentNothing d (d.readAll k ofs l).1 := by
  induction l with
  | nil => exact .refl
  | cons a t ih =>
    intro d
    rw [Dev.readAll_cons]
    exact (d.busRead_sentNothing k ofs a).trans (ih _)

/-- An address of the map where nothing stands gives a bus error (R624). -/
theorem Dev.busRead_unmapped (d : Dev) (k ofs : Nat) {a : Nat} (hloc : locate a = none)
    (hwin : windowCode a = none) : d.busRead k ofs a = (d, .busErr) := by
  simp only [Dev.busRead, hloc, hwin]

theorem Dev.busErr_mem_readAll (k ofs : Nat) {a : Nat} (hloc : locate a = none) (hwin : windowCode a = none)
    {l : List Nat} : ∀ d : Dev, a ∈ l → .busErr ∈ (d.readAll k ofs l).2 := by
  induction l with
  | nil => intro d h; cases h
  | cons b t ih =>
    intro d h
    rw [Dev.readAll_cons]
    rcases List.mem_cons.mp h with rfl | h
    · rw [d.busRead_unmapped k ofs hloc hwin]; exact List.mem_cons_self
    · exact List.mem_cons_of_mem _ (ih _ h)

/-! ## Plain registers -/

/-- The registers whose read does something, or reads for a bus master what it has latched (R40, R260, R516,
R628). -/
def effectiveReads : List RegName :=
  [.TIM_NOW_LO, .TIM_NOW_HI, .VN_OFS_LO, .VN_OFS_HI, .VN_ACK_LO, .VN_ACK_HI, .BR_PM_DATA, .SK_RD_DATA]

/-- A register stands at an address whose read only gives its word. -/
def PlainAt (a : Nat) (r : RegAt) : Prop := locate a = some r ∧ r.row.name ∉ effectiveReads

theorem Dev.regRead_plain {a : Nat} {r : RegAt} (h : PlainAt a r) (d : Dev) (m : Master) (ofs : Nat) :
    d.regRead m ofs r a = (d, .ok (d.plainWord r a)) := by
  obtain ⟨-, hname⟩ := h
  unfold Dev.regRead
  split
  case h_9 => rfl
  all_goals
    rename_i heq
    exact absurd (heq ▸ by decide) hname

theorem Dev.busRead_plain {a : Nat} {r : RegAt} (h : PlainAt a r) (d : Dev) (k ofs : Nat) :
    d.busRead k ofs a = (d, .ok (d.plainWord r a)) := by
  simp only [Dev.busRead, h.1, Dev.regRead_plain h]

/-- Words are what a read of the plain registers at a list of addresses gives. -/
inductive Dev.PlainWords (d : Dev) : List Nat → List Word → Prop
  | nil : d.PlainWords [] []
  | cons {a : Nat} {r : RegAt} {addrs : List Nat} {ws : List Word} (hr : PlainAt a r) (h : d.PlainWords addrs ws) :
    d.PlainWords (a :: addrs) (d.plainWord r a :: ws)

theorem Dev.plainWords_of_getD {d : Dev} {addrs : List Nat} : ∀ {ws : List Word}, ws.length = addrs.length →
    (∀ i, i < addrs.length → ∃ r, PlainAt (addrs.getD i 0) r ∧
      ws.getD i 0 = d.plainWord r (addrs.getD i 0)) → d.PlainWords addrs ws := by
  induction addrs with
  | nil =>
    intro ws hlen _
    obtain rfl := List.eq_nil_of_length_eq_zero hlen
    exact .nil
  | cons a t ih =>
    intro ws hlen h
    obtain ⟨w, u, rfl⟩ := List.exists_cons_of_length_eq_add_one hlen
    obtain ⟨r, hr, hw⟩ := h 0 (Nat.succ_pos _)
    obtain rfl : w = d.plainWord r a := hw
    exact .cons hr (ih (Nat.succ.inj hlen) fun i hi => h (i + 1) (Nat.succ_lt_succ hi))

theorem Dev.readAll_plain {d : Dev} {addrs : List Nat} {ws : List Word} (h : d.PlainWords addrs ws) (k ofs : Nat) :
    d.readAll k ofs addrs = (d, ws.map .ok) := by
  induction h with
  | nil => rfl
  | cons hr _ ih =>
    rw [Dev.readAll_cons, Dev.busRead_plain hr, ih]
    rfl

/-- No plain register is TIM_NOW_LO, so a READ of plain registers draws no time within the tick. -/
theorem Dev.PlainWords.timNowLo_not_mem {d : Dev} {addrs : List Nat} {ws : List Word} (h : d.PlainWords addrs ws) :
    R.TIM_NOW_LO.adr ∉ addrs := by
  have hname : ∀ r, locate R.TIM_NOW_LO.adr = some r → r.row.name = .TIM_NOW_LO := by
    have h : ∀ r ∈ locate R.TIM_NOW_LO.adr, r.row.name = .TIM_NOW_LO := by decide +kernel
    exact h
  induction h with
  | nil => exact List.not_mem_nil
  | cons hr _ ih =>
    refine fun hmem => (List.mem_cons.mp hmem).elim (fun heq => ?_) ih
    subst heq
    exact hr.2 (hname _ hr.1 ▸ by decide)

/-! ## READ -/

theorem readResponse_of_busErr {rs : List RdRes} (h : .busErr ∈ rs) (tick : Nat) :
    readResponse tick rs = ⟨0x90, 10, []⟩ := by
  have hany : rs.any (fun r => r == .busErr) = true := List.any_eq_true.mpr ⟨_, h, by decide⟩
  simp only [readResponse, hany, if_true]

theorem readResponse_map_ok (tick : Nat) (ws : List Word) :
    readResponse tick (ws.map .ok) = ⟨0x90, 0, [word tick, word (tick / 2 ^ 32)] ++ ws⟩ := by
  have hbus : (ws.map RdRes.ok).any (fun r => r == .busErr) = false := by simp
  have hmem : (ws.map RdRes.ok).any (fun r => r == .memErr) = false := by simp
  simp [readResponse, hbus, hmem, List.map_map, Function.comp_def]

theorem rangesFit_iff (rs : List (Word × Nat)) : rangesFit rs = true ↔
    1 ≤ rs.length ∧ rs.length ≤ 16 ∧ (∀ p ∈ rs, bits p.1 1 0 = 0 ∧ 1 ≤ p.2) ∧ (rs.map Prod.snd).sum ≤ 256 := by
  simp [rangesFit, within, and_assoc]

/-- A session may read every word of a READ: only one of kind 2 is held to SEC_ and NV_ (R565). -/
def MayRead (kind : Nat) (addrs : List Nat) : Prop := kind ≠ 2 ∨ ∀ a ∈ addrs, 0xA1000 ≤ a ∧ a < 0xC0000

theorem mayRead_iff (kind : Nat) (addrs : List Nat) :
    MayRead kind addrs ↔ ¬ (kind = 2 ∧ (! addrs.all bootReads) = true) := by
  simp only [MayRead, bootReads, Bool.not_eq_true', List.all_eq_false, Bool.and_eq_true, decide_eq_true_eq,
    not_and, not_exists]
  by_cases hkind : kind = 2 <;> simp [hkind]

theorem Dev.kindOf_of_session {d : Dev} {k : Nat} {y : Session} (h : d.session? k = some y) : d.kindOf k = y.kind := by
  simp only [Dev.kindOf, h, Option.map_some, Option.getD_some]

section
variable {d : Dev} {k : Nat} {rs : List (Word × Nat)}

theorem Dev.readMsg_unfit (h : ¬ rangesFit rs = true) (req : Word) :
    d.readMsg k req rs = d.respond k req ⟨0x90, 1, []⟩ := by
  simp [Dev.readMsg, h]

theorem Dev.readMsg_denied (hfit : rangesFit rs = true) (hmay : ¬ MayRead (d.kindOf k) (rangeAddrs rs)) (req : Word) :
    d.readMsg k req rs = d.respond k req ⟨0x90, 2, []⟩ := by
  rw [mayRead_iff, Classical.not_not] at hmay
  simp only [Dev.readMsg, hfit, Bool.not_true, Bool.false_eq_true, if_false, if_pos hmay]

theorem Dev.readMsg_reads (hfit : rangesFit rs = true) (hmay : MayRead (d.kindOf k) (rangeAddrs rs)) (req : Word) :
    d.readMsg k req rs =
      let q := if (rangeAddrs rs).contains R.TIM_NOW_LO.adr then d.drawOfs else (0, d)
      let p := q.2.readAll k q.1 (rangeAddrs rs)
      p.1.respond k req (readResponse p.1.tick p.2) := by
  rw [mayRead_iff] at hmay
  simp only [Dev.readMsg, hfit, Bool.not_true, Bool.false_eq_true, if_false, if_neg hmay]

theorem Dev.readMsg_plain (hfit : rangesFit rs = true) (hmay : MayRead (d.kindOf k) (rangeAddrs rs))
    {ws : List Word} (hws : d.PlainWords (rangeAddrs rs) ws) (req : Word) : d.readMsg k req rs =
      d.respond k req ⟨0x90, 0, [word d.tick, word (d.tick / 2 ^ 32)] ++ ws⟩ := by
  have hnow : (rangeAddrs rs).contains R.TIM_NOW_LO.adr = false := by simpa using hws.timNowLo_not_mem
  rw [Dev.readMsg_reads hfit hmay, hnow]
  simp only [Bool.false_eq_true, if_false, Dev.readAll_plain hws, readResponse_map_ok]

/-- One unmapped address turns the whole READ away; what the other reads did sends nothing. -/
theorem Dev.readMsg_unmapped (hfit : rangesFit rs = true) (hmay : MayRead (d.kindOf k) (rangeAddrs rs))
    (hun : ∃ a ∈ rangeAddrs rs, locate a = none ∧ windowCode a = none) (req : Word) :
    ∃ e, SentNothing d e ∧ d.readMsg k req rs = e.respond k req ⟨0x90, 10, []⟩ := by
  obtain ⟨a, ha, hloc, hwin⟩ := hun
  rw [Dev.readMsg_reads hfit hmay]
  extract_lets q p
  have hq : SentNothing d q.2 := by
    show SentNothing d (if _ then d.drawOfs else (0, d)).2
    split <;> exact ⟨rfl, rfl⟩
  refine ⟨p.1, hq.trans (Dev.readAll_sentNothing ..), ?_⟩
  rw [readResponse_of_busErr (Dev.busErr_mem_readAll k q.1 hloc hwin q.2 ha)]

end

end Sys2Proof.Machine
end


section
/-! PROOFS. Writes of one word to a listed register: what each access code does, and the registers that O55
names (R5, R8, R475, R549). -/

namespace Sys2Proof.Machine

/-! ## A word on the bus -/

theorem Dev.busWrite_located {a : Nat} {r : RegAt} (halign : a % 4 = 0) (hloc : locate a = some r) (d : Dev)
    (w : Who) (v mask : Word) : d.busWrite w a v mask = d.regWr w r a v mask := by
  simp only [Dev.busWrite, halign, hloc, ne_eq, not_true_eq_false, if_false]

/-- Where nothing stands on the map a write has no effect (R624). -/
theorem Dev.busWrite_unmapped {a : Nat} (hloc : locate a = none) (hwin : windowCode a = none) (d : Dev) (w : Who)
    (v mask : Word) : d.busWrite w a v mask = (d, .busErr) := by
  simp only [Dev.busWrite, hloc, hwin, ite_self]

/-! ## What the access codes do (R5) -/

section
variable {row : RegRow} {i j : Nat} (hrwl : row.has .RWL = false) (hsched : row.name ≠ .ML_SCHED_CTRL)
  (d : Dev) (w : Who) (a : Nat) (v mask : Word)
include hrwl hsched

/-- A register of RW fields alone takes the written bits where its mode and range accept them. -/
theorem Dev.regWr_of_rw (hrw : row.has .RW = true) (hrws : row.maskOf .RWS = 0)
    (hloc : locate a = some ⟨row, i, j⟩) :
    let nv := merge (d.rd a) v (mask &&& accMask a .RW)
    d.regWr w ⟨row, i, j⟩ a v mask =
      if d.modeAccepts w ⟨row, i, j⟩ && d.inRange ⟨row, i, j⟩ nv then wroteBy (d.valueWr w ⟨row, i, j⟩ a nv) a
      else d.rejectReg ⟨row, i, j⟩ := by
  have hmask : accMask a .RW = word (row.maskOf .RW + row.maskOf .RWS) := by
    simp only [accMask, hloc, hrws, Nat.add_zero]
  simp only [Dev.regWr, hrwl, hsched, hrw, hmask, Bool.false_eq_true, if_false, Bool.true_or, if_true]

/-- A register of W1C fields alone loses the bits written as 1. -/
theorem Dev.regWr_of_w1c (hrw : row.has .RW = false) (hrws : row.has .RWS = false)
    (hwo : row.has .WO = false) (hw1c : row.has .W1C = true) (hloc : locate a = some ⟨row, i, j⟩) :
    d.regWr w ⟨row, i, j⟩ a v mask = (d.wr a (d.rd a &&& ~~~ (v &&& mask &&& accMask a .W1C)), .ok 0) := by
  have hmask : accMask a .W1C = word (row.maskOf .W1C) := by simp only [accMask, hloc]
  simp only [Dev.regWr, hrwl, hsched, hrw, hrws, hwo, hw1c, hmask, Bool.false_eq_true, if_false, Bool.or_self,
    if_true, Dev.accept]

/-- A register without a field that can be written is left as it is. -/
theorem Dev.regWr_of_readOnly (hrw : row.has .RW = false) (hrws : row.has .RWS = false)
    (hwo : row.has .WO = false) (hw1c : row.has .W1C = false) : d.regWr w ⟨row, i, j⟩ a v mask = (d, .ok 0) := by
  simp only [Dev.regWr, hrwl, hsched, hrw, hrws, hwo, hw1c, Bool.false_eq_true, if_false, Bool.or_self]

end

/-! ## Writes that the state copy carries (R475) -/

theorem mem_insNat_self (x : Nat) (l : List Nat) : x ∈ insNat x l := by simp [insNat]

/-- The modes in force do not depend on a register other than DEV_MODE. -/
theorem Dev.loadOrService_wr {a : Nat} (h : a ≠ R.DEV_MODE.adr) (d : Dev) (w : Word) :
    (d.wr a w).loadOrService = d.loadOrService := by
  have hfld : ∀ f : Fld, f.adr = R.DEV_MODE.adr → (d.wr a w).fld f = d.fld f := by
    intro f hf
    rw [Dev.fld, Dev.rd_wr_ne d w (hf ▸ Ne.symm h), Dev.fld]
  have hrmode : (d.wr a w).rmode = d.rmode := by
    unfold Dev.rmode Dev.omode
    rw [hfld R.DEV_MODE.mode rfl, hfld R.DEV_MODE.carried rfl]
  rw [Dev.loadOrService, Dev.modeIn, hrmode, Dev.loadOrService, Dev.modeIn]

/-- An accepted value stands in its register, and outside Load and Service the write is noted for the partner
unit. -/
theorem wroteBy_accept {a : Nat} (h : a ≠ R.DEV_MODE.adr) (d : Dev) (w : Word) :
    ∃ l, wroteBy (d.accept a w) a = ((d.wr a w).updTwin (fun z => { z with wrote := l }), .ok 0) ∧
      (d.loadOrService = false → a ∈ l) := by
  simp only [wroteBy, Dev.accept, Dev.loadOrService_wr h]
  split
  · rename_i hcond
    refine ⟨d.twin.wrote, rfl, fun hmode => ?_⟩
    simpa [hmode] using hcond
  · exact ⟨insNat a d.twin.wrote, rfl, fun _ => mem_insNat_self ..⟩

/-! ## The rows of the registers -/

/-- The row of AX_LIM in the register index. -/
def axLimRow : RegRow :=
  ⟨.AX_LIM, 0x2001C, 128, 0x100, 1, 0x4, 0, [⟨31, 16, .RW, 0x0⟩, ⟨15, 0, .RW, 0x0⟩]⟩

/-- The row of AX_PLAUS in the register index. -/
def axPlausRow : RegRow :=
  ⟨.AX_PLAUS, 0x2005C, 128, 0x100, 1, 0x4, 0, [⟨31, 24, .RW, 0x8⟩, ⟨15, 0, .RW, 0x1000⟩]⟩

/-- The row of AX_PRF_EVT in the register index. -/
def axPrfEvtRow : RegRow :=
  ⟨.AX_PRF_EVT, 0x200AC, 128, 0x100, 1, 0x4, 0,
   [⟨6, 6, .W1C, 0x0⟩, ⟨5, 5, .W1C, 0x0⟩, ⟨4, 4, .W1C, 0x0⟩, ⟨3, 3, .W1C, 0x0⟩, ⟨2, 2, .W1C, 0x0⟩,
    ⟨1, 1, .W1C, 0x0⟩, ⟨0, 0, .W1C, 0x0⟩]⟩

/-- The row of DEV_MODE in the register index. -/
def devModeRow : RegRow :=
  ⟨.DEV_MODE, 0x8, 1, 0x100000, 1, 0x4, 0,
   [⟨31, 28, .RO, 0x5⟩, ⟨27, 24, .RO, 0x0⟩, ⟨19, 16, .RO, 0x0⟩, ⟨3, 0, .RO, 0x0⟩]⟩

theorem locate_axLim {i : Nat} (hi : i < 128) : locate (R.AX_LIM.adr i) = some ⟨axLimRow, i, 0⟩ := by
  have h : ∀ i : Fin 128, locate (R.AX_LIM.adr i) = some ⟨axLimRow, i, 0⟩ := by decide +kernel
  exact h ⟨i, hi⟩

theorem locate_axPrfEvt {i : Nat} (hi : i < 128) : locate (R.AX_PRF_EVT.adr i) = some ⟨axPrfEvtRow, i, 0⟩ := by
  have h : ∀ i : Fin 128, locate (R.AX_PRF_EVT.adr i) = some ⟨axPrfEvtRow, i, 0⟩ := by decide +kernel
  exact h ⟨i, hi⟩

theorem locate_axPlaus : locate (R.AX_PLAUS.adr 5) = some ⟨axPlausRow, 5, 0⟩ := by decide +kernel

theorem locate_devMode : locate R.DEV_MODE.adr = some ⟨devModeRow, 0, 0⟩ := by decide +kernel

theorem plainAt_axPlaus : PlainAt (R.AX_PLAUS.adr 5) ⟨axPlausRow, 5, 0⟩ := ⟨locate_axPlaus, by decide⟩

/-! ## Writes to them -/

/-- AX_LIM takes the written bits in every mode. -/
theorem Dev.busWrite_axLim {i : Nat} (hi : i < 128) (d : Dev) (w : Who) (v mask : Word) :
    d.busWrite w (R.AX_LIM.adr i) v mask = wroteBy (d.accept (R.AX_LIM.adr i)
      (merge (d.rd (R.AX_LIM.adr i)) v (mask &&& accMask (R.AX_LIM.adr i) .RW))) (R.AX_LIM.adr i) := by
  have halign : R.AX_LIM.adr i % 4 = 0 := by unfold R.AX_LIM.adr; omega
  rw [Dev.busWrite_located halign (locate_axLim hi), Dev.regWr_of_rw (by decide) (by decide) d w _ v mask
    (by decide) (by decide) (locate_axLim hi)]
  rfl

/-- AX_PRF_EVT loses the bits written as 1. -/
theorem Dev.busWrite_axPrfEvt {i : Nat} (hi : i < 128) (d : Dev) (w : Who) (v mask : Word) :
    d.busWrite w (R.AX_PRF_EVT.adr i) v mask = (d.wr (R.AX_PRF_EVT.adr i)
      (d.rd (R.AX_PRF_EVT.adr i) &&& ~~~ (v &&& mask &&& accMask (R.AX_PRF_EVT.adr i) .W1C)), .ok 0) := by
  have halign : R.AX_PRF_EVT.adr i % 4 = 0 := by unfold R.AX_PRF_EVT.adr; omega
  rw [Dev.busWrite_located halign (locate_axPrfEvt hi), Dev.regWr_of_w1c (by decide) (by decide) d w _ v mask
    (by decide) (by decide) (by decide) (by decide) (locate_axPrfEvt hi)]

/-- No bus master writes DEV_MODE. -/
theorem Dev.busWrite_devMode (d : Dev) (w : Who) (v mask : Word) :
    d.busWrite w R.DEV_MODE.adr v mask = (d, .ok 0) := by
  rw [Dev.busWrite_located (by decide) locate_devMode, Dev.regWr_of_readOnly (by decide) (by decide) d w _ v mask
    (by decide) (by decide) (by decide) (by decide)]

/-- AX_PLAUS takes the written bits where the number of ticks that they give is not 0, else the write sets the
rejection bit of the axis. -/
theorem Dev.busWrite_axPlaus (d : Dev) (w : Who) (v mask : Word) :
    let nv := merge (d.rd (R.AX_PLAUS.adr 5)) v (mask &&& accMask (R.AX_PLAUS.adr 5) .RW)
    d.busWrite w (R.AX_PLAUS.adr 5) v mask =
      if (R.AX_PLAUS.n 5).get nv = 0 then (d.setB (R.AX_EVT.cfg_rej 5) true, .rejected 0)
      else wroteBy (d.accept (R.AX_PLAUS.adr 5) nv) (R.AX_PLAUS.adr 5) := by
  have hrange : ∀ x, (d.modeAccepts w ⟨axPlausRow, 5, 0⟩ && d.inRange ⟨axPlausRow, 5, 0⟩ x) =
      decide (1 ≤ (R.AX_PLAUS.n 5).get x) := fun _ => Bool.true_and _
  rw [Dev.busWrite_located (by decide) locate_axPlaus, Dev.regWr_of_rw (by decide) (by decide) d w _ v mask
    (by decide) (by decide) locate_axPlaus]
  simp only [hrange, decide_eq_true_eq, Nat.one_le_iff_ne_zero, ne_eq, ite_not]
  rfl

end Sys2Proof.Machine
end


section
/-! PROOFS. The requests of the host: PING, READ, WRITE and REGISTER_WRITE (O55; R5, R10, R541, R547, R549,
R550). -/

namespace Sys2Proof.Machine

/-! ## Entries of a WRITE that name plain registers -/

theorem Dev.lookAt_plain {a : Nat} {r : RegAt} (h : PlainAt a r) (d : Dev) (k : Nat) :
    d.lookAt k a = (d, some (d.plainWord r a)) := by
  unfold Dev.lookAt
  simp only [h.1]
  split
  case h_4 => rw [Dev.regRead_plain h]
  all_goals
    rename_i heq
    exact absurd (heq ▸ by decide) h.2

section
variable {e : WEntry} {r : RegAt} (d : Dev) (k : Nat)

/-- A guard on a plain register compares the register's word under the mask (R549). -/
theorem Dev.guardEntry_plain (h : PlainAt e.adr r) : d.guardEntry k e = (d,
    { status := if d.plainWord r e.adr &&& e.mask = e.value then 1 else 2, value := d.plainWord r e.adr }) := by
  simp only [Dev.guardEntry, Dev.lookAt_plain h, Dev.openWord]

theorem Dev.heldEntry_guard (hop : e.op = 1) : d.heldEntry k e = d.guardEntry k e := by
  simp only [Dev.heldEntry, hop, if_true]

/-- Where a guard fails a write entry shows its register and writes nothing. -/
theorem Dev.heldEntry_write_plain (hop : e.op = 0) (h : PlainAt e.adr r) :
    d.heldEntry k e = (d, { status := 4, value := d.plainWord r e.adr }) := by
  simp only [Dev.heldEntry, hop, Nat.zero_ne_one, if_false, Dev.lookAt_plain h, Dev.openWord]

theorem Dev.appliedEntry_guard_plain (hop : e.op = 1) (h : PlainAt e.adr r) :
    d.appliedEntry k e = (d, { status := 1, value := d.plainWord r e.adr }) := by
  simp only [Dev.appliedEntry, hop, if_true, Dev.lookAt_plain h, Dev.openWord]

theorem Dev.appliedEntry_write (hop : e.op = 0) : d.appliedEntry k e = d.writeEntry k e := by
  simp only [Dev.appliedEntry, hop, Nat.zero_ne_one, if_false]

end

/-! ## A WRITE on its own -/

section
variable {d : Dev} {k : Nat} (req : Word)

/-- A WRITE that is turned away is answered with the reason; from reason 3 on the rejection is recorded (R502). -/
theorem Dev.writeNow_turnedAway {es : List WEntry} (hwhy : d.writeWhy k es ≠ 0) : d.writeNow k req es =
    (if d.writeWhy k es ≤ 2 then d else d.noteRej (d.writeWhy k es) 0).respond k req
      ⟨0x91, d.writeWhy k es, []⟩ := by
  simp only [Dev.writeNow, Dev.writeApply, if_pos hwhy]
  rfl

/-- A guard that fails: guard and write show their registers, and the rejection is recorded. -/
theorem Dev.writeNow_guardFails {g w : WEntry} {r q : RegAt} (hwhy : d.writeWhy k [g, w] = 0) (hg : g.op = 1)
    (hw : w.op = 0) (hr : PlainAt g.adr r) (hq : PlainAt w.adr q)
    (hne : d.plainWord r g.adr &&& g.mask ≠ g.value) : d.writeNow k req [g, w] =
      (d.noteRej 5 0).respond k req ⟨0x91, 5, [2, d.plainWord r g.adr, 4, d.plainWord q w.adr]⟩ := by
  have hguards : [g, w].filter (fun e => e.op = 1) = [g] := by simp [hg, hw]
  have hjudged : d.entries [g] (fun d e => d.guardEntry k e) =
      (d, [{ status := 2, value := d.plainWord r g.adr }]) := by
    simp only [Dev.entries, List.foldl_cons, List.foldl_nil, List.nil_append, Dev.guardEntry_plain d k hr,
      if_neg hne]
  have hheld : d.entries [g, w] (fun d e => d.heldEntry k e) =
      (d, [{ status := 2, value := d.plainWord r g.adr }, { status := 4, value := d.plainWord q w.adr }]) := by
    simp only [Dev.entries, List.foldl_cons, List.foldl_nil, List.nil_append, List.cons_append,
      Dev.heldEntry_guard d k hg, Dev.guardEntry_plain d k hr, if_neg hne, Dev.heldEntry_write_plain d k hw hq]
  simp only [Dev.writeNow, Dev.writeApply, hwhy, hguards, hjudged, hheld]
  rfl

/-- A guard that holds shows its register. -/
theorem Dev.writeNow_guardHolds {g : WEntry} {r : RegAt} (hwhy : d.writeWhy k [g] = 0) (hg : g.op = 1)
    (hr : PlainAt g.adr r) (heq : d.plainWord r g.adr &&& g.mask = g.value) : d.writeNow k req [g] =
      (d.note 5 1 0).respond k req ⟨0x91, 0, [1, d.plainWord r g.adr]⟩ := by
  have hguards : [g].filter (fun e => e.op = 1) = [g] := by simp [hg]
  have hjudged : d.entries [g] (fun d e => d.guardEntry k e) =
      (d, [{ status := 1, value := d.plainWord r g.adr }]) := by
    simp only [Dev.entries, List.foldl_cons, List.foldl_nil, List.nil_append, Dev.guardEntry_plain d k hr,
      if_pos heq]
  have happlied : (d.note 5 1 0).entries [g] (fun d e => d.appliedEntry k e) =
      (d.note 5 1 0, [{ status := 1, value := d.plainWord r g.adr }]) := by
    simp only [Dev.entries, List.foldl_cons, List.foldl_nil, List.nil_append,
      Dev.appliedEntry_guard_plain _ k hg hr]
    rfl
  simp only [Dev.writeNow, Dev.writeApply, hwhy, hguards, hjudged, happlied]
  rfl

/-- A single write entry takes effect and is answered. -/
theorem Dev.writeNow_single {w : WEntry} (hwhy : d.writeWhy k [w] = 0) (hw : w.op = 0) : d.writeNow k req [w] =
    (((d.note 5 1 0).writeEntry k w).1).writeDone k req 0 [((d.note 5 1 0).writeEntry k w).2] := by
  have hguards : [w].filter (fun e => e.op = 1) = [] := by simp [hw]
  have happlied : (d.note 5 1 0).entries [w] (fun d e => d.appliedEntry k e) =
      (((d.note 5 1 0).writeEntry k w).1, [((d.note 5 1 0).writeEntry k w).2]) := by
    simp only [Dev.entries, List.foldl_cons, List.foldl_nil, List.nil_append, Dev.appliedEntry_write _ k hw]
  have hjudged : d.entries [] (fun d e => d.guardEntry k e) = (d, []) := rfl
  simp only [Dev.writeNow, Dev.writeApply, hwhy, hguards, hjudged, happlied]
  rfl

end

/-! ## A write entry for AX_PLAUS -/

section
variable {w : WEntry} (hadr : w.adr = R.AX_PLAUS.adr 5) (d : Dev) (k : Nat)
include hadr

theorem Dev.prfPlace_axPlaus : d.prfPlace w = none := by
  simp only [Dev.prfPlace, hadr, locate_axPlaus]
  exact if_neg (by decide)

/-- A number of ticks of 0 is rejected: the rejection bit is set, and the entry shows the register as it is. -/
theorem Dev.writeEntry_axPlaus_rejected
    (hn : (R.AX_PLAUS.n 5).get (merge (d.rd w.adr) w.value (w.mask &&& accMask w.adr .RW)) = 0) :
    d.writeEntry k w = (d.setB (R.AX_EVT.cfg_rej 5) true, { status := 3, value := d.rd w.adr }) := by
  have hbus := d.busWrite_axPlaus { sess := some k } w.value w.mask
  rw [hadr] at hn
  simp only [hn, if_true] at hbus
  have hword : (d.setB (R.AX_EVT.cfg_rej 5) true).plainWord ⟨axPlausRow, 5, 0⟩ (R.AX_PLAUS.adr 5) =
      d.rd (R.AX_PLAUS.adr 5) := Dev.rd_set_ne _ _ _ (by decide)
  simp only [Dev.writeEntry, hadr, hbus, Dev.lookAt_plain plainAt_axPlaus, hword, Dev.openWord]
  rfl

/-- Another number is taken, and the entry shows the register's new word. -/
theorem Dev.writeEntry_axPlaus_taken
    (hn : (R.AX_PLAUS.n 5).get (merge (d.rd w.adr) w.value (w.mask &&& accMask w.adr .RW)) ≠ 0) :
    ∃ l, d.writeEntry k w = ((d.wr w.adr (merge (d.rd w.adr) w.value (w.mask &&& accMask w.adr .RW))).updTwin
        (fun z => { z with wrote := l }),
      { value := merge (d.rd w.adr) w.value (w.mask &&& accMask w.adr .RW) }) := by
  have hbus := d.busWrite_axPlaus { sess := some k } w.value w.mask
  rw [hadr] at hn ⊢
  simp only [hn, if_false] at hbus
  obtain ⟨l, hwrote, -⟩ := wroteBy_accept (by decide : R.AX_PLAUS.adr 5 ≠ R.DEV_MODE.adr) d
    (merge (d.rd (R.AX_PLAUS.adr 5)) w.value (w.mask &&& accMask (R.AX_PLAUS.adr 5) .RW))
  rw [hwrote] at hbus
  have hword : ∀ nv, ((d.wr (R.AX_PLAUS.adr 5) nv).updTwin (fun z => { z with wrote := l })).plainWord
      ⟨axPlausRow, 5, 0⟩ (R.AX_PLAUS.adr 5) = nv := fun nv => d.rd_wr_self _ nv
  refine ⟨l, ?_⟩
  simp only [Dev.writeEntry, Dev.prfPlace_axPlaus hadr, hadr, hbus, Dev.lookAt_plain plainAt_axPlaus, hword,
    Dev.openWord]

variable {d k} (req : Word)

theorem Dev.writeNow_axPlaus_rejected (hwhy : d.writeWhy k [w] = 0) (hop : w.op = 0)
    (hn : (R.AX_PLAUS.n 5).get (merge (d.rd w.adr) w.value (w.mask &&& accMask w.adr .RW)) = 0) :
    d.writeNow k req [w] =
      ((d.note 5 1 0).setB (R.AX_EVT.cfg_rej 5) true).respond k req ⟨0x91, 0, [3, d.rd w.adr]⟩ := by
  rw [Dev.writeNow_single req hwhy hop, Dev.writeEntry_axPlaus_rejected hadr (d.note 5 1 0) k hn]
  rfl

theorem Dev.writeNow_axPlaus_taken (hwhy : d.writeWhy k [w] = 0) (hop : w.op = 0)
    (hn : (R.AX_PLAUS.n 5).get (merge (d.rd w.adr) w.value (w.mask &&& accMask w.adr .RW)) ≠ 0) :
    let nv := merge (d.rd w.adr) w.value (w.mask &&& accMask w.adr .RW)
    ∃ l, d.writeNow k req [w] = (((d.note 5 1 0).wr w.adr nv).updTwin
      (fun z => { z with wrote := l })).respond k req ⟨0x91, 0, [0, nv]⟩ := by
  obtain ⟨l, hentry⟩ := Dev.writeEntry_axPlaus_taken hadr (d.note 5 1 0) k hn
  refine ⟨l, ?_⟩
  rw [Dev.writeNow_single req hwhy hop, hentry]
  rfl

end

end Sys2Proof.Machine

namespace Sys2Proof

open Machine

/-! ## PING and READ of a session -/

section
variable {s : State} {k : Fin 4} {req : Word} {x : Session}

theorem FreshRequest.exec_read (h : FreshRequest s k req x) (rs : List (Word × Nat)) :
    exec (.read k req rs) s = .next { s with dev := (s.dev.touch k).readMsg k req rs } := modeRow_of_fresh h _

theorem FreshRequest.exec_write (h : FreshRequest s k req x) (es : List WEntry) :
    exec (.write k req es) s = .next { s with dev := (s.dev.touch k).writeNow k req es } := modeRow_of_fresh h _

theorem FreshRequest.ping_answered (h : FreshRequest s k req x) (hreq : req = 0) :
    ∃ t, exec (.ping k) s = .next t ∧ AnsweredOnly s t k (touched s x) 0 ⟨0x86, 0, []⟩ [] := by
  subst hreq
  exact ⟨_, modeRow_of_fresh h (fun d => d.respond k 0 ⟨0x86, 0, []⟩), h.touch_unanswered.answeredOnly ..⟩

theorem FreshRequest.kindOf_touch (h : FreshRequest s k req x) : (s.dev.touch k).kindOf k = x.kind := by
  rw [Dev.kindOf_of_session h.touch_unanswered.session, touched]

variable {rs : List (Word × Nat)}

theorem FreshRequest.read_unfit_answered (h : FreshRequest s k req x) (hfit : ¬ rangesFit rs = true) :
    ∃ t, exec (.read k req rs) s = .next t ∧ AnsweredOnly s t k (touched s x) req ⟨0x90, 1, []⟩ [] :=
  ⟨_, h.exec_read rs, Dev.readMsg_unfit hfit req ▸ h.touch_unanswered.answeredOnly ..⟩

theorem FreshRequest.read_denied_answered (h : FreshRequest s k req x) (hfit : rangesFit rs = true)
    (hmay : ¬ MayRead x.kind (rangeAddrs rs)) :
    ∃ t, exec (.read k req rs) s = .next t ∧ AnsweredOnly s t k (touched s x) req ⟨0x90, 2, []⟩ [] :=
  ⟨_, h.exec_read rs,
    Dev.readMsg_denied hfit (h.kindOf_touch ▸ hmay) req ▸ h.touch_unanswered.answeredOnly ..⟩

theorem FreshRequest.read_plain_answered (h : FreshRequest s k req x) (hfit : rangesFit rs = true)
    (hmay : MayRead x.kind (rangeAddrs rs)) {ws : List Word}
    (hws : (s.dev.touch k).PlainWords (rangeAddrs rs) ws) :
    ∃ t, exec (.read k req rs) s = .next t ∧ AnsweredOnly s t k (touched s x) req
      ⟨0x90, 0, [word (s.dev.touch k).tick, word ((s.dev.touch k).tick / 2 ^ 32)] ++ ws⟩ [] :=
  ⟨_, h.exec_read rs,
    Dev.readMsg_plain hfit (h.kindOf_touch ▸ hmay) hws req ▸ h.touch_unanswered.answeredOnly ..⟩

theorem FreshRequest.read_unmapped_answered (h : FreshRequest s k req x) (hfit : rangesFit rs = true)
    (hmay : MayRead x.kind (rangeAddrs rs)) (hun : ∃ a ∈ rangeAddrs rs, locate a = none ∧ windowCode a = none) :
    ∃ t, exec (.read k req rs) s = .next t ∧ Answered s t k (touched s x) req ⟨0x90, 10, []⟩ := by
  obtain ⟨e, hsent, he⟩ := Dev.readMsg_unmapped hfit (h.kindOf_touch.symm ▸ hmay) hun req
  have hsess : e.session? k = some (touched s x) := by
    rw [Dev.session?, hsent.host]
    exact h.touch_unanswered.session
  exact ⟨_, h.exec_read rs, he ▸ answered_respond hsess hsent.out req _⟩

/-! ## WRITE of a session -/

variable {es : List WEntry}

theorem FreshRequest.write_refused_answered (h : FreshRequest s k req x)
    (hwhy : (s.dev.touch k).writeWhy k es = 1 ∨ (s.dev.touch k).writeWhy k es = 2) :
    ∃ t, exec (.write k req es) s = .next t ∧
      AnsweredOnly s t k (touched s x) req ⟨0x91, (s.dev.touch k).writeWhy k es, []⟩ [] ∧
      t.dev.evts = s.dev.evts := by
  have hnow := Dev.writeNow_turnedAway req (d := s.dev.touch k) (k := k) (es := es) (by omega)
  rw [if_pos (by omega)] at hnow
  refine ⟨_, h.exec_write es, hnow ▸ h.touch_unanswered.answeredOnly .., ?_⟩
  show ((s.dev.touch k).writeNow k req es).evts = _
  rw [hnow, respond_evts h.touch_unanswered.session]
  rfl

theorem FreshRequest.write_rejected_answered (h : FreshRequest s k req x)
    (hwhy : 2 < (s.dev.touch k).writeWhy k es) :
    ∃ t, exec (.write k req es) s = .next t ∧
      AnsweredOnly s t k (touched s x) req ⟨0x91, (s.dev.touch k).writeWhy k es, []⟩ [] ∧
      t.dev.evts.length = s.dev.evts.length + 1 := by
  have hnow := Dev.writeNow_turnedAway req (d := s.dev.touch k) (k := k) (es := es) (by omega)
  rw [if_neg (by omega)] at hnow
  have hnoted : Unanswered s ((s.dev.touch k).noteRej ((s.dev.touch k).writeWhy k es) 0) k (touched s x) [] :=
    h.touch_unanswered.record _
  refine ⟨_, h.exec_write es, hnow ▸ hnoted.answeredOnly .., ?_⟩
  show ((s.dev.touch k).writeNow k req es).evts.length = _
  rw [hnow, respond_evts hnoted.session]
  exact List.length_append

theorem FreshRequest.write_guardFails_answered (h : FreshRequest s k req x) {g w : WEntry} {r q : RegAt}
    (hwhy : (s.dev.touch k).writeWhy k [g, w] = 0) (hg : g.op = 1) (hw : w.op = 0) (hr : PlainAt g.adr r)
    (hq : PlainAt w.adr q) (hne : (s.dev.touch k).plainWord r g.adr &&& g.mask ≠ g.value) :
    ∃ t, exec (.write k req [g, w]) s = .next t ∧ AnsweredOnly s t k (touched s x) req
      ⟨0x91, 5, [2, (s.dev.touch k).plainWord r g.adr, 4, (s.dev.touch k).plainWord q w.adr]⟩ [] :=
  ⟨_, h.exec_write _, Dev.writeNow_guardFails req hwhy hg hw hr hq hne ▸
    (h.touch_unanswered.record _).answeredOnly ..⟩

theorem FreshRequest.write_guardHolds_answered (h : FreshRequest s k req x) {g : WEntry} {r : RegAt}
    (hwhy : (s.dev.touch k).writeWhy k [g] = 0) (hg : g.op = 1) (hr : PlainAt g.adr r)
    (heq : (s.dev.touch k).plainWord r g.adr &&& g.mask = g.value) :
    ∃ t, exec (.write k req [g]) s = .next t ∧ AnsweredOnly s t k (touched s x) req
      ⟨0x91, 0, [1, (s.dev.touch k).plainWord r g.adr]⟩ [] :=
  ⟨_, h.exec_write _, Dev.writeNow_guardHolds req hwhy hg hr heq ▸ (h.touch_unanswered.record _).answeredOnly ..⟩

/-- The word that AX_PLAUS of axis 5 would hold after a write entry. -/
def plausAfter (s : State) (k : Fin 4) (w : WEntry) : Word :=
  merge ((s.dev.touch k).rd w.adr) w.value (w.mask &&& accMask w.adr .RW)

variable {w : WEntry}

theorem FreshRequest.write_axPlaus_rejected (h : FreshRequest s k req x)
    (hwhy : (s.dev.touch k).writeWhy k [w] = 0) (hw : w.op = 0) (hadr : w.adr = R.AX_PLAUS.adr 5)
    (hn : (R.AX_PLAUS.n 5).get (plausAfter s k w) = 0) :
    ∃ t, exec (.write k req [w]) s = .next t ∧ AnsweredOnly s t k (touched s x) req
      ⟨0x91, 0, [3, (s.dev.touch k).rd w.adr]⟩ [R.AX_EVT.adr 5] ∧ t.dev.flag (R.AX_EVT.cfg_rej 5) = true := by
  have hnow := Dev.writeNow_axPlaus_rejected hadr req hwhy hw hn
  have hset : Unanswered s (((s.dev.touch k).note 5 1 0).setB (R.AX_EVT.cfg_rej 5) true) k (touched s x) _ :=
    (h.touch_unanswered.record _).setB ..
  refine ⟨_, h.exec_write _, hnow ▸ hset.answeredOnly .., ?_⟩
  show ((s.dev.touch k).writeNow k req [w]).flag _ = _
  rw [hnow, Dev.flag, Dev.fld, respond_rd hset.session]
  exact Dev.flag_setB_self ((s.dev.touch k).note 5 1 0) (R.AX_EVT.cfg_rej 5) true (by decide) rfl

theorem FreshRequest.write_axPlaus_taken (h : FreshRequest s k req x)
    (hwhy : (s.dev.touch k).writeWhy k [w] = 0) (hw : w.op = 0) (hadr : w.adr = R.AX_PLAUS.adr 5)
    (hn : (R.AX_PLAUS.n 5).get (plausAfter s k w) ≠ 0) :
    ∃ t, exec (.write k req [w]) s = .next t ∧ t.dev.rd w.adr = plausAfter s k w ∧
      Answered s t k (touched s x) req ⟨0x91, 0, [0, plausAfter s k w]⟩ ∧ RegsKept s t [w.adr] ∧ MemKept s t ∧
      OnlyDev s t := by
  obtain ⟨l, hnow⟩ := Dev.writeNow_axPlaus_taken hadr req hwhy hw hn
  have hrun := h.exec_write (es := [w])
  rw [hnow] at hrun
  have hsess : ((((s.dev.touch k).note 5 1 0).wr w.adr (plausAfter s k w)).updTwin
      (fun z => { z with wrote := l })).session? k = some (touched s x) := h.touch_unanswered.session
  refine ⟨_, hrun, (respond_rd hsess ..).trans (Dev.rd_wr_self ..), answered_respond hsess rfl .., ?_,
    fun a => respond_byteAt hsess .., rfl⟩
  intro a ha
  exact (respond_rd hsess ..).trans (Dev.rd_wr_ne _ _ (by simpa using ha))

end

/-! ## REGISTER_WRITE -/

/-- A writer whose single register write reaches the bus: a firmware engine always, a session where it is open and
nothing stands against its entry. -/
def WriterActs (s : State) (by_ : Actor) (addr v mask : Word) : Prop :=
  match by_ with
  | .firmware _ => True
  | .session k =>
    (s.dev.session? k).isSome = true ∧ s.dev.writeWhy k [WEntry.mk addr v mask] = 0 ∧ bits addr 1 0 = 0

/-- The address of an entry whose op is 0 is the word as it stands. -/
theorem adr_of_bits_zero {addr : Word} (h : bits addr 1 0 = 0) (v mask : Word) :
    (WEntry.mk addr v mask).adr = addr.toNat := by
  have hlow : addr &&& 0xFFFFFFFC#32 = addr := by
    have hbits : addr &&& 3#32 = 0#32 := by
      apply BitVec.eq_of_toNat_eq
      rw [BitVec.toNat_and]
      simpa [bits] using (Nat.and_two_pow_sub_one_eq_mod addr.toNat 2).trans (by simpa [bits] using h)
    calc addr &&& 0xFFFFFFFC#32 = addr &&& 0xFFFFFFFC#32 ||| addr &&& 3#32 := by rw [hbits, BitVec.or_zero]
      _ = addr &&& (0xFFFFFFFC#32 ||| 3#32) := by rw [BitVec.and_or_distrib_left]
      _ = addr := BitVec.and_allOnes
  rw [WEntry.adr, hlow]

section
variable {s : State} {by_ : Actor} {addr v mask : Word}

/-- A write that may be made is a write of its word on the bus, by its writer. -/
theorem WriterActs.exec_eq (h : WriterActs s by_ addr v mask) : ∃ w : Who,
    exec (.registerWrite by_ addr v mask) s = .next { s with dev := (s.dev.busWrite w addr.toNat v mask).1 } := by
  cases by_ with
  | firmware m => exact ⟨{ m := m }, rfl⟩
  | session k =>
    obtain ⟨hopen, hwhy, hbits⟩ := h
    refine ⟨{ sess := some k }, ?_⟩
    show Host.Outcome.next { s with dev := if _ then _ else _ } = _
    rw [if_pos ⟨hopen, hwhy⟩, adr_of_bits_zero hbits]

/-- A session whose write may not be made changes nothing. -/
theorem exec_registerWrite_of_not_acts (h : ¬ WriterActs s by_ addr v mask) (hsess : ∀ m, by_ ≠ .firmware m)
    (hbits : bits addr 1 0 = 0) : exec (.registerWrite by_ addr v mask) s = .next s := by
  cases by_ with
  | firmware m => exact absurd rfl (hsess m)
  | session k =>
    show Host.Outcome.next { s with dev := if _ then _ else _ } = _
    rw [if_neg fun hacts => h ⟨hacts.1, hacts.2, hbits⟩]

theorem WriterActs.unmapped_unchanged (h : WriterActs s by_ addr v mask) (hloc : locate addr.toNat = none)
    (hwin : windowCode addr.toNat = none) : exec (.registerWrite by_ addr v mask) s = .next s := by
  obtain ⟨w, hw⟩ := h.exec_eq
  rw [hw, Dev.busWrite_unmapped hloc hwin]

theorem WriterActs.devMode_unchanged (h : WriterActs s by_ addr v mask) (ha : addr.toNat = R.DEV_MODE.adr) :
    exec (.registerWrite by_ addr v mask) s = .next s := by
  obtain ⟨w, hw⟩ := h.exec_eq
  rw [hw, ha, Dev.busWrite_devMode]

theorem WriterActs.axLim_written (h : WriterActs s by_ addr v mask) {i : Nat} (hi : i < 128)
    (ha : addr.toNat = R.AX_LIM.adr i) : ∃ t, exec (.registerWrite by_ addr v mask) s = .next t ∧
      RegWritten s t addr.toNat (merge (s.dev.rd addr.toNat) v (mask &&& accMask addr.toNat .RW)) [] := by
  obtain ⟨w, hw⟩ := h.exec_eq
  rw [ha] at hw ⊢
  have hmode : R.AX_LIM.adr i ≠ R.DEV_MODE.adr := by unfold R.AX_LIM.adr R.DEV_MODE.adr; omega
  obtain ⟨l, hwrote, hl⟩ := wroteBy_accept hmode s.dev
    (merge (s.dev.rd (R.AX_LIM.adr i)) v (mask &&& accMask (R.AX_LIM.adr i) .RW))
  rw [Dev.busWrite_axLim hi, hwrote] at hw
  exact ⟨_, hw, Dev.rd_wr_self .., fun a hne => Dev.rd_wr_ne _ _ (by simpa using hne), hl, fun _ => rfl, rfl⟩

theorem WriterActs.axPrfEvt_cleared (h : WriterActs s by_ addr v mask) {i : Nat} (hi : i < 128)
    (ha : addr.toNat = R.AX_PRF_EVT.adr i) : ∃ t, exec (.registerWrite by_ addr v mask) s = .next t ∧
      t.dev.rd addr.toNat = s.dev.rd addr.toNat &&& ~~~ (v &&& mask &&& accMask addr.toNat .W1C) ∧
      BitsKept s t [wholeReg addr.toNat] ∧ OnlyRegs s t := by
  obtain ⟨w, hw⟩ := h.exec_eq
  rw [ha] at hw ⊢
  rw [Dev.busWrite_axPrfEvt hi] at hw
  refine ⟨_, hw, Dev.rd_wr_self .., ?_, rfl⟩
  intro a j hj hout
  have hne : a ≠ R.AX_PRF_EVT.adr i := by
    rintro rfl
    rcases hout _ List.mem_cons_self with h | h | h
    · exact h rfl
    · exact absurd h (Nat.not_lt_zero j)
    · exact absurd h (Nat.not_lt.mpr (Nat.le_of_lt_succ hj))
  exact congrArg (fun w => w.getLsbD j) (Dev.rd_wr_ne _ _ hne)

end

/-! ## The obligation -/

/-- Settles O55: a request runs under the rule of R541, and of each request and of a single register write the
model's equation gives what it answers and leaves. -/
theorem hostRequests : Obligations.HostRequests := by
  refine ⟨fun s k req c hc => IsRequest.executed_once hc, ?_, ?_⟩
  · intro s k req x h
    refine ⟨h.ping_answered, fun rs => ?_, fun es => ?_⟩
    · refine ⟨fun hforms => h.read_unfit_answered (mt (rangesFit_iff rs).mp hforms),
        fun hforms hmay => h.read_denied_answered ((rangesFit_iff rs).mpr hforms) hmay,
        fun ws hforms hmay hlen hws =>
          h.read_plain_answered ((rangesFit_iff rs).mpr hforms) hmay (Dev.plainWords_of_getD hlen hws),
        fun hforms hmay hun => h.read_unmapped_answered ((rangesFit_iff rs).mpr hforms) hmay hun⟩
    · refine ⟨h.write_refused_answered, h.write_rejected_answered, ?_, ?_, ?_⟩
      · rintro g w r q rfl hwhy hg hw hr hq hne
        exact h.write_guardFails_answered hwhy hg hw hr hq hne
      · rintro g r rfl hwhy hg hr heq
        exact h.write_guardHolds_answered hwhy hg hr heq
      · rintro w rfl hwhy hw hadr
        exact ⟨h.write_axPlaus_rejected hwhy hw hadr, h.write_axPlaus_taken hwhy hw hadr⟩
  · intro s by_ addr v mask
    refine ⟨fun hnot hsess hbits => ⟨s, exec_registerWrite_of_not_acts hnot hsess hbits, rfl⟩,
      fun hacts hloc hwin => ⟨s, WriterActs.unmapped_unchanged hacts hloc hwin, rfl⟩,
      fun i hi hacts ha => WriterActs.axLim_written hacts hi ha,
      fun i hi hacts ha => WriterActs.axPrfEvt_cleared hacts hi ha,
      fun hacts ha => ⟨s, WriterActs.devMode_unchanged hacts ha, rfl⟩⟩

end Sys2Proof
end
